-- ==== Sys2Proof/Word.lean ====
section
/-! DEFINITION. The words the spec treats as bits (00 R8), and the one shape in which the model holds sparse data by key.
Everything the spec only counts (ticks, grain indices, KeyIDs, byte counts, rates) is a `Nat`. -/

namespace Sys2Proof

/-- One byte. -/
abbrev Byte := BitVec 8
/-- One register (26 R549). -/
abbrev W32 := BitVec 32
/-- A 64-bit field. -/
abbrev W64 := BitVec 64

/-- Sparse data by number: pairs in strictly rising key order, holding no entry equal to what an unlisted key reads as. -/
abbrev Tbl (α : Type) := List (Nat × α)

end Sys2Proof
end

