-- ==== Sys2Proof/Syntax.lean ====
section
/-! DEFINITION. The commands the block takes, one constructor per row of the spec's opcode table, in its order, those without operands after the others. A command is a write or read of a register, a step of a
protocol, an event on a pin or in a clock domain, or a report of one of the units the block works with; its operands are what that agent supplies. -/

namespace Sys2Proof

/-- The commands. Operand names used throughout: `s`/`sl`/`n` a slice, `v` a VF or a value, `f` a function (64: PF0), `q` a queue, `p` and `l` a fabric port and its
link, `c`/`cl` a cluster, `k` a stack, `b` a staging bank, `src` the source of a register access (0 host, 1 debug port, 2–5 the control cores), `g` a grain, `h` a pod,
`id`/`rid` a request, `sub` the sixteenths of a nanosecond into the tick, `ue` an uncorrectable codeword, `tag` and `tags` the received tag bytes of a flit and of the packet flits after it, `hdr` a flit header,
`keyx` the bytes of a key exchange, `far` the port, link, priority and request tag a request came in by from a partner package (14 R309). -/
inductive Instr
  /-- A parent receives an ALIGN request and answers with t2, t3 and its own offset to the root. (R317) -/
  | alignRequest (p l hdr t2 t3 : Nat) (ue : Bool) (tag : List Byte)
  /-- A child receives an ALIGN response, computes its offset to the root and corrects its count. (R317) -/
  | alignResponse (p l hdr t1 t2 t3 t4 : Nat) (off : Int) (ue : Bool) (tag : List Byte)
  /-- A read of LLY_SPN_TICK_LO, or its VF mirror, latches the high half of the count into TICK_HI. (R46) -/
  | tickLoRead (f src : Nat)
  /-- A read of LLY_CHK_TICK_LO latches the high half of the last effective commit tick into LLY_CHK_TICK_HI. (R97) -/
  | chkTickLoRead (src : Nat)
  /-- A memory request arrives at a Binder filter and is checked in the order of the filter table. (R60) -/
  | memoryRequest (id cls tag addr len : Nat) (write : Bool) (mask : Nat) (data : List Byte) (port aux sub : Nat) (far : Option (Nat × Nat × Nat × Nat))
  /-- The regulator issues a waiting request to its crypt engine once the bucket holds its charge. (R255) -/
  | requestIssue (tag stack sub : Nat)
  /-- A memory controller returns a line with its ECC status and the crypt engine resolves it against its slot. (R106) -/
  | memResponse (id addr tagEcc : Nat) (tagLine : List W64) (dataEcc : Nat) (cipher : List Byte) (sub : Nat)
  /-- A held read is delivered to its requester in the first cycle at or after I + 640 ns. (R257) -/
  | readDelivery (id addr sub : Nat)
  /-- A controller reports a failed region on MPT_FAIL_k, making the covered grains POISON or failing the stack. (R538) -/
  | failedRegion (k first last : Nat)
  /-- A stack queue level of 7 held for 4,000 tk raises a class 3 event for the stack's fault domain. (R269) -/
  | stackQueueLevelHold (k v : Nat)
  /-- A write to LLY_BND_GT_SEL latches the selected grain's active entry into GT_LO and GT_HI. (R74) -/
  | gtSelWrite (src g : Nat)
  /-- LLY_CHK_COMMIT with CHECK set runs the consistency checks on the named bank. (R81) -/
  | chkCommitCheck (b : Nat)
  /-- LLY_CHK_COMMIT with GO set arms the named bank and starts the commit sequence. (R83) -/
  | chkCommitGo (b : Nat)
  /-- LLY_CHK_COMMIT with CANCEL set empties the named bank where its state allows. (R83) -/
  | chkCommitCancel (b : Nat)
  /-- The consistency checks of an armed or checked bank end, passing or naming the first failing check. (R81) -/
  | checkDone (b : Nat)
  /-- The vault reports the memory key sets of a commit's new KeyIDs derived. (R330) -/
  | keysetReady (keyid : Nat)
  /-- A write to LLY_CHK_MODE stages LEND and INTERLEAVE, or drops an INTERLEAVE change and sets REJECTED. (R98) -/
  | chkModeWrite (v : Nat)
  /-- The scrubber starts on the next DIRTY grain in its order, making it SCRUBBING. (R92) -/
  | scrubStart (g : Nat)
  /-- The scrubber finishes a grain, which becomes BLANK, or POISON on a failed verify. (R56) -/
  | scrubDone (g : Nat) (bad : Bool)
  /-- All 32 engines of a stack have walked a grain and the Binder writes its new KEYID. (R119) -/
  | rekeyGrainDone (n stack : Nat)
  /-- A write to LLY_MCE_KSEL latches the selected KeyID's state into LLY_MCE_KSTAT. (R125) -/
  | mceKselWrite (src k : Nat)
  /-- A write to LLY_MCE_WSEL latches the selected slice's walk into WSTAT and WLEFT. (R125) -/
  | mceWselWrite (src n : Nat)
  /-- A cluster requests a weight tile and its entry on its DDL port, adapted through a fold descriptor when FOLD is set. (R134) -/
  | tileRead (rid cl taddr caddr img tix variant fmt fold : Nat)
  /-- A die-side checker reports a failed DIE_ARRIVE or DIE_USE check, raising TILE_CHECK. (R135) -/
  | dieCheckReport (site cl engine q jgen taskId instr img tix variant fmt crc word : Nat) (ident : Bool) (tile : List Byte) (mod : Nat)
  /-- A write to LLY_TCU_INJECT arms a one-shot CRC error at the chosen site, where the state allows. (R138) -/
  | tcuInjectWrite (v : Nat)
  /-- An IN_FLIGHT fold descriptor reaches its turn, is checked and is admitted on a unit of its UNIT_MASK. (R170) -/
  | inFlight (sl q : Nat)
  /-- A COPY fold descriptor folds one pod's span into the slice's COPY region with entries and scales. (R176) -/
  | copy (sl q : Nat)
  /-- A STEP descriptor advances a pod's masters and optimiser state by SGD or AdamW. (R178) -/
  | step (sl q : Nat)
  /-- A REDUCE descriptor sums its sources element by element into DST. (R184) -/
  | reduce (sl q : Nat)
  /-- A gather ends when all variants' reads have arrived or GATHER tk have passed, and the base tile is read once. (R172) -/
  | gatherEnd (sl q entry tix : Nat)
  /-- A folded variant is emitted whole with its fresh CRC to every gathered cluster. (R173) -/
  | tileFoldDone (sl q entry : Nat)
  /-- A fold, copy or reduce pass ends and its 32-byte fold completion is written. (R187) -/
  | passDone (sl q entry : Nat)
  /-- A STEP writes its last block, advances GEN and ends STEPPING, possibly leaving the pod FROZEN. (R182) -/
  | stepDone (sl q entry : Nat)
  /-- A queued husk fetch starts once its run fits in the slice's pod space. (R203) -/
  | fetchStart (sl : Nat)
  /-- The vault delivers a husk section key exactly 260 tk after the request. (R331) -/
  | huskKeyReady (sl h : Nat) (secT : Bool)
  /-- A husk section has arrived and is checked; the pod becomes RESIDENT_T1 or returns to ABSENT. (R201) -/
  | fetchDone (sl h : Nat) (secT : Bool)
  /-- A pod's run has been copied to the shelf and the pod becomes RESIDENT_T0. (R207) -/
  | promotionDone (sl h : Nat)
  /-- The last byte of a POD_PUT husk is accepted and the entry takes the new address and SAVED_GEN. (R205) -/
  | huskWriteDone (sl h : Nat)
  /-- An uncorrectable error in a shelf unit drops the pod's T0 copy. (R219) -/
  | shelfUe (u : Nat)
  /-- An uncorrectable error in a factor buffer faults the pass's slice. (R219) -/
  | factorEcc (sl q entry h : Nat)
  /-- A write of COUNT to LLY_DPA_DB_q submits descriptors, admitting up to the ring space and refusing the rest. (R225) -/
  | doorbell (v q count : Nat)
  /-- A write to LLY_DPA_CQH_q advances the completion head and frees room for waiting completions. (R228) -/
  | dpaCqhWrite (v q h : Nat)
  /-- A write to LLY_DPA_QSEL latches the queue's status and counts together. (R250) -/
  | qselWrite (v q : Nat)
  /-- A RUN descriptor reaches its turn, is read and checked, and waits for its conditions. (R229) -/
  | run (sl q : Nat)
  /-- A JOIN descriptor reaches its turn and enters its slice's admission queue. (R244) -/
  | join (sl q : Nat)
  /-- A LEAVE descriptor frees its listed in-use PRIVATE grains in class 6. (R245) -/
  | leave (sl q : Nat)
  /-- A DMA descriptor moves host data into device memory within the slice's host grants. (R231) -/
  | toDevice (sl q : Nat)
  /-- A DMA descriptor moves device data to host memory within the slice's host grants. (R231) -/
  | toHost (sl q : Nat)
  /-- A DMA transfer ends, completing OK or FAULTED with the bytes moved. (R231) -/
  | dmaDone (sl q : Nat)
  /-- An idle cluster or newly ready work leads the Dispatch assist to place a task or image by score. (R235) -/
  | placement (sl : Nat)
  /-- A compute die reports a task ended, forming resident groups and signalling its sync counter. (R232) -/
  | taskEnd (c : Nat) (checkFailed : Bool)
  /-- A queue completion is written to its ring when room exists, and its IRQ is signalled. (R228) -/
  | completionWrite (n q : Nat) (err : Bool)
  /-- A task's quantum expires and it is switched out when another queue of its class waits. (R238) -/
  | quantumExpiry (c : Nat)
  /-- A pre-emption or time-slice save into a slot ends and the cluster is freed. (R241) -/
  | saveDone (c : Nat)
  /-- A restore ends, the task resumes and its slot is freed. (R243) -/
  | restoreDone (c : Nat)
  /-- Engine code sets a sync counter of its slice, which may satisfy waiting tasks. (R229) -/
  | syncCounterSet (sl k v : Nat)
  /-- Every 3,906,250 tk while a queue refuses, one record per slice carries the refusals of the period. (R248) -/
  | refusals (n : Nat)
  /-- A read of LLY_BWR_REPORT latches its epoch number into LLY_BWR_REPORT_EPOCH. (R270) -/
  | bwrReportRead (v : Nat)
  /-- A write to LLY_AUD_SEL latches the selected conservation sum into LLY_AUD_VAL. (R282) -/
  | audSelWrite (src v : Nat)
  /-- A returning transit buffer finishes zeroing and joins the free list. (R274) -/
  | bufferZeroed (ch h : Nat)
  /-- The host interface controller returns request credits on HIF_CRED_RET. (R276) -/
  | hostCreditReturn (n : Nat)
  /-- HIF_LINK_UP changes; credits are given at link-up and all discarded on a fall. (R532) -/
  | hostLinkUp (up : Bool) (init : Nat)
  /-- A completion packet from the host arrives for an outstanding read or write. (R534) -/
  | hostCompletion (tag stat : Nat) (data : List Byte)
  /-- A link completes training phase 5 and becomes READY. (R288) -/
  | trainingDone (p l locked : Nat) (fast reversed : Bool)
  /-- Training not READY within 240 ms fails with TIMEOUT and the link goes DOWN. (R288) -/
  | trainingTimeout (p l : Nat)
  /-- A DOWN link starts full training again at an epoch boundary at least 4,000 tk after failing. (R289) -/
  | trainingRetry (p l : Nat)
  /-- A write of 1 to a bit of LLY_FPC_CTL.RETRAIN retrains every link of that port, or is dropped. (R290) -/
  | fpcCtlRetrain (v : Nat)
  /-- A 64-bit status word arrives on a management lane with the partner's state and masks. (R285) -/
  | statusWord (p q state : Nat) (gen2 : Bool) (width mask byp fp : Nat)
  /-- Nothing received on a management lane for 4,000 tk makes it silent. (R285) -/
  | mgmtLaneSilent (p q : Nat)
  /-- A lane loses lock or is reported failed and the link starts a degrade to a clean group. (R293) -/
  | laneFail (p lane : Nat) (lock : Bool) (corr : Nat)
  /-- Deskew and FEC lock on the chosen lane group complete and flits flow again. (R295) -/
  | degradeDone (p l : Nat)
  /-- Every link of a pair is acknowledged and BYP_OPEN_n rises, inserting the package. (R300) -/
  | bypassOpen (k : Nat)
  /-- After 4 tk of CLOSING the pair's bypass falls and the links go down without PORT_DOWN. (R301) -/
  | bypassClose (k : Nat)
  /-- An IDLE flit arrives, carrying acknowledgements and credit returns. (R304) -/
  | idle (p l hdr : Nat) (ue : Bool) (tag : List Byte)
  /-- A SYNC flit restarts the receiver's flit counter at the value it carries. (R312) -/
  | sync (p l hdr ctr : Nat) (ue : Bool) (tag : List Byte)
  /-- A CREDIT flit advertises each holder's FSLICE_ID and parts per VC. (R308) -/
  | credit (p l hdr idx : Nat) (entries : List (Nat × Nat × List Nat)) (ue : Bool) (tag : List Byte)
  /-- A fabric read packet for the receiving member's memory is served and answered by RDRSP or ERR. (R307) -/
  | rd (p l hdr fslice result len addr rtag : Nat) (ue : Bool) (tag : List Byte)
  /-- A fabric write packet is written and answered by one WRACK or ERR. (R307) -/
  | wr (p l hdr fslice result len addr rtag : Nat) (data : List Byte) (ue : Bool) (tag : List Byte)
  /-- A read response packet returns data for an earlier fabric read. (R307) -/
  | rdrsp (p l hdr fslice addr rtag : Nat) (data : List Byte) (ue : Bool) (tag : List Byte)
  /-- A write acknowledgement packet confirms an earlier fabric write. (R307) -/
  | wrack (p l hdr fslice addr rtag : Nat) (ue : Bool) (tag : List Byte)
  /-- An error packet answers a fabric request with DENIED, POISONED, NO_SLICE or ABORTED. (R307) -/
  | err (p l hdr fslice result addr rtag : Nat) (ue : Bool) (tag : List Byte)
  /-- A SIGNAL packet raises a sync counter of the slice to max(counter, AUX). (R307) -/
  | signal (p l hdr fslice result len aux : Nat) (ue : Bool) (tag : List Byte)
  /-- A KEYX HELLO carrying a nonce and fingerprint starts session key derivation. (R313) -/
  | hello (p l hdr nonce fp : Nat) (ue : Bool) (tag : List Byte)
  /-- A KEYX CONFIRM under the new key is verified, or ends training with KEY. (R313) -/
  | confirm (p l hdr : Nat) (mac : List Byte) (ue : Bool) (tag : List Byte)
  /-- No CONFIRM within 1 ms ends training with reason KEY. (R313) -/
  | keyxTimeout (p l : Nat)
  /-- A direction's flit counter reaches 2^39 and the side sends REKEY_REQ. (R315) -/
  | rekeyThreshold (p l : Nat) (rx : Bool)
  /-- A KEYX REKEY_REQ arrives and the partner answers REKEY_ACK and derives the next session. (R315) -/
  | rekeyReq (p l hdr nonce : Nat) (ue : Bool) (tag : List Byte)
  /-- A REKEY_ACK arrives and both sides switch keys behind SYNC flits. (R315) -/
  | rekeyAck (p l hdr nonce : Nat) (ue : Bool) (tag : List Byte)
  /-- No REKEY_ACK within 1 ms; the rekey is restarted at the next epoch boundary. (R315) -/
  | rekeyTimeout (p l : Nat)
  /-- A direction reaching counter 2^40 unswitched stops sending and takes the link DOWN. (R316) -/
  | counterLimit (p l : Nat)
  /-- An ABORT flit is received, its tick adopted and forwarded if earlier, or ignored. (R319) -/
  | abort (p l hdr fslice hops kind x origin res : Nat) (rest : List Byte) (ue : Bool) (tag : List Byte)
  /-- At the abort tick X the member contains the multi-package slice. (R320) -/
  | abortTick (n : Nat)
  /-- The entropy source is retested 1 ms after a failure. (R324) -/
  | entropyRetest (pass : Bool)
  /-- Exactly 160 tk after acceptance the slice challenge response is written. (R345) -/
  | challengeResponse (n : Nat)
  /-- SPDM GET_VERSION is answered with versions 1.2 and 1.3. (R338) -/
  | getVersion (t : Nat)
  /-- SPDM GET_CAPABILITIES is answered with the capabilities of R339. (R339) -/
  | getCapabilities (t ver : Nat)
  /-- SPDM NEGOTIATE_ALGORITHMS selects P-384, SHA-384 and AES-256-GCM. (R339) -/
  | negotiateAlgorithms (t : Nat) (offered : Bool)
  /-- SPDM GET_DIGESTS returns the digests of certificate slots 0 and 1. (R338) -/
  | getDigests (t : Nat)
  /-- SPDM GET_CERTIFICATE returns a chain of slot 0 or 1. (R335) -/
  | getCertificate (t slot off len : Nat)
  /-- SPDM CHALLENGE on slot 0 is answered signed by the alias key. (R338) -/
  | spdmChallenge (t slot : Nat) (nonce : List Byte)
  /-- SPDM GET_MEASUREMENTS returns measurement blocks, signed on request. (R340) -/
  | getMeasurements (t idx : Nat) (signed : Bool) (nonce : List Byte)
  /-- SPDM KEY_EXCHANGE opens a secure session authenticated by slot 0. (R338) -/
  | keyExchange (t slot : Nat) (data : List Byte)
  /-- SPDM FINISH completes a secure session's handshake. (R338) -/
  | finish (t id : Nat) (mac : List Byte)
  /-- SPDM KEY_UPDATE updates a session's keys. (R338) -/
  | keyUpdate (t id : Nat)
  /-- SPDM HEARTBEAT keeps a secure session alive. (R338) -/
  | heartbeat (t id : Nat)
  /-- SPDM END_SESSION ends a secure session. (R338) -/
  | endSession (t id : Nat)
  /-- Any other SPDM request is answered with ERROR UnsupportedRequest. (R338) -/
  | spdmUnsupported (t : Nat)
  /-- TDISP GET_TDISP_VERSION is answered with version 1.0. (R379) -/
  | getTdispVersion (id f : Nat)
  /-- TDISP GET_TDISP_CAPABILITIES is answered. (R379) -/
  | getTdispCapabilities (id f : Nat)
  /-- A VF moves from CONFIG_UNLOCKED to CONFIG_LOCKED if it presents a slice not under reset. (R380) -/
  | lockInterfaceRequest (id f : Nat)
  /-- Returns the VF's interface report with its BAR range, slice, statement VERSION, digest and GEN. (R381) -/
  | getDeviceInterfaceReport (id f : Nat)
  /-- Returns the VF's TDISP state. (R379) -/
  | getDeviceInterfaceState (id f : Nat)
  /-- A CONFIG_LOCKED VF with the lock's nonce moves to RUN. (R380) -/
  | startInterfaceRequest (id f : Nat) (nonce : List Byte)
  /-- A VF returns to CONFIG_UNLOCKED. (R380) -/
  | stopInterfaceRequest (id f : Nat)
  /-- An MCTP control message arrives over the I3C sideband and is answered. (R545) -/
  | mctpControl (cmd : Nat) (data : List Byte)
  /-- A fuse bit finishes its burn and verify, and the burn proceeds or stops. (R359) -/
  | fuseBitDone (ok : Bool)
  /-- A DDP_ACCESS frame with OP 1 reads a PF0 register where debug permits. (R547) -/
  | ddpRead (a : Nat)
  /-- A DDP_ACCESS frame with OP 2 writes a PF0 register where debug permits. (R547) -/
  | ddpWrite (a v : Nat)
  /-- A DDP_ACCESS frame with OP 3 accesses a control core's debug registers. (R547) -/
  | ddpCoreDebug (c r : Nat) (wr : Bool) (v : Nat)
  /-- A configuration write of VF Enable or NumVFs changes which VFs exist and advances their GEN. (R370) -/
  | vfEnable (en : Bool) (num : Nat)
  /-- A configuration write changing a VF's BAR, Memory Space Enable or MSI-X control moves a locked VF to ERROR. (R380) -/
  | configWrite (f r v : Nat)
  /-- A function level reset of a VF resets its configuration, advances GEN and raises a slice reset. (R376) -/
  | flr (v : Nat)
  /-- Unmasking a vector with its pending bit set sends its message. (R375) -/
  | msixUnmask (f v : Nat) (mask : Bool)
  /-- A write to LLY_MBX_CFG enables or stops a function's mailbox rings, or sets CFGERR. (R384) -/
  | mbxCfgWrite (f v : Nat)
  /-- A write to LLY_MBX_SQ_TAIL submits mailbox commands as a class 11 event. (R385) -/
  | sqTail (f v : Nat)
  /-- A write to LLY_MBX_CQ_HEAD frees room in the completion ring. (R386) -/
  | mbxCqHeadWrite (f v : Nat)
  /-- A mailbox completion is written when the ring has room, with its phase bit and MBOX event. (R386) -/
  | mbxCompletionWrite (f : Nat) (err : Bool)
  /-- A lease reaches R + L unrenewed and expires. (R396) -/
  | leaseExpiry (f : Nat)
  /-- Chooses the function's protocol major and features. (R408) -/
  | negotiate (f : Nat)
  /-- Takes the function's lease; a reattach advances GEN and restamps the rings. (R409) -/
  | attach (f : Nat)
  /-- Renews the lease in hardware at the stamp of its tail write. (R410) -/
  | lease (f : Nat)
  /-- Ends the lease at its effective tick. (R411) -/
  | detach (f : Nat)
  /-- Writes the slice's signed statement to host memory. (R420) -/
  | statementGet (f : Nat)
  /-- Installs the slice secret from a wrapped key. (R421) -/
  | secretInstall (f : Nat)
  /-- Obtains the slice challenge response under the slice secret. (R422) -/
  | challenge (f : Nat)
  /-- Registers a pod and optionally fetches it. (R430) -/
  | podOpen (f : Nat)
  /-- Returns a pod-table entry to the owning slice. (R432) -/
  | podQuery (f : Nat)
  /-- Writes the pod as a fresh husk to host memory. (R433) -/
  | podPut (f : Nat)
  /-- Makes a pod PINNED on the shelf. (R434) -/
  | podPin (f : Nat)
  /-- Returns a PINNED pod to RESIDENT_T0. (R434) -/
  | podUnpin (f : Nat)
  /-- Evicts a pod from T1. (R434) -/
  | podEvict (f : Nat)
  /-- Retires a pod and releases its bindings. (R434) -/
  | podClose (f : Nat)
  /-- Gives a pod a new identity and restarts its moments. (R435) -/
  | podRebase (f : Nat)
  /-- Sets the fold mode of the pod's layers. (R436) -/
  | podSetMode (f : Nat)
  /-- Installs a pod root from a wrapped key. (R437) -/
  | podKeyBind (f : Nat)
  /-- Claims a slot for a pod in class 9. (R438) -/
  | slotClaim (f : Nat)
  /-- Releases a slot in class 6. (R439) -/
  | slotRelease (f : Nat)
  /-- Claims a spare expert for a pod once it is resident. (R438) -/
  | expertClaim (f : Nat)
  /-- Releases a spare expert binding in class 6. (R439) -/
  | expertRelease (f : Nat)
  /-- Creates a hardware queue at the lowest free local number. (R440) -/
  | queueCreate (f : Nat)
  /-- Destroys a queue after its running descriptors end. (R441) -/
  | queueDestroy (f : Nat)
  /-- Cancels a queue's unstarted work and advances its JGEN. (R441) -/
  | queueFlush (f : Nat)
  /-- QUEUE_SUSPEND with OP 1 stops placement of the queue's work. (R442) -/
  | suspend (f : Nat)
  /-- QUEUE_SUSPEND with OP 2 also pre-empts the queue's running tasks. (R442) -/
  | suspendSave (f : Nat)
  /-- QUEUE_SUSPEND with OP 3 makes the queue's work eligible again. (R442) -/
  | resume (f : Nat)
  /-- Writes a latched record of the queue's job counts. (R443) -/
  | queueCounts (f : Nat)
  /-- Sets the slice's capture mode for its next fault. (R444) -/
  | captureMode (f : Nat)
  /-- Copies part of a capture to host memory and optionally releases it. (R445) -/
  | captureRead (f : Nat)
  /-- Raises a slice reset request in class 4. (R446) -/
  | sliceReset (f : Nat)
  /-- A control core's watchdog expires and raises a core restart request. (R461) -/
  | coreWatchdog (core : Nat)
  /-- An access outside a component's domain is denied and raises a core restart request. (R454) -/
  | mpuViolation (core comp addr : Nat)
  /-- An uncorrectable ECC error in a core's data SRAM raises a core restart request. (R461) -/
  | coreEccError (core : Nat)
  /-- An illegal instruction on a control core raises a core restart request. (R461) -/
  | illegalInstruction (core : Nat)
  /-- A restarting core is released from reset with its data SRAM zeroed. (R461) -/
  | coreRelease (core : Nat)
  /-- A component reports RUNNING after rebuilding from its ledger. (R462) -/
  | componentRunning (comp : Nat)
  /-- A component not RUNNING within 5 ms of release raises a block-level CONTROL fault. (R463) -/
  | runningTimeout (comp : Nat)
  /-- An enabled firmware trace point writes a log ring entry. (R464) -/
  | tracePoint (comp group num : Nat) (args : List Byte) (busy : Bool)
  /-- The engine watchdog expires for an engine that retires no instruction. (R468) -/
  | engineHang (cl engine ticks instr : Nat)
  /-- The memory response watchdog expires for an unanswered request. (R468) -/
  | memTimeout (id addr sub : Nat)
  /-- The DDL watchdog expires for a port without acknowledgement, failing the die's domain. (R468) -/
  | dieFail (die m : Nat)
  /-- A hub unit makes no progress for 4,000 tk, a block-level fault. (R468) -/
  | unitHang (unit : Nat)
  /-- A recovery phase exceeds its bound and the slice is held. (R492) -/
  | recoveryPhaseTimeout (n : Nat)
  /-- A compute die reports an illegal instruction, trap or parity error of an engine. (R466) -/
  | engineError (cl engine code detail instr : Nat)
  /-- A compute die reports uncorrectable ECC in scratchpad. (R466) -/
  | scratchUe (cl off : Nat)
  /-- A compute die acknowledges that a contained cluster's engines stopped. (R472) -/
  | engineStopAck (cl : Nat)
  /-- Engines not stopped by C + 66 put their cluster in cluster reset. (R473) -/
  | clusterReset (cl : Nat)
  /-- A cluster reset not complete by C + 80 takes the cluster out of service. (R473) -/
  | clusterOutOfService (cl : Nat)
  /-- At C + 89 the slice is CONTAINED, the primary record written and capture started. (R472) -/
  | contained (n : Nat)
  /-- A capture is written into the slice's highest save slot. (R483) -/
  | captureDone (n : Nat) (data : List Byte)
  /-- A DDL module group or stack channels finish retraining, or fail and escalate. (R486) -/
  | retrainDone (kind idx k : Nat) (ok : Bool)
  /-- The slice reset's clear and retrainings are done and the reset ends. (R487) -/
  | sliceResetEnd (n failed : Nat)
  /-- VDD_LLY falls below the warning threshold and LLY_ALERT_n is asserted. (R498) -/
  | vllyWarn (below : Bool)
  /-- A die reports temperature and power, counted to the closing epoch. (R542) -/
  | sensorReport (die temp power : Nat)
  /-- Every data line is zeroed and verified, and unsound grains are POISON. (R513) -/
  | memoryClearDone (bad : List Nat)
  /-- Clocks, count, keys and audit are restored and unparked slices resume. (R510) -/
  | wakeDone (periods wake : Nat)
  /-- A unit without requests for 64 tk is clock-gated. (R506) -/
  | unitIdle (unit : Nat)
  /-- A write to LLY_EVR_SEL latches the selected record into LLY_EVR_REC. (R523) -/
  | evrSelWrite (src idx : Nat)
  /-- Writing an enable bit to 1 while its cause bit is set sends its MSI-X message. (R557) -/
  | irqEnWrite (src v : Nat)
  /-- A write to a register with no row of its own takes effect by its access type or is dropped with LLY_ID_ACCERR. (R549) -/
  | registerWrite (src f off be v : Nat)
  /-- A read of LLY_SPN_DEFER returns and clears the deferral count. (R10) -/
  | spnDeferRead (src : Nat)
  /-- A read of LLY_BND_DENY_CNT returns and clears the denial count. (R10) -/
  | bndDenyCntRead (src : Nat)
  /-- A read of LLY_MCE_POISON_CNT returns and clears the poisoning count. (R10) -/
  | mcePoisonCntRead (src : Nat)
  /-- A read of LLY_MCE_CECC_CNT returns and clears the corrected ECC count. (R10) -/
  | mceCeccCntRead (src : Nat)
  /-- A read of LLY_MCE_TAGC_MISS returns and clears the tag-line fetch count. (R10) -/
  | mceTagcMissRead (src : Nat)
  /-- A read of LLY_TCU_MISS_CNT returns and clears the mismatch count. (R10) -/
  | tcuMissCntRead (src : Nat)
  /-- A read of LLY_FLD_ABANDON returns and clears the abandoned tile count. (R10) -/
  | fldAbandonRead (src : Nat)
  /-- A read of LLY_PCM_HUSK_FAIL returns and clears the husk failure count. (R10) -/
  | pcmHuskFailRead (src : Nat)
  /-- A read of LLY_PCM_FACTOR_UE returns and clears the factor error count. (R10) -/
  | pcmFactorUeRead (src : Nat)
  /-- A read of LLY_BWR_LATE returns and clears the late read count. (R10) -/
  | bwrLateRead (src : Nat)
  /-- A read of LLY_FPC_EVCNT returns and clears the degrade and down counts. (R10) -/
  | fpcEvcntRead (src : Nat)
  /-- A read of LLY_FPC_LNKCNT returns and clears the GCM and protocol counts. (R10) -/
  | fpcLnkcntRead (src : Nat)
  /-- A read of LLY_FPC_RETRY returns and clears the retransmission count. (R10) -/
  | fpcRetryRead (src : Nat)
  /-- A read of LLY_FPC_ABORT returns and clears the abort counts. (R10) -/
  | fpcAbortRead (src : Nat)
  /-- A read of LLY_VLT_REMASK returns and clears the re-mask round count. (R10) -/
  | vltRemaskRead (src : Nat)
  /-- A read of LLY_VLT_TRNG returns and clears the health-test failure count. (R10) -/
  | vltTrngRead (src : Nat)
  /-- A read of LLY_HFP_STALE returns and clears the stale discard count. (R10) -/
  | hfpStaleRead (f src : Nat)
  /-- A read of LLY_MBX_DROP returns and clears the dropped completion count. (R10) -/
  | mbxDropRead (f src : Nat)
  /-- A read of LLY_CCX_RESTARTS returns and clears the per-core restart counts. (R10) -/
  | ccxRestartsRead (src : Nat)
  /-- A read of LLY_CCX_LOG returns the write pointer and clears the drop count. (R10) -/
  | ccxLogRead (src : Nat)
  /-- A read of LLY_FLT_COUNT returns and clears the fault and report count. (R10) -/
  | fltCountRead (src : Nat)
  /-- A compute die reports a parked slice's clusters in retention, or reports them out of retention with their spilled state reloaded and tasks resumed. (R507) -/
  | retentionDone (n : Nat)
  /-- A DOE Discovery request on PF0's DOE mailbox is answered with the supported protocols, and an object above 4 KiB is answered with the DOE error bit and discarded. (R378) -/
  | doeDiscovery (index len : Nat)
  /-- The I3C controller runs ENTDAA and the sideband target takes a dynamic address with its provisional ID. (R545) -/
  | entdaa (a : Nat)
  /-- Loading an instruction other than EXTEST, CLAMP or HIGHZ, such as BYPASS, IDCODE, SAMPLE/PRELOAD or DDP_ACCESS, ends a boundary-scan hold of Llyna in warm reset. (R364) -/
  | instructionLoad (op : Nat)
  /-- Every 32 SPREF cycles the Spindle advances the tick count and samples every event queue, stamping each entry present with the tick. (R29) -/
  | tick
  /-- At every stamp 4,000n an epoch-boundary event takes effect with cap level, power cap, lending and epoch reports. (R262) -/
  | epochBoundary
  /-- Every 1,000 tk a non-root package sends an ALIGN request to its parent port. (R317) -/
  | alignTimer
  /-- No successful exchange for 4,000 tk makes the package LOST and faults every hosted multi-package slice. (R43) -/
  | alignLost
  /-- Every grain the armed bank awaits is BLANK, ending WAIT_BLANK and starting the drain. (R83) -/
  | blanksReady
  /-- WAIT_BLANK exceeds LLY_CHK_WAIT_LIMIT and the commit completes with DEFER_MEM, the bank returning to CHECKED. (R94) -/
  | waitLimitExpiry
  /-- The full-state saves of departing clusters end and their clear starts. (R84) -/
  | drainSaveDone
  /-- Departing clusters have cleared scratchpad, registers and accumulators, and the memory drain starts. (R85) -/
  | clusterClearDone
  /-- No request of the affected set is in flight and the Chuck raises the class 5 commit event. (R86) -/
  | drainDone
  /-- Every 1 ms the vault sends fresh seeds and every key share is re-masked. (R332) -/
  | remask
  /-- Every 1 ms the CTR_DRBG is reseeded from the TRNG. (R322) -/
  | drbgReseed
  /-- A health-test failure stops DRBG output; a second within 1 s is a vault tamper. (R324) -/
  | entropyFail
  /-- The secure domain's voltage monitor trips, a vault tamper causing a security halt. (R325) -/
  | glitch
  /-- The vault core's lockstep copies disagree, a vault tamper causing a security halt. (R325) -/
  | lockstepMismatch
  /-- A reference clock lies outside 1,000 ppm or stops, a glitch tamper. (R531) -/
  | clockMonitorTrip
  /-- A 6,000 tk signing slot begins; its owner's request is carried out and delivered at the slot's last tick. (R343) -/
  | signingSlot
  /-- LLY_LC_CTRL.GO requests the transition to TARGET and starts the burn if accepted. (R358) -/
  | go
  /-- LLY_LC_CTRL.DBG_OPEN verifies a debug authorisation in DEV with no tenant slice. (R365) -/
  | dbgOpen
  /-- LLY_LC_CTRL.DBG_CLOSE closes debug and re-derives the alias key. (R365) -/
  | dbgClose
  /-- LLY_LC_CTRL.NEW_NONCE draws a fresh nonce into LLY_LC_NONCE. (R360) -/
  | newNonce
  /-- Debug authorisation verification ends and debug opens, or the request fails. (R365) -/
  | debugVerifyDone
  /-- Loading EXTEST holds Llyna in warm reset while it stays loaded. (R364) -/
  | extest
  /-- Loading CLAMP holds Llyna in warm reset while it stays loaded. (R364) -/
  | clamp
  /-- Loading HIGHZ holds Llyna in warm reset while it stays loaded. (R364) -/
  | highz
  /-- A DDP_ACCESS frame with OP 0 returns status. (R547) -/
  | ddpStatus
  /-- An FLR of PF0 clears VF Enable and NumVFs, advances PF0's GEN and clears LLY_IRQ_EN. (R377) -/
  | pf0Flr
  /-- Configuration space becomes answered and LLY_HFP_READY.CFG rises. (R382) -/
  | cfgReady
  /-- Start-up audit passes and LLY_HFP_READY.FW rises, so every block and command is served. (R382) -/
  | fwReady
  /-- LLY_MBX_DCTL.GO executes the command in LLY_MBX_DCMD on the direct mailbox. (R391) -/
  | dctlGo
  /-- Places a slice definition in the loading bank. (R412) -/
  | sliceStage
  /-- Stages the destruction of a slice. (R413) -/
  | sliceDestroy
  /-- Places grain change records for a slice in the loading bank. (R414) -/
  | grainStage
  /-- Runs the consistency checks of a bank. (R416) -/
  | check
  /-- Arms a bank and completes at or after its effective tick. (R417) -/
  | commit
  /-- Empties a bank where its state allows. (R418) -/
  | cancel
  /-- Reports the lowest free usable KeyID at or above START. (R419) -/
  | keyFind
  /-- Binds a base image through the phases of R351. (R423) -/
  | imageBind
  /-- The image loader has loaded and checked every grain and the seal phase starts. (R351) -/
  | imageLoadDone
  /-- Requests a lifecycle transition through the lifecycle registers. (R425) -/
  | lcTransition
  /-- DEBUG_CTL with OP 1 opens debug with an authorisation. (R426) -/
  | debugCtlOpen
  /-- DEBUG_CTL with OP 2 closes debug. (R426) -/
  | debugCtlClose
  /-- REC_CTL with OP 1 freezes the event recorder. (R520) -/
  | freeze
  /-- REC_CTL with OP 2 offers a THAW record and resumes writing. (R520) -/
  | unfreeze
  /-- REC_CTL with OP 3 zeroes a frozen recorder. (R521) -/
  | clear
  /-- Zeroing of the record SRAM ends and a CLEARED record is written at index 0. (R521) -/
  | clearDone
  /-- Copies event records to host memory. (R448) -/
  | recRead
  /-- Sets the enabled trace point groups. (R449) -/
  | logMask
  /-- Copies part of the firmware log ring to host memory. (R449) -/
  | logRead
  /-- The boot ROM loads and verifies an Ililo image and passes control to it. (R450) -/
  | fwLoad
  /-- Stages and verifies a new control image and starts the live update. (R451) -/
  | fwUpdate
  /-- Quiesce ends by S + 20 ms and the cores switch to the standby bank. (R459) -/
  | quiesceEnd
  /-- The new image writes ADOPT, the banks exchange roles and the alias key is re-derived. (R459) -/
  | adopt
  /-- ADOPT not written by S + 200 ms, or a failure before it, restores the old image. (R460) -/
  | rollback
  /-- After retraining the audit passes, traffic is admitted and LLY_ALERT_n released. (R490) -/
  | blockResetReady
  /-- A block reset not READY within 1 s of B makes the device FAILED. (R492) -/
  | blockReadyTimeout
  /-- VDD_SEC main falls and the secure domain switches to VBAK. (R496) -/
  | secBackup
  /-- VDD_SEC main returns and the secure domain switches back. (R496) -/
  | secMain
  /-- The secure domain is still on VBAK 35 ms after SEC_BACKUP. (R497) -/
  | backupTimeout
  /-- VDD_LLY falls below the reset threshold and Llyna performs a cold reset. (R498) -/
  | vddLlyLoss
  /-- Both VDD_SEC main and VBAK are lost, clearing the recorder at the next power-up. (R522) -/
  | secureDomainLost
  /-- Assertion of LLY_PORST_n resets the whole block and closes bypasses within 20 ns. (R501) -/
  | coldReset
  /-- Assertion of LLY_WRST_n destroys slices, releases images and clears firmware. (R502) -/
  | warmReset
  /-- Release of LLY_PORST_n ends cold reset at the next tick boundary, tick 0. (R528) -/
  | porstRelease
  /-- Release of LLY_WRST_n ends the warm reset at the next tick boundary. (R528) -/
  | wrstRelease
  /-- Every carve-out slot has been written with Z(a) and verified. (R513) -/
  | carveoutInitDone
  /-- The vault self-test ends and the identity keys are derived. (R513) -/
  | vaultSelfTestDone
  /-- A write to LLY_SRC_CTL.DEEP_REQ starts DEEP entry, or is dropped with DEEPREF. (R509) -/
  | deepReq
  /-- The block has parked, closed bypasses and power-gated into DEEP. (R509) -/
  | deepEntryDone
  /-- A host write, sideband message or LLY_WRST_n wakes the device from DEEP. (R510) -/
  | wake
  /-- The recorder writes the next queued record to SRAM every 8 ACLK cycles. (R517) -/
  | recordWrite
  /-- The engines finish writing Z(a) into every slot of the system tag's OWNED grains after an Interleave change, and the Binder releases the system requests it held. (R123) -/
  | interleaveMarkerWriteDone
  /-- The secure domain powers up after losing both VDD_SEC main and VBAK; the recorder zeroes its SRAM and counters and Llyna performs a cold reset. (R522) -/
  | secureDomainPowerUp
  /-- An HDR entry command on the I3C bus makes the sideband target ignore the bus. (R545) -/
  | hdrEntry
  /-- The HDR exit pattern on the I3C bus returns the sideband target to listening. (R545) -/
  | hdrExit
  /-- Assertion of TRST_n holds the TAP in reset, unloading EXTEST, CLAMP or HIGHZ and ending the warm-reset hold they imposed. (R546) -/
  | tapReset
deriving DecidableEq, Repr

end Sys2Proof
end

