-- ==== Sys2Proof/WellFormed.lean ====
section
/-! DEFINITION. The operands an agent can supply: the numbers of slices, ports, clusters, registers and lengths that the spec gives the block (01 R17, R18, 00 R8). A
meaning is total: it stands for an operand outside its range too, reduced to the bits the block has or finding nothing to act on. -/

namespace Sys2Proof

/-- Grains of the device (01 R17). -/
def Instr.grains : Nat := 285696

/-- Whether an operand lies below a bound. -/
def below (n b : Nat) : Bool := decide (n < b)

/-- The operand ranges of a command. -/
def Instr.wf (i : Instr) : Bool :=
  match i with
  | .alignRequest p l hdr t2 t3 _ _ => below p 8 && below l 4 && below hdr (2 ^ 64) && below t2 (2 ^ 74) && below t3 (2 ^ 74)
  | .alignResponse p l hdr t1 t2 t3 t4 _ _ _ => below p 8 && below l 4 && below hdr (2 ^ 64) && below t1 (2 ^ 74) && below t2 (2 ^ 74) && below t3 (2 ^ 74) && below t4 (2 ^ 74)
  | .tickLoRead f src => below f 65 && below src 6
  | .chkTickLoRead src => below src 6
  | .memoryRequest _ cls tag addr len write _ data port aux sub _ => below cls 9 && below tag 256 && below addr (2 ^ 48) && below len 4097 && below port 256 && below aux (2 ^ 32) && below sub 4096 && (!write || data.length == len)
  | .requestIssue tag stack sub => below tag 256 && below stack 8 && below sub 4096
  | .memResponse _ addr tagEcc tagLine dataEcc cipher sub => below addr (2 ^ 48) && below tagEcc 3 && below dataEcc 3 && below sub 4096 && tagLine.length == 32 && cipher.length == 256
  | .readDelivery _ addr sub => below addr (2 ^ 48) && below sub 4096
  | .failedRegion k first last => below k 8 && below first 301989888 && below last 301989888 && decide (first ≤ last)
  | .stackQueueLevelHold k v => below k 8 && below v 8
  | .gtSelWrite src g => below src 6 && below g (2 ^ 24)
  | .chkCommitCheck b => below b 2
  | .chkCommitGo b => below b 2
  | .chkCommitCancel b => below b 2
  | .checkDone b => below b 2
  | .keysetReady keyid => below keyid 1024
  | .chkModeWrite v => below v (2 ^ 32)
  | .scrubStart g => below g Instr.grains
  | .scrubDone g _ => below g Instr.grains
  | .rekeyGrainDone n stack => below n 64 && below stack 8
  | .mceKselWrite src k => below src 6 && below k 1024
  | .mceWselWrite src n => below src 6 && below n 64
  | .tileRead _ cl taddr caddr img tix variant fmt fold => below cl 64 && below taddr (2 ^ 48) && below caddr (2 ^ 48) && below img 4 && below tix (2 ^ 32) && below variant (2 ^ 32) && below fmt 16 && below fold 65536
  | .dieCheckReport site cl engine q jgen taskId instr img tix variant fmt crc word _ _ mod => below site 4 && below cl 64 && below engine 4 && below q 4096 && below jgen 65536 && below taskId (2 ^ 64) && below instr (2 ^ 32) && below img 4 && below tix (2 ^ 32) && below variant (2 ^ 32) && below fmt 16 && below crc (2 ^ 32) && below word (2 ^ 32) && below mod 20
  | .tcuInjectWrite v => below v (2 ^ 32)
  | .inFlight sl q => below sl 64 && below q 4096
  | .copy sl q => below sl 64 && below q 4096
  | .step sl q => below sl 64 && below q 4096
  | .reduce sl q => below sl 64 && below q 4096
  | .gatherEnd sl q _ tix => below sl 64 && below q 4096 && below tix (2 ^ 32)
  | .tileFoldDone sl q _ => below sl 64 && below q 4096
  | .passDone sl q _ => below sl 64 && below q 4096
  | .stepDone sl q _ => below sl 64 && below q 4096
  | .fetchStart sl => below sl 64
  | .huskKeyReady sl h _ => below sl 64 && below h (2 ^ 32)
  | .fetchDone sl h _ => below sl 64 && below h (2 ^ 32)
  | .promotionDone sl h => below sl 64 && below h (2 ^ 32)
  | .huskWriteDone sl h => below sl 64 && below h (2 ^ 32)
  | .shelfUe u => below u 7168
  | .factorEcc sl q _ h => below sl 64 && below q 4096 && below h (2 ^ 32)
  | .doorbell v q count => below v 64 && below q 4096 && below count 8192
  | .dpaCqhWrite v q h => below v 64 && below q 4096 && below h 65536
  | .qselWrite v q => below v 64 && below q 4096
  | .run sl q => below sl 64 && below q 4096
  | .join sl q => below sl 64 && below q 4096
  | .leave sl q => below sl 64 && below q 4096
  | .toDevice sl q => below sl 64 && below q 4096
  | .toHost sl q => below sl 64 && below q 4096
  | .dmaDone sl q => below sl 64 && below q 4096
  | .placement sl => below sl 64
  | .taskEnd c _ => below c 64
  | .completionWrite n q _ => below n 64 && below q 4096
  | .quantumExpiry c => below c 64
  | .saveDone c => below c 64
  | .restoreDone c => below c 64
  | .syncCounterSet sl k v => below sl 64 && below k 256 && below v (2 ^ 64)
  | .refusals n => below n 64
  | .bwrReportRead v => below v 64
  | .audSelWrite src v => below src 6 && below v (2 ^ 32)
  | .bufferZeroed ch h => below ch 112 && below h 256
  | .hostCreditReturn n => below n 4097
  | .hostLinkUp _ init => below init 4097
  | .hostCompletion tag stat _ => below tag 4096 && below stat 8
  | .trainingDone p l locked _ _ => below p 8 && below l 4 && below locked (2 ^ 32)
  | .trainingTimeout p l => below p 8 && below l 4
  | .trainingRetry p l => below p 8 && below l 4
  | .fpcCtlRetrain v => below v (2 ^ 32)
  | .statusWord p q state _ width mask byp fp => below p 8 && below q 4 && below state 16 && below width 3 && below mask (2 ^ 32) && below byp 2 && below fp (2 ^ 32)
  | .mgmtLaneSilent p q => below p 8 && below q 4
  | .laneFail p lane _ _ => below p 8 && below lane 32
  | .degradeDone p l => below p 8 && below l 4
  | .bypassOpen k => below k 4
  | .bypassClose k => below k 4
  | .idle p l hdr _ _ => below p 8 && below l 4 && below hdr (2 ^ 64)
  | .sync p l hdr ctr _ _ => below p 8 && below l 4 && below hdr (2 ^ 64) && below ctr (2 ^ 40)
  | .credit p l hdr idx _ _ _ => below p 8 && below l 4 && below hdr (2 ^ 64) && below idx 256
  | .rd p l hdr fslice result len addr rtag _ _ => below p 8 && below l 4 && below hdr (2 ^ 64) && below fslice (2 ^ 32) && below result 256 && below len 65536 && below addr (2 ^ 48) && below rtag 65536
  | .wr p l hdr fslice result len addr rtag _ _ _ => below p 8 && below l 4 && below hdr (2 ^ 64) && below fslice (2 ^ 32) && below result 256 && below len 65536 && below addr (2 ^ 48) && below rtag 65536
  | .rdrsp p l hdr fslice addr rtag _ _ _ => below p 8 && below l 4 && below hdr (2 ^ 64) && below fslice (2 ^ 32) && below addr (2 ^ 48) && below rtag 65536
  | .wrack p l hdr fslice addr rtag _ _ => below p 8 && below l 4 && below hdr (2 ^ 64) && below fslice (2 ^ 32) && below addr (2 ^ 48) && below rtag 65536
  | .err p l hdr fslice result addr rtag _ _ => below p 8 && below l 4 && below hdr (2 ^ 64) && below fslice (2 ^ 32) && below result 256 && below addr (2 ^ 48) && below rtag 65536
  | .signal p l hdr fslice result len aux _ _ => below p 8 && below l 4 && below hdr (2 ^ 64) && below fslice (2 ^ 32) && below result 256 && below len 65536 && below aux (2 ^ 64)
  | .hello p l hdr nonce fp _ _ => below p 8 && below l 4 && below hdr (2 ^ 64) && below nonce (2 ^ 256) && below fp (2 ^ 32)
  | .confirm p l hdr _ _ _ => below p 8 && below l 4 && below hdr (2 ^ 64)
  | .keyxTimeout p l => below p 8 && below l 4
  | .rekeyThreshold p l _ => below p 8 && below l 4
  | .rekeyReq p l hdr nonce _ _ => below p 8 && below l 4 && below hdr (2 ^ 64) && below nonce (2 ^ 256)
  | .rekeyAck p l hdr nonce _ _ => below p 8 && below l 4 && below hdr (2 ^ 64) && below nonce (2 ^ 256)
  | .rekeyTimeout p l => below p 8 && below l 4
  | .counterLimit p l => below p 8 && below l 4
  | .abort p l hdr fslice hops kind x origin res _ _ _ => below p 8 && below l 4 && below hdr (2 ^ 64) && below fslice (2 ^ 32) && below hops 256 && below kind 256 && below x (2 ^ 64) && below origin (2 ^ 32) && below res (2 ^ 32)
  | .abortTick n => below n 64
  | .entropyRetest _ => true
  | .challengeResponse n => below n 64
  | .getVersion t => below t 2
  | .getCapabilities t ver => below t 2 && below ver 256
  | .negotiateAlgorithms t _ => below t 2
  | .getDigests t => below t 2
  | .getCertificate t slot off len => below t 2 && below slot 16 && below off 65536 && below len 65536
  | .spdmChallenge t slot nonce => below t 2 && below slot 16 && nonce.length == 32
  | .getMeasurements t idx signed nonce => below t 2 && below idx 256 && (!signed || nonce.length == 32)
  | .keyExchange t slot _ => below t 2 && below slot 16
  | .finish t id _ => below t 2 && below id (2 ^ 32)
  | .keyUpdate t id => below t 2 && below id (2 ^ 32)
  | .heartbeat t id => below t 2 && below id (2 ^ 32)
  | .endSession t id => below t 2 && below id (2 ^ 32)
  | .spdmUnsupported t => below t 2
  | .getTdispVersion id f => below id (2 ^ 32) && below f 65
  | .getTdispCapabilities id f => below id (2 ^ 32) && below f 65
  | .lockInterfaceRequest id f => below id (2 ^ 32) && below f 65
  | .getDeviceInterfaceReport id f => below id (2 ^ 32) && below f 65
  | .getDeviceInterfaceState id f => below id (2 ^ 32) && below f 65
  | .startInterfaceRequest id f nonce => below id (2 ^ 32) && below f 65 && nonce.length == 32
  | .stopInterfaceRequest id f => below id (2 ^ 32) && below f 65
  | .mctpControl cmd _ => below cmd 256
  | .fuseBitDone _ => true
  | .ddpRead a => below a (2 ^ 24)
  | .ddpWrite a v => below a (2 ^ 24) && below v (2 ^ 32)
  | .ddpCoreDebug c r _ v => below c 4 && below r 64 && below v (2 ^ 32)
  | .vfEnable _ num => below num 65
  | .configWrite f r v => below f 65 && below r 4096 && below v (2 ^ 32)
  | .flr v => below v 64
  | .msixUnmask f v _ => below f 65 && below v 32
  | .mbxCfgWrite f v => below f 65 && below v (2 ^ 32)
  | .sqTail f v => below f 65 && below v (2 ^ 32)
  | .mbxCqHeadWrite f v => below f 65 && below v (2 ^ 32)
  | .mbxCompletionWrite f _ => below f 65
  | .leaseExpiry f => below f 65
  | .negotiate f => below f 65
  | .attach f => below f 65
  | .lease f => below f 65
  | .detach f => below f 65
  | .statementGet f => below f 65
  | .secretInstall f => below f 65
  | .challenge f => below f 65
  | .podOpen f => below f 65
  | .podQuery f => below f 65
  | .podPut f => below f 65
  | .podPin f => below f 65
  | .podUnpin f => below f 65
  | .podEvict f => below f 65
  | .podClose f => below f 65
  | .podRebase f => below f 65
  | .podSetMode f => below f 65
  | .podKeyBind f => below f 65
  | .slotClaim f => below f 65
  | .slotRelease f => below f 65
  | .expertClaim f => below f 65
  | .expertRelease f => below f 65
  | .queueCreate f => below f 65
  | .queueDestroy f => below f 65
  | .queueFlush f => below f 65
  | .suspend f => below f 65
  | .suspendSave f => below f 65
  | .resume f => below f 65
  | .queueCounts f => below f 65
  | .captureMode f => below f 65
  | .captureRead f => below f 65
  | .sliceReset f => below f 65
  | .coreWatchdog core => below core 4
  | .mpuViolation core comp addr => below core 4 && below comp 5 && below addr (2 ^ 32)
  | .coreEccError core => below core 4
  | .illegalInstruction core => below core 4
  | .coreRelease core => below core 4
  | .componentRunning comp => below comp 5
  | .runningTimeout comp => below comp 5
  | .tracePoint comp group num args _ => below comp 5 && below group 64 && below num 65536 && args.length == 16
  | .engineHang cl engine _ instr => below cl 64 && below engine 4 && below instr (2 ^ 32)
  | .memTimeout _ addr sub => below addr (2 ^ 48) && below sub 4096
  | .dieFail die m => below die 4 && below m 20
  | .unitHang unit => below unit 17
  | .recoveryPhaseTimeout n => below n 64
  | .engineError cl engine code detail instr => below cl 64 && below engine 4 && below code 256 && below detail (2 ^ 32) && below instr (2 ^ 32)
  | .scratchUe cl off => below cl 64 && below off (2 ^ 24)
  | .engineStopAck cl => below cl 64
  | .clusterReset cl => below cl 64
  | .clusterOutOfService cl => below cl 64
  | .contained n => below n 64
  | .captureDone n _ => below n 64
  | .retrainDone kind idx k _ => below kind 4 && below idx 256 && below k 20
  | .sliceResetEnd n failed => below n 64 && below failed (2 ^ 64)
  | .vllyWarn _ => true
  | .sensorReport die temp power => below die 5 && below temp 256 && below power 4096
  | .memoryClearDone bad => bad.all (fun g => decide (g < Instr.grains))
  | .wakeDone _ _ => true
  | .unitIdle unit => below unit 17
  | .evrSelWrite src idx => below src 6 && below idx 65536
  | .irqEnWrite src v => below src 6 && below v (2 ^ 32)
  | .registerWrite src f off be v => below src 6 && below f 65 && below off (2 ^ 24) && below be 16 && below v (2 ^ 32)
  | .spnDeferRead src => below src 6
  | .bndDenyCntRead src => below src 6
  | .mcePoisonCntRead src => below src 6
  | .mceCeccCntRead src => below src 6
  | .mceTagcMissRead src => below src 6
  | .tcuMissCntRead src => below src 6
  | .fldAbandonRead src => below src 6
  | .pcmHuskFailRead src => below src 6
  | .pcmFactorUeRead src => below src 6
  | .bwrLateRead src => below src 6
  | .fpcEvcntRead src => below src 6
  | .fpcLnkcntRead src => below src 6
  | .fpcRetryRead src => below src 6
  | .fpcAbortRead src => below src 6
  | .vltRemaskRead src => below src 6
  | .vltTrngRead src => below src 6
  | .hfpStaleRead f src => below f 65 && below src 6
  | .mbxDropRead f src => below f 65 && below src 6
  | .ccxRestartsRead src => below src 6
  | .ccxLogRead src => below src 6
  | .fltCountRead src => below src 6
  | .retentionDone n => below n 64
  | .doeDiscovery index _ => below index 256
  | .entdaa a => below a 128
  | .instructionLoad op => below op 32
  | .tick => true
  | .epochBoundary => true
  | .alignTimer => true
  | .alignLost => true
  | .blanksReady => true
  | .waitLimitExpiry => true
  | .drainSaveDone => true
  | .clusterClearDone => true
  | .drainDone => true
  | .remask => true
  | .drbgReseed => true
  | .entropyFail => true
  | .glitch => true
  | .lockstepMismatch => true
  | .clockMonitorTrip => true
  | .signingSlot => true
  | .go => true
  | .dbgOpen => true
  | .dbgClose => true
  | .newNonce => true
  | .debugVerifyDone => true
  | .extest => true
  | .clamp => true
  | .highz => true
  | .ddpStatus => true
  | .pf0Flr => true
  | .cfgReady => true
  | .fwReady => true
  | .dctlGo => true
  | .sliceStage => true
  | .sliceDestroy => true
  | .grainStage => true
  | .check => true
  | .commit => true
  | .cancel => true
  | .keyFind => true
  | .imageBind => true
  | .imageLoadDone => true
  | .lcTransition => true
  | .debugCtlOpen => true
  | .debugCtlClose => true
  | .freeze => true
  | .unfreeze => true
  | .clear => true
  | .clearDone => true
  | .recRead => true
  | .logMask => true
  | .logRead => true
  | .fwLoad => true
  | .fwUpdate => true
  | .quiesceEnd => true
  | .adopt => true
  | .rollback => true
  | .blockResetReady => true
  | .blockReadyTimeout => true
  | .secBackup => true
  | .secMain => true
  | .backupTimeout => true
  | .vddLlyLoss => true
  | .secureDomainLost => true
  | .coldReset => true
  | .warmReset => true
  | .porstRelease => true
  | .wrstRelease => true
  | .carveoutInitDone => true
  | .vaultSelfTestDone => true
  | .deepReq => true
  | .deepEntryDone => true
  | .wake => true
  | .recordWrite => true
  | .interleaveMarkerWriteDone => true
  | .secureDomainPowerUp => true
  | .hdrEntry => true
  | .hdrExit => true
  | .tapReset => true

/-- A well-formed command. -/
abbrev WellFormed (i : Instr) : Prop := i.wf = true

end Sys2Proof
end

