-- ==== Sys2Proof/Config.lean ====
section
/-! DEFINITION. What the spec leaves open, as constants without a body: nothing in Lean can evaluate them, so a claim about the
block holds for every value of them. -/

namespace Sys2Proof.Config

/-- A value of the vault's DRBG or TRNG, `n` bytes, by draw (15 R322). -/
opaque random : Nat → Nat → List Byte
/-- The 256 KiB of the boot ROM (21 R452), whose digest is DG_BOOTROM. -/
opaque bootRom : List Byte
/-- The certificate of the manufacturing CA (15 R335). -/
opaque rootCert : List Byte
/-- The X.509 text of a certificate the vault issues (15 R335), 0 alias and 1 binding, for its contents; the standard's DER form is outside the spec. -/
opaque certText : Nat → List Byte → List Byte
/-- A certificate from its text and its signature, in the standard's DER form (15 R335). -/
opaque certForm : List Byte → List Byte → List Byte
/-- The message an SPDM signature covers (15 R338): the connection's version, the response, its own bytes; the standard's transcript is outside the spec. -/
opaque transcript : Nat → Nat → List Byte → List Byte
/-- Whether the MAC of a FINISH verifies (15 R338): transport and session, and the MAC. -/
opaque finishMac : Nat → Nat → List Byte → Bool
/-- The order in which FAST accumulation takes its terms (07 R148, 08 R184): by draw, for `n` terms, the k-th taken. -/
opaque fastOrder : Nat → Nat → Nat → Nat
/-- The die temperature and package power a closing epoch shows where no report came (23 R503): by epoch. -/
opaque sensed : Nat → Nat
/-- A value the spec leaves to the implementation or states no result for: which, and the numbers it depends on. -/
opaque freeNat : Nat → List Nat → Nat

end Sys2Proof.Config
end

