-- ==== Sys2Proof/Machine/Table.lean ====
section
/-! DEFINITION. Reading and writing the sparse tables of `Sys2Proof.Tbl`. What an unlisted key reads as is the function `d`. -/

namespace Sys2Proof.Machine

/-- The value at key `k`; `d k` where nothing is listed. -/
def tget {α : Type} (d : Nat → α) (t : Tbl α) (k : Nat) : α :=
  match t with
  | [] => d k
  | (j, v) :: r => if j = k then v else tget d r k

/-- `t` without any entry at `k`. -/
def tdel {α : Type} (t : Tbl α) (k : Nat) : Tbl α :=
  t.filter (fun e => e.1 != k)

/-- An entry put in its rising place. -/
def tins {α : Type} (t : Tbl α) (k : Nat) (v : α) : Tbl α :=
  match t with
  | [] => [(k, v)]
  | (j, w) :: r => if k < j then (k, v) :: (j, w) :: r else (j, w) :: tins r k v

/-- The table with `v` at `k`, in canonical form: a value equal to `d k` is not listed. -/
def tset {α : Type} [DecidableEq α] (d : Nat → α) (t : Tbl α) (k : Nat) (v : α) : Tbl α :=
  if v = d k then tdel t k else tins (tdel t k) k v

/-- `tset` with a function of the old value. -/
def tmod {α : Type} [DecidableEq α] (d : Nat → α) (t : Tbl α) (k : Nat) (f : α → α) : Tbl α :=
  tset d t k (f (tget d t k))

/-- Every listed entry changed by `f`, dropping those that become the default. -/
def tmap {α : Type} [DecidableEq α] (d : Nat → α) (t : Tbl α) (f : Nat → α → α) : Tbl α :=
  (t.map (fun e => (e.1, f e.1 e.2))).filter (fun e => e.2 != d e.1)

/-- The keys whose listed values satisfy `p`. -/
def tkeys {α : Type} (t : Tbl α) (p : Nat → α → Bool) : List Nat :=
  (t.filter (fun e => p e.1 e.2)).map Prod.fst

/-- The same value changed at each key of a list. -/
def tmodAll {α : Type} [DecidableEq α] (d : Nat → α) (t : Tbl α) (ks : List Nat) (f : Nat → α → α) : Tbl α :=
  ks.foldl (fun t k => tmod d t k (f k)) t

/-- The canonical form of a table. -/
abbrev Tbl.wf {α : Type} [DecidableEq α] (d : Nat → α) (t : Tbl α) : Prop :=
  t.Pairwise (fun a b => a.1 < b.1) ∧ ∀ e ∈ t, e.2 ≠ d e.1

/-- The constant default. -/
def dflt {α : Type} (a : α) : Nat → α := fun _ => a

/-- Find in a list and replace: every element satisfying `p` is changed by `f`. -/
def lmod {α : Type} (l : List α) (p : α → Bool) (f : α → α) : List α :=
  l.map (fun a => if p a then f a else a)

/-- Bit `k` of a number used as a mask. -/
def bit (m k : Nat) : Bool := m.testBit k

/-- Bits `hi..lo` of a number. -/
def bits (m hi lo : Nat) : Nat := (m >>> lo) % 2 ^ (hi + 1 - lo)

/-- A number with bits `hi..lo` replaced by `v`. -/
def setBits (m hi lo v : Nat) : Nat :=
  m - bits m hi lo * 2 ^ lo + (v % 2 ^ (hi + 1 - lo)) * 2 ^ lo

/-- The set bits of a mask below `n`, ascending. -/
def maskList (m n : Nat) : List Nat := (List.range n).filter (fun k => bit m k)

/-- How many bits below `n` a mask has set. -/
def popc (m n : Nat) : Nat := (maskList m n).length

/-- `n ÷ d` rounded up. -/
def ceilDiv (n d : Nat) : Nat := (n + d - 1) / d

/-- A little-endian number from bytes (00 R8). -/
def leNat (bs : List Byte) : Nat :=
  match bs with
  | [] => 0
  | b :: r => b.toNat + 256 * leNat r

/-- `n` little-endian bytes of a number (00 R8). -/
def leBytes : Nat → Nat → List Byte
  | 0, _ => []
  | n + 1, v => BitVec.ofNat 8 v :: leBytes n (v / 256)

/-- The bytes of a list from offset `o`, `n` of them, short reads filled with zero. -/
def slice (bs : List Byte) (o n : Nat) : List Byte :=
  let c := (bs.drop o).take n
  c ++ List.replicate (n - c.length) 0

/-- The little-endian field of `n` bytes at byte offset `o`. -/
def fieldAt (bs : List Byte) (o n : Nat) : Nat := leNat (slice bs o n)

/-- Bytes `v` written at offset `o`. -/
def putAt (bs : List Byte) (o : Nat) (v : List Byte) : List Byte :=
  slice bs 0 o ++ v ++ bs.drop (o + v.length)

/-- A list without repeats, first occurrences kept. -/
def uniq (l : List Nat) : List Nat := l.foldl (fun a x => if a.contains x then a else a ++ [x]) []

/-- An element put before the first one it does not come after. -/
def insertBy {α : Type} (le : α → α → Bool) (x : α) : List α → List α
  | [] => [x]
  | y :: r => if le x y then x :: y :: r else y :: insertBy le x r

/-- A list in the order of `le`, equal elements in their given order. -/
def sortBy {α : Type} (le : α → α → Bool) (l : List α) : List α := l.foldr (insertBy le) []

/-- Ascending order. -/
def ascending (l : List Nat) : List Nat := sortBy (fun a b => decide (a ≤ b)) l

/-- Sum of a list of numbers. -/
def lsum (l : List Nat) : Nat := l.foldr (· + ·) 0

end Sys2Proof.Machine
end

