-- ==== Sys2Proof/Machine/FoldArith.lean ====
section
/-! DEFINITION. Fold arithmetic (07): number formats, exact sums, the roundings, dequantisation, the rank product, the encodings of the
output, and the element arithmetic of STEP and REDUCE (08 R178–R184). -/

namespace Sys2Proof.Machine

/-- A value: NaN, an infinity, or (−1)^neg · m · 2^e; m = 0 is a zero of that sign. -/
inductive Fl
  | nan
  | inf (neg : Bool)
  | fin (neg : Bool) (m : Nat) (e : Int)
deriving DecidableEq, Repr

def Fl.zero : Fl := .fin false 0 0

/-- Neither NaN nor an infinity. -/
def Fl.finite : Fl → Bool
  | .fin _ _ _ => true
  | _ => false

def Fl.neg : Fl → Fl
  | .nan => .nan
  | .inf n => .inf (!n)
  | .fin n m e => .fin (!n) m e

/-- The exact product (R146); 0 × ∞ is NaN (R150). -/
def Fl.mul (a b : Fl) : Fl :=
  match a, b with
  | .nan, _ | _, .nan => .nan
  | .inf n, .inf k => .inf (n != k)
  | .inf n, .fin k m _ | .fin k m _, .inf n => if m = 0 then .nan else .inf (n != k)
  | .fin n m e, .fin k l f => .fin (n != k) (m * l) (e + f)

/-- A magnitude with its sign, at the lower of two exponents. -/
def signedAt (n : Bool) (m : Nat) (e lo : Int) : Int :=
  let v : Int := (m * 2 ^ (e - lo).toNat : Nat)
  if n then -v else v

/-- The exact sum; a zero sum is −0 only when both terms are −0 (R150). -/
def Fl.add (a b : Fl) : Fl :=
  match a, b with
  | .nan, _ | _, .nan => .nan
  | .inf n, .inf k => if n = k then .inf n else .nan
  | .inf n, .fin _ _ _ | .fin _ _ _, .inf n => .inf n
  | .fin n m e, .fin k l f =>
    if m = 0 && l = 0 then .fin (n && k) 0 0
    else if m = 0 then .fin k l f
    else if l = 0 then .fin n m e
    else
      let lo := if e ≤ f then e else f
      let v := signedAt n m e lo + signedAt k l f lo
      if v = 0 then .fin false 0 0 else .fin (decide (v < 0)) v.natAbs lo

/-- The exact sum of a group's products; a group's first product is taken as it is (R146). -/
def exactSum : List Fl → Fl
  | [] => Fl.zero
  | a :: r => r.foldl Fl.add a

/-- A magnitude shifted right by `d` bits, to nearest, ties to even. -/
def rne (m d : Nat) : Nat :=
  if d = 0 then m else
  let f := m >>> d
  let r := m % 2 ^ d
  if 2 ^ (d - 1) < r || (r = 2 ^ (d - 1) && f % 2 = 1) then f + 1 else f

/-- ⌊log2⌋ of a nonzero magnitude m · 2^e. -/
def flog2 (m : Nat) (e : Int) : Int := Nat.log2 m + e

/-- A nonzero magnitude rounded to `p` bits with quantum no finer than 2^qmin: the mantissa and the quantum. -/
def roundMag (p : Nat) (qmin : Int) (m : Nat) (e : Int) : Nat × Int :=
  let q0 := flog2 m e - (p - 1 : Nat)
  let q := if q0 < qmin then qmin else q0
  if q ≤ e then (m * 2 ^ (e - q).toNat, q) else (rne m (q - e).toNat, q)

/-- The magnitude bits of an IEEE-like encoding with `mb` mantissa bits and smallest quantum 2^qmin. -/
def magBits (mb : Nat) (qmin : Int) (m : Nat) (e : Int) : Nat :=
  if m = 0 then 0 else
  let (v, q) := roundMag (mb + 1) qmin m e
  v + (q - qmin).toNat * 2 ^ mb

/-- round32 to bits: IEEE 754 binary32, to nearest, ties to even, subnormals kept, NaN canonical (R147, R150). -/
def pack32 : Fl → Nat
  | .nan => 0x7FC00000
  | .inf n => 0x7F800000 + (if n then 2 ^ 31 else 0)
  | .fin n m e => min 0x7F800000 (magBits 23 (-149) m e) + (if n then 2 ^ 31 else 0)

/-- The same to BF16 (R182). -/
def pack16 : Fl → Nat
  | .nan => 0x7FC0
  | .inf n => 0x7F80 + (if n then 2 ^ 15 else 0)
  | .fin n m e => min 0x7F80 (magBits 7 (-133) m e) + (if n then 2 ^ 15 else 0)

/-- The value of an encoding with `eb` exponent bits, `mb` mantissa bits and the given bias, before special values. -/
def plainValue (eb mb bias code : Nat) : Fl :=
  let n := code.testBit (eb + mb)
  let x := bits code (eb + mb - 1) mb
  let m := code % 2 ^ mb
  if x = 0 then .fin n m (1 - (bias : Int) - mb) else .fin n (2 ^ mb + m) ((x : Int) - bias - mb)

/-- IEEE special values for an all-ones exponent. -/
def ieeeValue (eb mb bias code : Nat) : Fl :=
  if bits code (eb + mb - 1) mb = 2 ^ eb - 1 then
    (if code % 2 ^ mb = 0 then .inf (code.testBit (eb + mb)) else .nan)
  else plainValue eb mb bias code

/-- The value of a binary32 pattern. -/
def unpack32 (b : Nat) : Fl := ieeeValue 8 23 127 b

/-- The value of a BF16 pattern (R139). -/
def unpack16 (b : Nat) : Fl := ieeeValue 8 7 127 b

/-- round32 as a value (R147). -/
def round32 (x : Fl) : Fl := unpack32 (pack32 x)

/-- The value of one element code of a storage format (R139): E4M3 has NaN but no infinity, the FP6 and FP4 elements neither. -/
def elemValue (fmt code : Nat) : Fl :=
  if fmt = 1 || fmt = 4 then (if code % 128 = 127 then .nan else plainValue 4 3 7 code)
  else if fmt = 2 then ieeeValue 5 2 15 code
  else if fmt = 3 then unpack16 code
  else if fmt = 5 then plainValue 3 2 3 code
  else plainValue 2 1 1 code

/-- A value times an E8M0 scale (R141): code 0xFF is NaN. -/
def scaled (x : Fl) (e8 : Nat) : Fl := if e8 = 255 then .nan else x.mul (.fin false 1 ((e8 : Int) - 127))

/-- Element bits of a format (R140). -/
def elemBits (fmt : Nat) : Nat := if fmt = 3 then 16 else if fmt = 5 then 6 else if fmt = 6 then 4 else 8

/-- Bytes of a tile's elements, of its scales, and of the tile (R126). -/
def elemBytes (fmt : Nat) : Nat := 16384 * elemBits fmt / 8
def scaleBytes (fmt : Nat) : Nat := if 4 ≤ fmt then 512 else 0
def tileBytes (fmt : Nat) : Nat := elemBytes fmt + scaleBytes fmt
def tileLines (fmt : Nat) : Nat := ceilDiv (tileBytes fmt) 256

/-- The 128 element codes of a row (R140). -/
def rowCodes (fmt : Nat) (tile : List Byte) (i : Nat) : List Nat :=
  let w := elemBits fmt
  let v := fieldAt tile (16 * w * i) (16 * w)
  (List.range 128).map (fun k => (v >>> (w * k)) % 2 ^ w)

/-- dequant(w) for the elements of a tile, row-major (R145): exact in FP32 or an infinity. -/
def dequant (fmt : Nat) (tile : List Byte) (tscale : Nat) : List Fl :=
  (List.range 128).flatMap (fun i =>
    let cs := rowCodes fmt tile i
    (List.range 128).map (fun j =>
      let x := elemValue fmt (cs.getD j 0)
      if fmt = 3 then x
      else if fmt < 3 then round32 (scaled x tscale)
      else round32 (scaled x (tile.getD (elemBytes fmt + 4 * i + j / 32) 0).toNat)))

/-- The items of a list in the order a free draw takes them (R148, R152). -/
def freeOrder {α : Type} (draw : Nat) (l : List α) (fuel : Nat) : List α :=
  match fuel with
  | 0 => l
  | k + 1 => match l with
    | [] => []
    | a :: r =>
      let i := Config.fastOrder draw (r.length + 1) k % (r.length + 1)
      match (a :: r)[i]? with
      | some x => x :: freeOrder draw ((a :: r).eraseIdx i) k
      | none => a :: freeOrder draw r k

/-- The accumulated S of the exact group sums, in the order given, one rounding each (R147). -/
def accumulate (gs : List Fl) : Fl := gs.foldl (fun s g => round32 (s.add g)) Fl.zero

/-- The exact group sums of one element over ranks `lo` to `hi − 1`, 16 to a group (R146). -/
def groupSums (b a : List Fl) (lo hi : Nat) : List Fl :=
  (List.range (ceilDiv (hi - lo) 16)).map (fun k =>
    exactSum ((List.range (min 16 (hi - lo - 16 * k))).map (fun q =>
      let m := lo + 16 * k + q
      (b.getD m .nan).mul (a.getD m .nan))))

/-- The combined S of an element: one pass for r ≤ 256, else split-rank passes combined in the order in which they finish (R152), each pass of
an element taking its groups in an order of its own (R148): the draws from `draw` on. -/
def rankProduct (fast : Bool) (draw r : Nat) (b a : List Fl) : Fl :=
  let pass := fun q =>
    let gs := groupSums b a (256 * q) (min (256 * q + 256) r)
    accumulate (if fast then freeOrder (draw + 1 + q) gs gs.length else gs)
  let ss := (List.range (ceilDiv r 256)).map pass
  match freeOrder draw ss (ss.length - 1) with
  | [] => Fl.zero
  | s :: rest => rest.foldl (fun t x => round32 (t.add x)) s

/-- W′ of one element (R149). -/
def adapted (dq alpha s : Fl) : Fl := round32 (dq.add (round32 (alpha.mul s)))

/-- An 8-bit output code and whether it counts as saturated (R154). -/
def encode8 (fmt : Nat) (q : Fl) : Nat × Bool :=
  let mb := if fmt = 2 then 2 else 3
  let qmin : Int := if fmt = 2 then -16 else -9
  let top := if fmt = 2 then 0x7B else 0x7E
  let sgn := fun (n : Bool) => if n then 128 else 0
  match q with
  | .nan => (if fmt = 2 then 0x7E else 0x7F, false)
  | .inf n => if fmt = 2 then (0x7C + sgn n, false) else (0x7E + sgn n, true)
  | .fin n m e =>
    if m = 0 then (sgn n, false)
    else if 128 ≤ flog2 m e then (if fmt = 2 then (0x7C + sgn n, false) else (0x7E + sgn n, true))
    else
      let b := magBits mb qmin m e
      if top < b then (top + sgn n, true) else (b + sgn n, false)

/-- A tile as it leaves: bytes, the recomputed tile scale of RESCALE, the counts of R157, and the FP32 patterns its accumulator tile holds. -/
structure TileOut where
  bytes : List Byte
  scale : Option Nat
  sat : Nat
  nanE : Nat
  nanB : Nat
  acc : List Nat
deriving DecidableEq, Repr

/-- The largest ⌊log2⌋ among finite nonzero values, if any. -/
def topLog (ws : List Fl) : Option Int :=
  ws.foldl (fun t w => match w with
    | .fin _ m e => if m = 0 then t else match t with
      | none => some (flog2 m e)
      | some x => some (if x < flog2 m e then flog2 m e else x)
    | _ => t) none

/-- A number held between two bounds. -/
def clampI (x lo hi : Int) : Int := if x < lo then lo else if hi < x then hi else x

/-- W′ ÷ 2^x, exact (R154). -/
def Fl.shift (w : Fl) (x : Int) : Fl := match w with | .fin n m e => .fin n m (e - x) | y => y

/-- Values encoded under one scale 2^x, with counts of saturated and NaN elements (R154). -/
def encodeList (fmt : Nat) (x : Int) (ws : List Fl) : List Byte × Nat × Nat :=
  let cs := ws.map (fun w => encode8 fmt (w.shift x))
  (cs.map (fun c => BitVec.ofNat 8 c.1), (cs.filter Prod.snd).length, (ws.filter (fun w => w == .nan)).length)

/-- One MXFP8 block: its bytes, scale byte, saturated elements and whether it is a NaN block (R156). -/
def mxBlock (ws : List Fl) : List Byte × Nat × Nat × Bool :=
  if ws.any (fun w => !w.finite) then (List.replicate 32 0x7F, 0xFF, 0, true)
  else match topLog ws with
    | none => ((encodeList 1 0 ws).1, 0x7F, 0, false)
    | some l =>
      let x := clampI (l - 8) (-127) 127
      let (bs, sat, _) := encodeList 1 x ws
      (bs, (x + 127).toNat, sat, false)

/-- A tile of W′ values encoded in OUT_FMT with KEEP, RESCALE or MXFP8 (R144, R154–R156). -/
def encodeTile (outFmt : Nat) (rescale : Bool) (tscale : Nat) (ws : List Fl) : TileOut :=
  if outFmt = 4 then
    let blocks := (List.range 512).map (fun k => mxBlock ((ws.drop (32 * k)).take 32))
    ⟨blocks.flatMap (fun b => b.1) ++ blocks.map (fun b => BitVec.ofNat 8 b.2.1), none,
      lsum (blocks.map (fun b => b.2.2.1)), 0, (blocks.filter (fun b => b.2.2.2)).length, ws.map pack32⟩
  else
    let e : Nat := if rescale then
        (match topLog ws with
          | none => 0x7F
          | some l => (clampI (l - (if outFmt = 2 then 15 else 8) + 127) 0 0xFE).toNat)
      else tscale
    let (bs, sat, nanE) := if e = 0xFF then encodeList outFmt 0 (ws.map (fun _ => Fl.nan)) else encodeList outFmt ((e : Int) - 127) ws
    ⟨bs, if rescale then some e else none, sat, nanE, 0, ws.map pack32⟩

/-- The controls of a pass (R143). -/
structure FoldCtl where
  inFmt : Nat
  outFmt : Nat
  rescale : Bool
  fast : Bool
  rank : Nat
  alpha : Nat
deriving DecidableEq, Repr

/-- A tile folded under a variant's B block (128 × r) and A block (r × 128) of BF16 patterns (R145–R156), r ≥ 1. -/
def foldTile (c : FoldCtl) (draw : Nat) (tile : List Byte) (tscale : Nat) (bBlk aBlk : List Nat) : TileOut :=
  let dq := dequant c.inFmt tile tscale
  let al := unpack32 c.alpha
  let cols := (List.range 128).map (fun j => (List.range c.rank).map (fun m => unpack16 (aBlk.getD (128 * m + j) 0)))
  let ws := (List.range 128).flatMap (fun i =>
    let row := ((bBlk.drop (c.rank * i)).take c.rank).map unpack16
    (List.range 128).map (fun j =>
      adapted (dq.getD (128 * i + j) .nan) al (rankProduct c.fast (draw + 8 * (128 * i + j)) c.rank row (cols.getD j []))))
  encodeTile c.outFmt c.rescale (if c.inFmt = 3 then 0x7F else tscale) ws

/-! ## STEP and REDUCE (08 R178–R184) -/

/-- An integer square root, bit by bit from bit `k − 1` down. -/
def isqrt (n : Nat) (r : Nat) : Nat → Nat
  | 0 => r
  | k + 1 => if (r + 2 ^ k) * (r + 2 ^ k) ≤ n then isqrt n (r + 2 ^ k) k else isqrt n r k

/-- A quotient carried far enough, with a sticky bit, that one rounding to binary32 is correct. -/
def Fl.div (a b : Fl) : Fl :=
  match a, b with
  | .nan, _ | _, .nan => .nan
  | .inf _, .inf _ => .nan
  | .inf n, .fin k _ _ => .inf (n != k)
  | .fin n _ _, .inf k => .fin (n != k) 0 0
  | .fin n m e, .fin k l f =>
    if l = 0 then (if m = 0 then .nan else .inf (n != k))
    else if m = 0 then .fin (n != k) 0 0
    else
      let sh := Nat.log2 l + 40
      let v := m * 2 ^ sh
      .fin (n != k) (2 * (v / l) + (if v % l = 0 then 0 else 1)) (e - f - sh - 1)

/-- A square root carried the same way (R178). -/
def Fl.sqrt (a : Fl) : Fl :=
  match a with
  | .nan => .nan
  | .inf n => if n then .nan else .inf false
  | .fin n m e =>
    if m = 0 then .fin n 0 0
    else if n then .nan
    else
      let sh : Nat := if (e - 80) % 2 = 0 then 80 else 81
      let v := m * 2 ^ sh
      let r := isqrt v 0 (Nat.log2 v / 2 + 1)
      .fin false (2 * r + (if r * r = v then 0 else 1)) ((e - sh) / 2 - 1)

/-- The binary32 operations of R179 and R180, each rounded once. -/
def fadd (a b : Fl) : Fl := round32 (a.add b)
def fsub (a b : Fl) : Fl := round32 (a.add b.neg)
def fmul (a b : Fl) : Fl := round32 (a.mul b)
def fdiv (a b : Fl) : Fl := round32 (a.div b)
def fsqrt (a : Fl) : Fl := round32 a.sqrt

/-- A master element: θ, m, v and the factor rounded from θ. -/
structure Elem where
  th : Nat
  m : Nat
  v : Nat
  fac : Nat
deriving DecidableEq, Repr

/-- The new values written, or the old ones kept and the element counted, where one is infinite or NaN (R181, R182). -/
def Elem.finish (x : Elem) (th m v : Fl) : Elem × Bool :=
  let f := pack16 th
  if th.finite && m.finite && v.finite && (unpack16 f).finite then (⟨pack32 th, pack32 m, pack32 v, f⟩, false) else (x, true)

/-- One element of SGD with momentum (R179). -/
def sgdElem (gamma lam mu eta : Fl) (g : Nat) (x : Elem) : Elem × Bool :=
  let th := unpack32 x.th
  let g1 := fmul gamma (unpack32 g)
  let t := fmul lam th
  let d := fadd g1 t
  let m := fadd (fmul mu (unpack32 x.m)) d
  let t := fmul eta m
  x.finish (fsub th t) m Fl.zero

/-- The constants of an AdamW step (R180). -/
structure AdamC where
  p1 : Fl
  p2 : Fl
  c1 : Fl
  c2 : Fl
  b1 : Fl
  b2 : Fl
  w : Fl
deriving DecidableEq, Repr

def Fl.one : Fl := .fin false 1 0

def adamConst (p1 p2 : Nat) (beta1 beta2 eta lam : Fl) : AdamC :=
  let q1 := fmul (unpack32 p1) beta1
  let q2 := fmul (unpack32 p2) beta2
  ⟨q1, q2, fsub .one q1, fsub .one q2, fsub .one beta1, fsub .one beta2, fmul eta lam⟩

/-- One element of AdamW (R180). -/
def adamElem (c : AdamC) (gamma beta1 beta2 eta eps : Fl) (g : Nat) (x : Elem) : Elem × Bool :=
  let th := unpack32 x.th
  let g1 := fmul gamma (unpack32 g)
  let m := fmul beta1 (unpack32 x.m)
  let t := fmul c.b1 g1
  let m := fadd m t
  let t := fmul g1 g1
  let v := fmul beta2 (unpack32 x.v)
  let t := fmul c.b2 t
  let v := fadd v t
  let mh := fdiv m c.c1
  let vh := fdiv v c.c2
  let d := fsqrt vh
  let d := fadd d eps
  let u := fdiv mh d
  let t := fmul c.w th
  let tn := fsub th t
  let t := fmul eta u
  x.finish (fsub tn t) m v

/-- One element of REDUCE over its sources in the order given (R184): FP32 bits. -/
def reduceElem (fmt : Nat) (xs : List Nat) : Nat :=
  pack32 (xs.foldl (fun s x => fadd s (if fmt = 2 then unpack16 x else unpack32 x)) Fl.zero)

end Sys2Proof.Machine
end

