-- ==== Sys2Proof/Machine/Cipher.lean ====
section
/-! DEFINITION. The standard algorithms the spec names: AES-256 (FIPS 197), XTS (IEEE Std 1619), CMAC (SP 800-38B), GCM (SP 800-38D), SHA-384 (FIPS 180-4), HMAC,
the counter-mode KDF of 15 R326 (SP 800-108), and P-384 with ECDSA and ECDH (FIPS 186-4, SP 800-56A) as 05, 09, 14, 15 and 16 use them. -/

namespace Sys2Proof.Machine

/-! ## Bytes -/

/-- The bitwise sum of two byte lists. -/
def xorBytes (a b : List Byte) : List Byte := List.zipWith (· ^^^ ·) a b

/-- A number from big-endian bytes. -/
def beNat (bs : List Byte) : Nat := bs.foldl (fun n b => 256 * n + b.toNat) 0

/-- `n` big-endian bytes of a number. -/
def beBytes (n v : Nat) : List Byte := (leBytes n v).reverse

/-- Zero bytes. -/
def zeros (n : Nat) : List Byte := List.replicate n 0

/-- The first `n` blocks of `k` bytes of a list. -/
def blocksOf (k n : Nat) (bs : List Byte) : List (List Byte) := (List.range n).map (fun i => (bs.drop (k * i)).take k)

/-! ## AES-256 (FIPS 197) -/

/-- Multiplication by x in GF(2^8). -/
def xtime (b : Byte) : Byte := (b <<< 1) ^^^ (if b.getLsbD 7 then 0x1B else 0)

/-- Multiplication in GF(2^8). -/
def gmul (a b : Byte) : Byte :=
  ((List.range 8).foldl (fun (s : Byte × Byte) i => (if b.getLsbD i then s.1 ^^^ s.2 else s.1, xtime s.2)) ((0 : Byte), a)).1

/-- The inverse in GF(2^8), 0 for 0: a^254. -/
def ginv (a : Byte) : Byte :=
  let sq := fun (x : Byte) => gmul x x
  let a2 := sq a
  let a3 := gmul a2 a
  let a6 := sq a3
  let a7 := gmul a6 a
  let a14 := sq a7
  let a15 := gmul a14 a
  let a30 := sq a15
  let a31 := gmul a30 a
  let a62 := sq a31
  let a63 := gmul a62 a
  let a126 := sq a63
  let a127 := gmul a126 a
  sq a127

/-- The S-box of FIPS 197 as its affine map of the inverse. -/
def sboxOf (a : Byte) : Byte :=
  let b := ginv a
  b ^^^ b.rotateLeft 1 ^^^ b.rotateLeft 2 ^^^ b.rotateLeft 3 ^^^ b.rotateLeft 4 ^^^ 0x63

/-- The S-box as a table of 256 bytes, packed as a number: byte `a` at bits 8a. -/
def sboxWord : Nat := (List.range 256).foldr (fun i n => 256 * n + (sboxOf (BitVec.ofNat 8 i)).toNat) 0

/-- The inverse S-box as such a table. -/
def invSboxWord (t : Nat) : Nat :=
  lsum ((List.range 256).map (fun i => i * 2 ^ (8 * (t / 2 ^ (8 * i) % 256))))

/-- A byte looked up in a packed table. -/
def look (t : Nat) (b : Byte) : Byte := BitVec.ofNat 8 ((t >>> (8 * b.toNat)) % 256)

/-- SubBytes, or its inverse under the inverse table. -/
def subBytes (t : Nat) (s : List Byte) : List Byte := s.map (look t)

/-- The round keys of a 256-bit key: 60 words of 4 bytes. -/
def aesWords (t : Nat) (key : List Byte) : List (List Byte) :=
  (List.range 52).foldl (fun (w : List (List Byte)) i =>
    let prev := w.getD (i + 7) []
    let x := if i % 8 = 0 then
        xorBytes (subBytes t (prev.drop 1 ++ prev.take 1)) [BitVec.ofNat 8 (2 ^ (i / 8)), 0, 0, 0]
      else if i % 8 = 4 then subBytes t prev else prev
    w ++ [xorBytes (w.getD i []) x]) (blocksOf 4 8 key)

/-- Round key `r` of 16 bytes. -/
def roundKey (w : List (List Byte)) (r : Nat) : List Byte := ((w.drop (4 * r)).take 4).flatten

/-- ShiftRows on a state in column order. -/
def shiftRows (s : List Byte) : List Byte :=
  (List.range 16).map (fun i => s.getD ((4 * (i / 4 + i % 4) + i % 4) % 16) 0)

/-- InvShiftRows. -/
def invShiftRows (s : List Byte) : List Byte :=
  (List.range 16).map (fun i => s.getD ((4 * (i / 4 + 4 - i % 4) + i % 4) % 16) 0)

/-- A column multiplied by the circulant of `m`. -/
def mixCols (m : List Byte) (s : List Byte) : List Byte :=
  (List.range 16).map (fun i => (List.range 4).foldl (fun a k =>
    a ^^^ gmul (m.getD ((k + 4 - i % 4) % 4) 0) (s.getD (4 * (i / 4) + k) 0)) (0 : Byte))

/-- One block enciphered under expanded round keys. -/
def aesBlock (t : Nat) (w : List (List Byte)) (b : List Byte) : List Byte :=
  let s := xorBytes b (roundKey w 0)
  let s := (List.range 13).foldl (fun s r => xorBytes (mixCols [2, 3, 1, 1] (shiftRows (subBytes t s))) (roundKey w (r + 1))) s
  xorBytes (shiftRows (subBytes t s)) (roundKey w 14)

/-- One block deciphered. -/
def aesInvBlock (t : Nat) (w : List (List Byte)) (b : List Byte) : List Byte :=
  let s := subBytes t (invShiftRows (xorBytes b (roundKey w 14)))
  let s := (List.range 13).foldl (fun s r => subBytes t (invShiftRows (mixCols [14, 11, 13, 9] (xorBytes s (roundKey w (13 - r)))))) s
  xorBytes s (roundKey w 0)

/-- AES-256 of a block. -/
def aes (key : List Byte) (b : List Byte) : List Byte := aesBlock sboxWord (aesWords sboxWord key) b

/-! ## XTS (IEEE Std 1619), whole blocks only -/

/-- Multiplication of a tweak by α. -/
def xtsAlpha (t : List Byte) : List Byte :=
  let n := 2 * leNat t
  leBytes 16 (if n < 2 ^ 128 then n else (n - 2 ^ 128) ^^^ 0x87)

/-- XTS over the blocks of a data unit under block function `f` and enciphered tweak `t`. -/
def xtsRun (f : List Byte → List Byte) : List (List Byte) → List Byte → List Byte
  | [], _ => []
  | b :: r, t => xorBytes (f (xorBytes b t)) t ++ xtsRun f r (xtsAlpha t)

/-- XTS-AES-256 encryption of a data unit of whole blocks under K1, K2 and a 128-bit tweak. -/
def xtsEnc (k1 k2 : List Byte) (tweak : Nat) (d : List Byte) : List Byte :=
  let t := sboxWord
  xtsRun (aesBlock t (aesWords t k1)) (blocksOf 16 (d.length / 16) d) (aesBlock t (aesWords t k2) (leBytes 16 tweak))

/-- XTS-AES-256 decryption. -/
def xtsDec (k1 k2 : List Byte) (tweak : Nat) (d : List Byte) : List Byte :=
  let t := sboxWord
  xtsRun (aesInvBlock (invSboxWord t) (aesWords t k1)) (blocksOf 16 (d.length / 16) d) (aesBlock t (aesWords t k2) (leBytes 16 tweak))

/-! ## CMAC (SP 800-38B) -/

/-- A block doubled in GF(2^128), big-endian. -/
def cmacDouble (b : List Byte) : List Byte :=
  let n := 2 * beNat b
  beBytes 16 (if n < 2 ^ 128 then n else (n - 2 ^ 128) ^^^ 0x87)

/-- AES-256-CMAC of a message. -/
def cmac (key m : List Byte) : List Byte :=
  let t := sboxWord
  let w := aesWords t key
  let k1 := cmacDouble (aesBlock t w (zeros 16))
  let n := if m.isEmpty then 1 else ceilDiv m.length 16
  let last := m.drop (16 * (n - 1))
  let mn := if last.length = 16 then xorBytes last k1 else xorBytes (slice (last ++ [0x80]) 0 16) (cmacDouble k1)
  let c := (blocksOf 16 (n - 1) m).foldl (fun c b => aesBlock t w (xorBytes c b)) (zeros 16)
  aesBlock t w (xorBytes c mn)

/-! ## GCM (SP 800-38D) with a 96-bit nonce -/

/-- Multiplication in GCM's field: blocks as big-endian numbers, the leftmost bit the coefficient of 1. -/
def gcmMul (x y : Nat) : Nat :=
  ((List.range 128).foldl (fun (s : Nat × Nat) i =>
    let z := if x.testBit (127 - i) then s.1 ^^^ s.2 else s.1
    (z, if s.2 % 2 = 1 then (s.2 / 2) ^^^ (0xE1 * 2 ^ 120) else s.2 / 2)) (0, y)).1

/-- GHASH of a byte list filled to whole blocks. -/
def ghash (h y : Nat) (d : List Byte) : Nat :=
  (blocksOf 16 (ceilDiv d.length 16) d).foldl (fun y b => gcmMul (y ^^^ beNat (slice b 0 16)) h) y

/-- AES-256 counter mode from counter block `c` on. -/
def gcmCtr (w : List (List Byte)) (iv : List Byte) (d : List Byte) : List Byte :=
  let t := sboxWord
  ((List.range (ceilDiv d.length 16)).map (fun i =>
    xorBytes ((d.drop (16 * i)).take 16) (aesBlock t w (iv ++ beBytes 4 (i + 2))))).flatten

/-- The authentication tag over `aad` and ciphertext `c`, 16 bytes. -/
def gcmTag (w : List (List Byte)) (iv aad c : List Byte) : List Byte :=
  let t := sboxWord
  let h := beNat (aesBlock t w (zeros 16))
  let y := ghash h (ghash h 0 aad) c
  let y := gcmMul (y ^^^ (8 * aad.length * 2 ^ 64 + 8 * c.length)) h
  xorBytes (beBytes 16 y) (aesBlock t w (iv ++ beBytes 4 1))

/-- AES-256-GCM encryption: ciphertext and tag. -/
def gcmSeal (key iv aad p : List Byte) : List Byte × List Byte :=
  let w := aesWords sboxWord key
  let c := gcmCtr w iv p
  (c, gcmTag w iv aad c)

/-- AES-256-GCM decryption: the plaintext where the tag matches. -/
def gcmOpen (key iv aad c tag : List Byte) : Option (List Byte) :=
  let w := aesWords sboxWord key
  if gcmTag w iv aad c = tag then some (gcmCtr w iv c) else none

/-! ## SHA-384, HMAC and the KDF of 15 R326 -/

/-- The primes below `n`, ascending. -/
def primesTo (n : Nat) : List Nat :=
  (List.range n).filter (fun p => decide (2 ≤ p) && (List.range p).all (fun d => d < 2 || d * d > p || p % d != 0))

/-- The greatest `r` of `b` bits with `ok r`, found bit by bit. -/
def greatest (ok : Nat → Bool) (b : Nat) : Nat :=
  (List.range b).foldl (fun r i => let c := r + 2 ^ (b - 1 - i); if ok c then c else r) 0

/-- The first 64 bits of the fractional part of a number's cube root. -/
def fracCbrt (p : Nat) : W64 := BitVec.ofNat 64 (greatest (fun r => decide (r ^ 3 ≤ p * 2 ^ 192)) 70)

/-- The first 64 bits of the fractional part of a number's square root. -/
def fracSqrt (p : Nat) : W64 := BitVec.ofNat 64 (greatest (fun r => decide (r ^ 2 ≤ p * 2 ^ 128)) 72)

/-- The 80 constants of FIPS 180-4: cube roots of the first 80 primes. -/
def shaK : List W64 := (primesTo 410).map fracCbrt

/-- The initial value of SHA-384: square roots of the ninth to sixteenth primes. -/
def shaIV : List W64 := ((primesTo 54).drop 8).map fracSqrt

/-- The message schedule of a block, newest word first: 80 words from 16. -/
def shaSchedule (b : List W64) : List W64 :=
  ((List.range 64).foldl (fun (w : List W64) _ =>
    let a := w.getD 1 0
    let c := w.getD 14 0
    let s1 := a.rotateRight 19 ^^^ a.rotateRight 61 ^^^ (a >>> 6)
    let s0 := c.rotateRight 1 ^^^ c.rotateRight 8 ^^^ (c >>> 7)
    (s1 + w.getD 6 0 + s0 + w.getD 15 0) :: w) b.reverse).reverse

/-- One round on the eight working variables. -/
def shaRound (v : List W64) (kw : W64 × W64) : List W64 :=
  match v with
  | [a, b, c, d, e, f, g, h] =>
    let t1 := h + (e.rotateRight 14 ^^^ e.rotateRight 18 ^^^ e.rotateRight 41) + ((e &&& f) ^^^ (~~~e &&& g)) + kw.1 + kw.2
    let t2 := (a.rotateRight 28 ^^^ a.rotateRight 34 ^^^ a.rotateRight 39) + ((a &&& b) ^^^ (a &&& c) ^^^ (b &&& c))
    [t1 + t2, a, b, c, d + t1, e, f, g]
  | _ => v

/-- The hash value after a block of 128 bytes. -/
def shaBlock (k : List W64) (h : List W64) (b : List Byte) : List W64 :=
  let w := shaSchedule ((List.range 16).map (fun i => BitVec.ofNat 64 (beNat (slice b (8 * i) 8))))
  List.zipWith (· + ·) h ((k.zip w).foldl shaRound h)

/-- SHA-384 of a message (FIPS 180-4). -/
def sha384 (m : List Byte) : List Byte :=
  let n := m.length / 128 + (if m.length % 128 < 112 then 1 else 2)
  let pad := m ++ 0x80 :: zeros (128 * n - m.length - 17) ++ beBytes 16 (8 * m.length)
  let k := shaK
  ((blocksOf 128 n pad).foldl (fun h b => shaBlock k h b) shaIV).take 6 |>.flatMap (fun x => beBytes 8 x.toNat)

/-- HMAC-SHA-384 (FIPS 198-1). -/
def hmac384 (key m : List Byte) : List Byte :=
  let k := slice (if 128 < key.length then sha384 key else key) 0 128
  sha384 (xorBytes k (List.replicate 128 0x5C) ++ sha384 (xorBytes k (List.replicate 128 0x36) ++ m))

/-- The bytes of an ASCII label. -/
def ascii (l : String) : List Byte := l.toList.map (fun c => BitVec.ofNat 8 c.toNat)

/-- The counter-mode KDF of 15 R326: `bits` bits under key, label and context. -/
def kdf (key : List Byte) (label : String) (ctx : List Byte) (bits : Nat) : List Byte :=
  (((List.range (ceilDiv bits 384)).map (fun i => hmac384 key (beBytes 4 (i + 1) ++ ascii label ++ 0 :: ctx ++ beBytes 4 bits))).flatten).take (bits / 8)

/-! ## P-384 (FIPS 186-4 D.1.2.4) -/

/-- The prime of P-384. -/
def p384 : Nat := 2 ^ 384 - 2 ^ 128 - 2 ^ 96 + 2 ^ 32 - 1

/-- The order of P-384's base point. -/
def n384 : Nat := 0xFFFFFFFFFFFFFFFFFFFFFFFFFFFFFFFFFFFFFFFFFFFFFFFFC7634D81F4372DDF581A0DB248B0A77AECEC196ACCC52973

/-- The coefficient b of P-384. -/
def b384 : Nat := 0xB3312FA7E23EE7E4988E056BE3F82D19181D9C6EFE8141120314088F5013875AC656398D8A2ED19D2A85C8EDD3EC2AEF

/-- The base point G. -/
def g384 : Nat × Nat :=
  (0xAA87CA22BE8B05378EB1C71EF320AD746E1D3B628BA79B9859F741E082542A385502F25DBF55296C3A545E3872760AB7,
   0x3617DE4A96262C6F5D9E98BF9292DC29F8F41DBD289A147CE9DA3113B5F0B8C00A60B1CE1D7E819D7A431D7C90EA0E5F)

/-- A power modulo `m`, by the `k` low bits of the exponent. -/
def powMod (m b e k : Nat) : Nat :=
  (List.range k).foldl (fun r i => let r := r * r % m; if e.testBit (k - 1 - i) then r * b % m else r) (1 % m)

/-- The inverse modulo a prime of at most 384 bits (Fermat). -/
def invMod (m a : Nat) : Nat := powMod m (a % m) (m - 2) 384

/-- Subtraction modulo `m` of reduced numbers. -/
def subMod (m a b : Nat) : Nat := (a + m - b) % m

/-- A point in Jacobian coordinates; Z = 0 is the point at infinity. -/
abbrev JPoint := Nat × Nat × Nat

/-- Doubling (a = −3). -/
def jDouble (q : JPoint) : JPoint :=
  let p := p384
  let (x, y, z) := q
  if z = 0 || y = 0 then (1, 1, 0)
  else
    let d := z * z % p
    let g := y * y % p
    let b := x * g % p
    let a := 3 * (subMod p x d * ((x + d) % p)) % p
    let x3 := subMod p (a * a % p) (8 * b % p)
    let z3 := 2 * y * z % p
    let y3 := subMod p (a * subMod p (4 * b % p) x3 % p) (8 * g * g % p)
    (x3, y3, z3)

/-- Addition. -/
def jAdd (q r : JPoint) : JPoint :=
  let p := p384
  let (x1, y1, z1) := q
  let (x2, y2, z2) := r
  if z1 = 0 then r else if z2 = 0 then q
  else
    let u1 := x1 * z2 * z2 % p
    let u2 := x2 * z1 * z1 % p
    let s1 := y1 * (z2 * z2 * z2 % p) % p
    let s2 := y2 * (z1 * z1 * z1 % p) % p
    if u1 = u2 then (if s1 = s2 then jDouble q else (1, 1, 0))
    else
      let h := subMod p u2 u1
      let r := subMod p s2 s1
      let hh := h * h % p
      let hhh := h * hh % p
      let v := u1 * hh % p
      let x3 := subMod p (subMod p (r * r % p) hhh) (2 * v % p)
      let y3 := subMod p (r * subMod p v x3 % p) (s1 * hhh % p)
      (x3, y3, h * z1 * z2 % p)

/-- `k` times a point, by 384 doublings. -/
def jMul (k : Nat) (q : JPoint) : JPoint :=
  (List.range 384).foldl (fun r i => let r := jDouble r; if k.testBit (383 - i) then jAdd r q else r) (1, 1, 0)

/-- The affine coordinates of a point not at infinity. -/
def jAffine (q : JPoint) : Nat × Nat :=
  let p := p384
  let zi := invMod p q.2.2
  let z2 := zi * zi % p
  (q.1 * z2 % p, q.2.1 * (z2 * zi % p) % p)

/-- A point in Jacobian coordinates. -/
def jOf (q : Nat × Nat) : JPoint := (q.1, q.2, 1)

/-- Whether a pair is a point of the curve. -/
def onCurve (q : Nat × Nat) : Bool :=
  let p := p384
  decide (q.1 < p) && decide (q.2 < p) && q.2 * q.2 % p == (q.1 * q.1 * q.1 + (p - 3) * q.1 + b384) % p

/-- The private key of a 512-bit derivation (15 R327): d = (c mod (n − 1)) + 1. -/
def privKey (c : List Byte) : Nat := beNat (c.take 64) % (n384 - 1) + 1

/-- x ‖ y of a point, each coordinate 48 bytes big-endian (15 R327). -/
def pointBytes (q : Nat × Nat) : List Byte := beBytes 48 q.1 ++ beBytes 48 q.2

/-- The public key d·G in uncompressed form, x ‖ y (15 R327). -/
def pubKey (d : Nat) : List Byte := pointBytes (jAffine (jMul d (jOf g384)))

/-- A point from x ‖ y. -/
def pointOf (b : List Byte) : Nat × Nat := (beNat (slice b 0 48), beNat (slice b 48 48))

/-- ECDH: the x coordinate of d times the peer's point, 48 bytes; nothing for a pair off the curve. -/
def ecdh (d : Nat) (peer : List Byte) : Option (List Byte) :=
  let q := pointOf peer
  if onCurve q then some (beBytes 48 (jAffine (jMul d (jOf q))).1) else none

/-- An ECDSA P-384 signature r ‖ s over SHA-384 of a message under key `d`, with the per-message secret drawn from `k` (64 bytes). -/
def ecdsaSign (d : Nat) (k m : List Byte) : List Byte :=
  let e := privKey k
  let z := beNat (sha384 m)
  let r := (jAffine (jMul e (jOf g384))).1 % n384
  beBytes 48 r ++ beBytes 48 (invMod n384 e * (z + r * d) % n384)

/-- Whether an ECDSA P-384 signature r ‖ s over SHA-384 of a message verifies under a public key x ‖ y. -/
def ecdsaVerify (pub m sig : List Byte) : Bool :=
  let q := pointOf pub
  let r := beNat (slice sig 0 48)
  let s := beNat (slice sig 48 48)
  if !onCurve q || r = 0 || s = 0 || n384 ≤ r || n384 ≤ s then false
  else
    let w := invMod n384 s
    let z := beNat (sha384 m)
    let x := jAdd (jMul (z * w % n384) (jOf g384)) (jMul (r * w % n384) (jOf q))
    x.2.2 != 0 && (jAffine x).1 % n384 == r

end Sys2Proof.Machine
end

