-- ==== Sys2Proof/Machine/RegTable.lean ====
section
/-! DEFINITION. Every register of the two kinds of window (26 R553 and the VF map): where it lies, and for each of its fields
the access type (00 R10), the value at reset and the events it survives (00 R13), from the register tables of the chapters.
Reserved fields are not listed: they read 0 and take no write. The fields whose reset the tables give in words (sensed, drawn,
read from OTP) stand as 0 here and are filled by `State.reset` and by the views of Registers.lean. -/

namespace Sys2Proof.Machine

/-- Access types of 00 R10. -/
inductive Acc | ro | rw | rws | rwl | w1c | wo | rc
deriving DecidableEq, Repr

/-- A field of a register: its bits, its access, its reset, and its Survives letters as a mask (`Surv`). -/
structure FieldRow where
  hi : Nat
  lo : Nat
  acc : Acc
  rst : Nat
  surv : Nat
deriving DecidableEq, Repr

/-- A register, or `count` registers `stride` bytes apart. -/
structure RegRow where
  base : Nat
  count : Nat
  stride : Nat
  fields : List FieldRow
deriving DecidableEq, Repr

/-- The Survives letters of 00 R13 as bit numbers. -/
def Surv.c : Nat := 0
def Surv.w : Nat := 1
def Surv.b : Nat := 2
def Surv.s : Nat := 3
def Surv.h : Nat := 4
def Surv.p : Nat := 5
def Surv.d : Nat := 6

def R.spnTickLo : Nat := 0x3000
def V.spnTickLo : Nat := 0x2000
def R.spnTickHi : Nat := 0x3004
def V.spnTickHi : Nat := 0x2004
def R.spnRot : Nat := 0x3008
def R.spnAlign : Nat := 0x300C
def R.spnAlignCfg : Nat := 0x3010
def R.spnDefer : Nat := 0x3014
def R.spnHaltdrop : Nat := 0x3018
def R.spnQovf : Nat := 0x301C
def R.bndGtSel : Nat := 0x5000
def R.bndGtLo : Nat := 0x5004
def R.bndGtHi : Nat := 0x5008
def R.bndDenyCnt : Nat := 0x500C
def R.bndDenyLast : Nat := 0x5010
def R.bndShgrp : Nat := 0x5100
def R.chkBank : Nat := 0x4000
def R.chkCtrl : Nat := 0x4004
def R.chkCommit : Nat := 0x4008
def R.chkResult : Nat := 0x400C
def R.chkRgrain : Nat := 0x4010
def R.chkTickLo : Nat := 0x4014
def R.chkTickHi : Nat := 0x4018
def R.chkAtLo : Nat := 0x401C
def R.chkAtHi : Nat := 0x4020
def R.chkWait : Nat := 0x4024
def R.chkWaitLimit : Nat := 0x4028
def R.chkScrub : Nat := 0x402C
def R.chkMode : Nat := 0x4030
def R.mceKsel : Nat := 0x6000
def R.mceKstat : Nat := 0x6004
def R.mceWsel : Nat := 0x6008
def R.mceWstat : Nat := 0x600C
def R.mceWleft : Nat := 0x6010
def R.mcePoisonCnt : Nat := 0x6014
def R.mceCeccCnt : Nat := 0x6018
def R.mceTagcMiss : Nat := 0x601C
def R.mceHaltCause : Nat := 0x6020
def R.mceHaltGrain : Nat := 0x6024
def R.mceHaltLine : Nat := 0x6028
def R.tcuMissCnt : Nat := 0x7000
def R.tcuLast : Nat := 0x7004
def R.tcuLastTix : Nat := 0x7008
def R.tcuInject : Nat := 0x700C
def R.fldMap : Nat := 0x8000
def R.fldSusp : Nat := 0x8100
def R.fldAbandon : Nat := 0x8104
def R.pcmEntries : Nat := 0x9000
def R.pcmShelf : Nat := 0x9004
def R.pcmPodGrains : Nat := 0x9008
def R.pcmFetchq : Nat := 0x900C
def R.pcmHuskFail : Nat := 0x9010
def R.pcmFactorUe : Nat := 0x9014
def R.dpaQquota : Nat := 0xA000
def R.dpaQused : Nat := 0xA100
def V.dpaDb : Nat := 0x10000
def V.dpaCqh : Nat := 0x10004
def V.dpaQsel : Nat := 0x18000
def V.dpaQstat : Nat := 0x18004
def V.dpaCnt : Nat := 0x18010
def V.dpaAdm : Nat := 0x18040
def V.dpaAdmNeed : Nat := 0x18044
def V.dpaQuantum : Nat := 0x18048
def R.bwrPlace : Nat := 0xB000
def R.bwrPreres : Nat := 0xB100
def R.bwrStack : Nat := 0xB104
def R.bwrEpoch : Nat := 0xB124
def R.bwrLate : Nat := 0xB128
def V.bwrReport : Nat := 0x3000
def V.bwrReportEpoch : Nat := 0x3004
def V.bwrMissCtl : Nat := 0x3008
def V.bwrOwn : Nat := 0x3010
def R.tplCh : Nat := 0xC000
def R.tplHgrant : Nat := 0xC200
def R.tplUse : Nat := 0xC300
def R.audStatus : Nat := 0xC500
def R.audSel : Nat := 0xC504
def R.audVal : Nat := 0xC508
def V.tplHown : Nat := 0x4000
def R.fpcCfg : Nat := 0xD000
def R.fpcByp : Nat := 0xD020
def R.fpcBypStat : Nat := 0xD024
def R.fpcCtl : Nat := 0xD028
def R.fpcDegThr : Nat := 0xD02C
def R.fpcAdmit : Nat := 0xD030
def R.fpcEvcnt : Nat := 0xD034
def R.fpcLink : Nat := 0xD100
def R.fpcSess : Nat := 0xD200
def R.fpcTxctr : Nat := 0xD280
def R.fpcLnkcnt : Nat := 0xD300
def R.fpcRetry : Nat := 0xD304
def R.fpcAbort : Nat := 0xD308
def R.fpcGcmLimit : Nat := 0xD30C
def R.vltState : Nat := 0xE000
def R.vltDevid : Nat := 0xE004
def R.vltFp : Nat := 0xE014
def R.vltRemask : Nat := 0xE018
def R.vltTrng : Nat := 0xE01C
def R.vltSvn : Nat := 0xE020
def R.vltBind : Nat := 0xE024
def R.lcState : Nat := 0xF000
def R.lcReq : Nat := 0xF004
def R.lcCtrl : Nat := 0xF008
def R.lcResult : Nat := 0xF00C
def R.lcNonce : Nat := 0xF010
def R.lcAuth : Nat := 0xF040
def V.hfpId : Nat := 0x0
def R.hfpGen : Nat := 0x1004
def V.hfpGen : Nat := 0x4
def V.hfpState : Nat := 0x8
def V.hfpEvt : Nat := 0xC
def R.hfpStale : Nat := 0x1010
def V.hfpStale : Nat := 0x10
def R.hfpReady : Nat := 0x1000
def R.hfpRetry : Nat := 0x1008
def R.hfpVfstat : Nat := 0x1100
def R.mbxSqBaseLo : Nat := 0x2000
def V.mbxSqBaseLo : Nat := 0x1000
def R.mbxSqBaseHi : Nat := 0x2004
def V.mbxSqBaseHi : Nat := 0x1004
def R.mbxCqBaseLo : Nat := 0x2008
def V.mbxCqBaseLo : Nat := 0x1008
def R.mbxCqBaseHi : Nat := 0x200C
def V.mbxCqBaseHi : Nat := 0x100C
def R.mbxCfg : Nat := 0x2010
def V.mbxCfg : Nat := 0x1010
def R.mbxSqTail : Nat := 0x2014
def V.mbxSqTail : Nat := 0x1014
def R.mbxSqHead : Nat := 0x2018
def V.mbxSqHead : Nat := 0x1018
def R.mbxCqHead : Nat := 0x201C
def V.mbxCqHead : Nat := 0x101C
def R.mbxState : Nat := 0x2020
def V.mbxState : Nat := 0x1020
def R.mbxFeatLo : Nat := 0x2024
def V.mbxFeatLo : Nat := 0x1024
def R.mbxFeatHi : Nat := 0x2028
def V.mbxFeatHi : Nat := 0x1028
def R.mbxLeaseLeft : Nat := 0x202C
def V.mbxLeaseLeft : Nat := 0x102C
def R.mbxDrop : Nat := 0x2030
def V.mbxDrop : Nat := 0x1030
def R.mbxDctl : Nat := 0x2040
def R.mbxDcmd : Nat := 0x2080
def R.mbxDcpl : Nat := 0x20C0
def R.mbxDdata : Nat := 0x2100
def R.ccxState : Nat := 0x10000
def R.ccxRestarts : Nat := 0x10004
def R.ccxWdt : Nat := 0x10008
def R.ccxSvnFloor : Nat := 0x1000C
def R.ccxHandoff : Nat := 0x10010
def R.ccxMpufault : Nat := 0x10014
def R.ccxLog : Nat := 0x10018
def R.ccxLogwrap : Nat := 0x1001C
def R.fltState : Nat := 0x11000
def R.fltActiveLo : Nat := 0x11004
def R.fltActiveHi : Nat := 0x11008
def R.fltHeldLo : Nat := 0x1100C
def R.fltHeldHi : Nat := 0x11010
def R.fltPolicyLo : Nat := 0x11014
def R.fltPolicyHi : Nat := 0x11018
def R.fltOosLo : Nat := 0x1101C
def R.fltOosHi : Nat := 0x11020
def R.fltLast : Nat := 0x11024
def R.fltCount : Nat := 0x11028
def R.fltWdEngine : Nat := 0x1102C
def R.fltWdMem : Nat := 0x11030
def R.srcStat : Nat := 0x12000
def R.srcCause : Nat := 0x12004
def R.srcCtl : Nat := 0x12008
def R.srcTherm : Nat := 0x1200C
def R.srcPwr : Nat := 0x12010
def R.srcTemp : Nat := 0x12014
def R.srcParkLo : Nat := 0x12018
def R.srcParkHi : Nat := 0x1201C
def R.evrStat : Nat := 0x13000
def R.evrRseq : Nat := 0x13004
def R.evrFulldrop : Nat := 0x13008
def R.evrFrzdrop : Nat := 0x1300C
def R.evrQdrop : Nat := 0x13010
def R.evrSel : Nat := 0x13014
def R.evrRec : Nat := 0x13040
def R.idBlock : Nat := 0x0
def R.idReady : Nat := 0x4
def R.idCnt0 : Nat := 0x8
def R.idCnt1 : Nat := 0xC
def R.idGrains : Nat := 0x10
def R.idBufs : Nat := 0x14
def R.idQueues : Nat := 0x18
def R.idPods : Nat := 0x1C
def R.idRecs : Nat := 0x20
def R.idPodg : Nat := 0x24
def R.idAccerr : Nat := 0x30
def R.irqStat : Nat := 0x14000
def R.irqEn : Nat := 0x14004
def R.irqVec : Nat := 0x14010

/-- The registers of the PF0 window, ascending (part 0). -/
def pfRegs0 : List RegRow := [
  ⟨0x0, 1, 4, [⟨15, 0, .ro, 19545, 127⟩, ⟨19, 16, .ro, 1, 127⟩, ⟨23, 20, .ro, 1, 127⟩]⟩,
  ⟨0x4, 1, 4, [⟨0, 0, .ro, 0, 118⟩, ⟨1, 1, .ro, 0, 116⟩, ⟨2, 2, .ro, 0, 16⟩]⟩,
  ⟨0x8, 1, 4, [⟨7, 0, .ro, 64, 127⟩, ⟨15, 8, .ro, 64, 127⟩, ⟨23, 16, .ro, 8, 127⟩, ⟨31, 24, .ro, 8, 127⟩]⟩,
  ⟨0xC, 1, 4, [⟨15, 0, .ro, 1024, 127⟩, ⟨20, 16, .ro, 16, 127⟩, ⟨23, 21, .ro, 4, 127⟩, ⟨31, 24, .ro, 64, 127⟩]⟩,
  ⟨0x10, 1, 4, [⟨23, 0, .ro, 285696, 127⟩, ⟨31, 24, .ro, 21, 127⟩]⟩,
  ⟨0x14, 1, 4, [⟨15, 0, .ro, 7168, 127⟩, ⟨31, 16, .ro, 16384, 127⟩]⟩,
  ⟨0x18, 1, 4, [⟨15, 0, .ro, 4096, 127⟩, ⟨23, 16, .ro, 32, 127⟩, ⟨31, 24, .ro, 112, 127⟩]⟩,
  ⟨0x1C, 1, 4, [⟨16, 0, .ro, 65536, 127⟩]⟩,
  ⟨0x20, 1, 4, [⟨16, 0, .ro, 65536, 127⟩, ⟨25, 17, .ro, 256, 127⟩]⟩,
  ⟨0x24, 1, 4, [⟨15, 0, .ro, 49152, 127⟩]⟩,
  ⟨0x30, 1, 4, [⟨0, 0, .w1c, 0, 16⟩, ⟨1, 1, .w1c, 0, 16⟩, ⟨2, 2, .w1c, 0, 16⟩, ⟨3, 3, .w1c, 0, 16⟩, ⟨12, 8, .ro, 0, 16⟩, ⟨16, 16, .ro, 0, 16⟩]⟩,
  ⟨0x1000, 1, 4, [⟨0, 0, .ro, 0, 118⟩, ⟨1, 1, .ro, 0, 116⟩, ⟨2, 2, .ro, 0, 116⟩, ⟨9, 3, .ro, 0, 116⟩]⟩,
  ⟨0x1004, 1, 4, [⟨15, 0, .ro, 1, 116⟩]⟩,
  ⟨0x1008, 1, 4, [⟨23, 0, .rw, 3906, 116⟩]⟩,
  ⟨0x1010, 1, 4, [⟨31, 0, .rc, 0, 16⟩]⟩,
  ⟨0x1100, 64, 4, [⟨7, 0, .ro, 255, 124⟩, ⟨23, 8, .ro, 1, 116⟩, ⟨25, 24, .ro, 0, 116⟩, ⟨26, 26, .ro, 0, 116⟩]⟩,
  ⟨0x2000, 1, 4, [⟨31, 0, .rw, 0, 116⟩]⟩,
  ⟨0x2004, 1, 4, [⟨31, 0, .rw, 0, 116⟩]⟩,
  ⟨0x2008, 1, 4, [⟨31, 0, .rw, 0, 116⟩]⟩,
  ⟨0x200C, 1, 4, [⟨31, 0, .rw, 0, 116⟩]⟩,
  ⟨0x2010, 1, 4, [⟨12, 0, .rw, 0, 116⟩, ⟨16, 16, .rw, 0, 116⟩]⟩,
  ⟨0x2014, 1, 4, [⟨11, 0, .wo, 0, 0⟩]⟩,
  ⟨0x2018, 1, 4, [⟨11, 0, .ro, 0, 116⟩]⟩,
  ⟨0x201C, 1, 4, [⟨11, 0, .rw, 0, 116⟩]⟩
]

/-- The registers of the PF0 window, ascending (part 1). -/
def pfRegs1 : List RegRow := [
  ⟨0x2020, 1, 4, [⟨0, 0, .ro, 0, 116⟩, ⟨1, 1, .ro, 0, 116⟩, ⟨3, 2, .ro, 1, 116⟩, ⟨4, 4, .w1c, 0, 116⟩, ⟨5, 5, .w1c, 0, 116⟩, ⟨11, 6, .ro, 0, 116⟩]⟩,
  ⟨0x2024, 1, 4, [⟨31, 0, .ro, 0, 116⟩]⟩,
  ⟨0x2028, 1, 4, [⟨31, 0, .ro, 0, 116⟩]⟩,
  ⟨0x202C, 1, 4, [⟨27, 0, .ro, 0, 116⟩]⟩,
  ⟨0x2030, 1, 4, [⟨31, 0, .rc, 0, 16⟩]⟩,
  ⟨0x2040, 1, 4, [⟨0, 0, .wo, 0, 0⟩, ⟨1, 1, .ro, 0, 0⟩]⟩,
  ⟨0x2080, 16, 4, [⟨31, 0, .rw, 0, 0⟩]⟩,
  ⟨0x20C0, 8, 4, [⟨31, 0, .ro, 0, 0⟩]⟩,
  ⟨0x2100, 960, 4, [⟨31, 0, .rw, 0, 0⟩]⟩,
  ⟨0x3000, 1, 4, [⟨31, 0, .ro, 0, 126⟩]⟩,
  ⟨0x3004, 1, 4, [⟨31, 0, .ro, 0, 126⟩]⟩,
  ⟨0x3008, 1, 4, [⟨5, 0, .ro, 0, 126⟩]⟩,
  ⟨0x300C, 1, 4, [⟨1, 0, .ro, 0, 60⟩, ⟨2, 2, .ro, 0, 60⟩, ⟨15, 8, .ro, 0, 60⟩, ⟨19, 16, .ro, 15, 60⟩]⟩,
  ⟨0x3010, 1, 4, [⟨0, 0, .rws, 0, 60⟩, ⟨1, 1, .rws, 0, 60⟩, ⟨7, 4, .rws, 15, 60⟩]⟩,
  ⟨0x3014, 1, 4, [⟨31, 0, .rc, 0, 16⟩]⟩,
  ⟨0x3018, 1, 4, [⟨31, 0, .ro, 0, 0⟩]⟩,
  ⟨0x301C, 1, 4, [⟨3, 0, .w1c, 0, 16⟩]⟩,
  ⟨0x4000, 1, 4, [⟨2, 0, .ro, 0, 120⟩, ⟨5, 3, .ro, 0, 120⟩, ⟨6, 6, .ro, 0, 120⟩]⟩,
  ⟨0x4004, 1, 4, [⟨0, 0, .rw, 0, 124⟩]⟩,
  ⟨0x4008, 1, 4, [⟨0, 0, .wo, 0, 0⟩, ⟨1, 1, .wo, 0, 0⟩, ⟨2, 2, .wo, 0, 0⟩, ⟨3, 3, .wo, 0, 0⟩]⟩,
  ⟨0x400C, 1, 4, [⟨7, 0, .ro, 0, 120⟩, ⟨15, 8, .ro, 0, 120⟩, ⟨23, 16, .ro, 0, 120⟩]⟩,
  ⟨0x4010, 1, 4, [⟨23, 0, .ro, 0, 120⟩]⟩,
  ⟨0x4014, 1, 4, [⟨31, 0, .ro, 0, 120⟩]⟩,
  ⟨0x4018, 1, 4, [⟨31, 0, .ro, 0, 120⟩]⟩
]

/-- The registers of the PF0 window, ascending (part 2). -/
def pfRegs2 : List RegRow := [
  ⟨0x401C, 1, 4, [⟨31, 0, .rw, 0, 120⟩]⟩,
  ⟨0x4020, 1, 4, [⟨31, 0, .rw, 0, 120⟩]⟩,
  ⟨0x4024, 1, 4, [⟨23, 0, .ro, 0, 120⟩]⟩,
  ⟨0x4028, 1, 4, [⟨15, 0, .rw, 0, 124⟩]⟩,
  ⟨0x402C, 1, 4, [⟨3, 0, .rws, 3, 124⟩]⟩,
  ⟨0x4030, 1, 4, [⟨0, 0, .rws, 0, 124⟩, ⟨1, 1, .rws, 0, 124⟩, ⟨8, 8, .w1c, 0, 124⟩]⟩,
  ⟨0x5000, 1, 4, [⟨23, 0, .rw, 0, 118⟩]⟩,
  ⟨0x5004, 1, 4, [⟨31, 0, .ro, 0, 118⟩]⟩,
  ⟨0x5008, 1, 4, [⟨31, 0, .ro, 0, 118⟩]⟩,
  ⟨0x500C, 1, 4, [⟨31, 0, .rc, 0, 16⟩]⟩,
  ⟨0x5010, 1, 4, [⟨3, 0, .ro, 0, 16⟩, ⟨7, 4, .ro, 0, 16⟩, ⟨15, 8, .ro, 0, 16⟩]⟩,
  ⟨0x5100, 128, 4, [⟨31, 0, .rws, 0, 116⟩]⟩,
  ⟨0x6000, 1, 4, [⟨15, 0, .rw, 0, 118⟩]⟩,
  ⟨0x6004, 1, 4, [⟨1, 0, .ro, 0, 118⟩, ⟨15, 8, .ro, 0, 118⟩, ⟨31, 16, .ro, 0, 118⟩]⟩,
  ⟨0x6008, 1, 4, [⟨5, 0, .rw, 0, 118⟩]⟩,
  ⟨0x600C, 1, 4, [⟨15, 0, .ro, 0, 116⟩]⟩,
  ⟨0x6010, 1, 4, [⟨23, 0, .ro, 0, 116⟩]⟩,
  ⟨0x6014, 1, 4, [⟨31, 0, .rc, 0, 16⟩]⟩,
  ⟨0x6018, 1, 4, [⟨31, 0, .rc, 0, 16⟩]⟩,
  ⟨0x601C, 1, 4, [⟨31, 0, .rc, 0, 16⟩]⟩,
  ⟨0x6020, 1, 4, [⟨2, 0, .ro, 0, 118⟩, ⟨15, 8, .ro, 0, 118⟩, ⟨23, 16, .ro, 0, 118⟩]⟩,
  ⟨0x6024, 1, 4, [⟨23, 0, .ro, 0, 118⟩]⟩,
  ⟨0x6028, 1, 4, [⟨12, 0, .ro, 0, 118⟩]⟩,
  ⟨0x7000, 1, 4, [⟨31, 0, .rc, 0, 16⟩]⟩
]

/-- The registers of the PF0 window, ascending (part 3). -/
def pfRegs3 : List RegRow := [
  ⟨0x7004, 1, 4, [⟨1, 0, .ro, 0, 116⟩, ⟨3, 2, .ro, 0, 116⟩, ⟨7, 4, .ro, 0, 116⟩, ⟨15, 8, .ro, 0, 116⟩]⟩,
  ⟨0x7008, 1, 4, [⟨31, 0, .ro, 0, 116⟩]⟩,
  ⟨0x700C, 1, 4, [⟨1, 0, .rw, 0, 0⟩, ⟨2, 2, .rw, 0, 0⟩]⟩,
  ⟨0x8000, 64, 4, [⟨7, 0, .rws, 255, 124⟩, ⟨15, 8, .rws, 255, 124⟩, ⟨23, 16, .rws, 255, 124⟩, ⟨31, 24, .rws, 255, 124⟩]⟩,
  ⟨0x8100, 1, 4, [⟨15, 0, .ro, 0, 16⟩]⟩,
  ⟨0x8104, 1, 4, [⟨31, 0, .rc, 0, 16⟩]⟩,
  ⟨0x9000, 1, 4, [⟨16, 0, .ro, 0, 124⟩]⟩,
  ⟨0x9004, 1, 4, [⟨12, 0, .ro, 0, 56⟩]⟩,
  ⟨0x9008, 1, 4, [⟨15, 0, .ro, 0, 124⟩]⟩,
  ⟨0x900C, 1, 4, [⟨12, 0, .ro, 0, 124⟩]⟩,
  ⟨0x9010, 1, 4, [⟨31, 0, .rc, 0, 16⟩]⟩,
  ⟨0x9014, 1, 4, [⟨31, 0, .rc, 0, 16⟩]⟩,
  ⟨0xA000, 64, 4, [⟨12, 0, .rws, 64, 124⟩]⟩,
  ⟨0xA100, 1, 4, [⟨12, 0, .ro, 0, 116⟩]⟩,
  ⟨0xB000, 64, 4, [⟨3, 0, .rws, 0, 124⟩, ⟨31, 4, .rws, 0, 124⟩]⟩,
  ⟨0xB100, 1, 4, [⟨4, 0, .rws, 5, 124⟩]⟩,
  ⟨0xB104, 8, 4, [⟨11, 0, .ro, 0, 124⟩, ⟨18, 16, .ro, 0, 0⟩]⟩,
  ⟨0xB124, 1, 4, [⟨2, 0, .ro, 0, 124⟩, ⟨3, 3, .ro, 0, 124⟩, ⟨31, 4, .ro, 0, 126⟩]⟩,
  ⟨0xB128, 1, 4, [⟨31, 0, .rc, 0, 16⟩]⟩,
  ⟨0xC000, 64, 4, [⟨14, 0, .rws, 96, 124⟩, ⟨27, 16, .rws, 256, 124⟩]⟩,
  ⟨0xC100, 32, 4, [⟨14, 0, .rws, 64, 124⟩, ⟨27, 16, .rws, 256, 124⟩]⟩,
  ⟨0xC180, 16, 4, [⟨14, 0, .rws, 32, 124⟩, ⟨27, 16, .rws, 0, 124⟩]⟩,
  ⟨0xC200, 32, 4, [⟨7, 0, .rws, 255, 124⟩, ⟨15, 8, .rws, 255, 124⟩]⟩,
  ⟨0xC300, 112, 4, [⟨14, 0, .ro, 0, 0⟩]⟩
]

/-- The registers of the PF0 window, ascending (part 4). -/
def pfRegs4 : List RegRow := [
  ⟨0xC500, 1, 4, [⟨7, 0, .w1c, 0, 16⟩, ⟨8, 8, .ro, 0, 16⟩]⟩,
  ⟨0xC504, 1, 4, [⟨3, 0, .rw, 0, 116⟩]⟩,
  ⟨0xC508, 1, 4, [⟨23, 0, .ro, 0, 0⟩]⟩,
  ⟨0xD000, 8, 4, [⟨1, 0, .rws, 0, 124⟩, ⟨2, 2, .rws, 0, 124⟩, ⟨3, 3, .rws, 0, 124⟩]⟩,
  ⟨0xD020, 1, 4, [⟨3, 0, .rws, 0, 124⟩]⟩,
  ⟨0xD024, 1, 4, [⟨7, 0, .ro, 0, 56⟩]⟩,
  ⟨0xD028, 1, 4, [⟨7, 0, .wo, 0, 0⟩]⟩,
  ⟨0xD02C, 1, 4, [⟨15, 0, .rw, 4096, 124⟩]⟩,
  ⟨0xD030, 1, 4, [⟨7, 0, .ro, 0, 56⟩, ⟨11, 8, .ro, 0, 56⟩, ⟨16, 16, .w1c, 0, 56⟩]⟩,
  ⟨0xD034, 1, 4, [⟨15, 0, .rc, 0, 16⟩, ⟨31, 16, .rc, 0, 16⟩]⟩,
  ⟨0xD100, 32, 4, [⟨2, 0, .ro, 0, 56⟩, ⟨3, 3, .ro, 0, 56⟩, ⟨9, 4, .ro, 0, 56⟩, ⟨13, 10, .ro, 0, 56⟩, ⟨14, 14, .ro, 0, 56⟩, ⟨15, 15, .ro, 0, 56⟩, ⟨23, 16, .ro, 0, 56⟩]⟩,
  ⟨0xD200, 32, 4, [⟨0, 0, .ro, 0, 56⟩, ⟨2, 1, .ro, 0, 56⟩, ⟨31, 16, .ro, 0, 56⟩]⟩,
  ⟨0xD280, 32, 4, [⟨31, 0, .ro, 0, 56⟩]⟩,
  ⟨0xD300, 1, 4, [⟨15, 0, .rc, 0, 16⟩, ⟨31, 16, .rc, 0, 16⟩]⟩,
  ⟨0xD304, 1, 4, [⟨31, 0, .rc, 0, 16⟩]⟩,
  ⟨0xD308, 1, 4, [⟨15, 0, .rc, 0, 16⟩, ⟨31, 16, .rc, 0, 16⟩]⟩,
  ⟨0xD30C, 1, 4, [⟨7, 0, .rw, 16, 124⟩]⟩,
  ⟨0xE000, 1, 4, [⟨2, 0, .ro, 0, 60⟩, ⟨3, 3, .ro, 0, 60⟩, ⟨5, 4, .ro, 0, 60⟩]⟩,
  ⟨0xE004, 4, 4, [⟨31, 0, .ro, 0, 126⟩]⟩,
  ⟨0xE014, 1, 4, [⟨31, 0, .ro, 0, 126⟩]⟩,
  ⟨0xE018, 1, 4, [⟨31, 0, .rc, 0, 16⟩]⟩,
  ⟨0xE01C, 1, 4, [⟨7, 0, .rc, 0, 16⟩]⟩,
  ⟨0xE020, 1, 4, [⟨15, 0, .ro, 0, 124⟩, ⟨31, 16, .ro, 0, 108⟩]⟩,
  ⟨0xE024, 1, 4, [⟨2, 0, .ro, 0, 16⟩, ⟨4, 3, .ro, 0, 16⟩, ⟨24, 8, .ro, 0, 16⟩]⟩
]

/-- The registers of the PF0 window, ascending (part 5). -/
def pfRegs5 : List RegRow := [
  ⟨0xF000, 1, 4, [⟨7, 0, .ro, 0, 124⟩, ⟨8, 8, .ro, 0, 60⟩, ⟨12, 9, .ro, 0, 124⟩, ⟨13, 13, .ro, 0, 124⟩, ⟨14, 14, .ro, 0, 124⟩, ⟨15, 15, .ro, 0, 124⟩, ⟨23, 16, .ro, 0, 124⟩]⟩,
  ⟨0xF004, 1, 4, [⟨7, 0, .rw, 0, 124⟩]⟩,
  ⟨0xF008, 1, 4, [⟨0, 0, .wo, 0, 0⟩, ⟨1, 1, .wo, 0, 0⟩, ⟨2, 2, .wo, 0, 0⟩, ⟨3, 3, .wo, 0, 0⟩]⟩,
  ⟨0xF00C, 1, 4, [⟨7, 0, .ro, 0, 124⟩, ⟨10, 8, .ro, 0, 124⟩]⟩,
  ⟨0xF010, 8, 4, [⟨31, 0, .ro, 0, 124⟩]⟩,
  ⟨0xF040, 48, 4, [⟨31, 0, .wo, 0, 0⟩]⟩,
  ⟨0x10000, 1, 4, [⟨7, 0, .ro, 0, 112⟩]⟩,
  ⟨0x10004, 1, 4, [⟨31, 0, .rc, 0, 16⟩]⟩,
  ⟨0x10008, 1, 4, [⟨13, 0, .rwl, 0, 116⟩]⟩,
  ⟨0x1000C, 1, 4, [⟨15, 0, .ro, 0, 127⟩, ⟨31, 16, .ro, 0, 127⟩]⟩,
  ⟨0x10010, 1, 4, [⟨2, 0, .ro, 0, 108⟩, ⟨15, 8, .ro, 0, 124⟩, ⟨31, 16, .ro, 0, 124⟩]⟩,
  ⟨0x10014, 1, 4, [⟨1, 0, .ro, 0, 116⟩, ⟨4, 2, .ro, 0, 116⟩, ⟨5, 5, .w1c, 0, 116⟩, ⟨31, 6, .ro, 0, 116⟩]⟩,
  ⟨0x10018, 1, 4, [⟨17, 0, .ro, 0, 124⟩, ⟨31, 18, .rc, 0, 16⟩]⟩,
  ⟨0x1001C, 1, 4, [⟨31, 0, .ro, 0, 124⟩]⟩,
  ⟨0x11000, 1, 4, [⟨1, 0, .ro, 0, 116⟩, ⟨2, 2, .ro, 0, 116⟩, ⟨15, 8, .ro, 0, 118⟩]⟩,
  ⟨0x11004, 1, 4, [⟨31, 0, .ro, 0, 116⟩]⟩,
  ⟨0x11008, 1, 4, [⟨31, 0, .ro, 0, 116⟩]⟩,
  ⟨0x1100C, 1, 4, [⟨31, 0, .ro, 0, 116⟩]⟩,
  ⟨0x11010, 1, 4, [⟨31, 0, .ro, 0, 116⟩]⟩,
  ⟨0x11014, 1, 4, [⟨31, 0, .rw, 0, 124⟩]⟩,
  ⟨0x11018, 1, 4, [⟨31, 0, .rw, 0, 124⟩]⟩,
  ⟨0x1101C, 1, 4, [⟨31, 0, .ro, 0, 124⟩]⟩,
  ⟨0x11020, 1, 4, [⟨31, 0, .ro, 0, 124⟩]⟩,
  ⟨0x11024, 1, 4, [⟨7, 0, .ro, 0, 116⟩, ⟨10, 8, .ro, 0, 116⟩, ⟨23, 16, .ro, 0, 116⟩]⟩
]

/-- The registers of the PF0 window, ascending (part 6). -/
def pfRegs6 : List RegRow := [
  ⟨0x11028, 1, 4, [⟨31, 0, .rc, 0, 16⟩]⟩,
  ⟨0x1102C, 1, 4, [⟨15, 0, .rw, 40, 124⟩]⟩,
  ⟨0x11030, 1, 4, [⟨15, 0, .rw, 1000, 124⟩]⟩,
  ⟨0x12000, 1, 4, [⟨0, 0, .ro, 0, 127⟩, ⟨1, 1, .ro, 0, 127⟩, ⟨2, 2, .ro, 0, 124⟩, ⟨3, 3, .ro, 0, 124⟩, ⟨5, 4, .ro, 0, 124⟩, ⟨6, 6, .w1c, 0, 124⟩]⟩,
  ⟨0x12004, 1, 4, [⟨2, 0, .ro, 0, 126⟩]⟩,
  ⟨0x12008, 1, 4, [⟨0, 0, .rw, 0, 124⟩, ⟨1, 1, .wo, 0, 0⟩]⟩,
  ⟨0x1200C, 1, 4, [⟨7, 0, .rw, 95, 124⟩, ⟨15, 8, .rw, 110, 124⟩]⟩,
  ⟨0x12010, 1, 4, [⟨11, 0, .rw, 3000, 124⟩]⟩,
  ⟨0x12014, 1, 4, [⟨7, 0, .ro, 0, 16⟩, ⟨10, 8, .ro, 0, 16⟩, ⟨23, 12, .ro, 0, 16⟩]⟩,
  ⟨0x12018, 1, 4, [⟨31, 0, .rws, 0, 124⟩]⟩,
  ⟨0x1201C, 1, 4, [⟨31, 0, .rws, 0, 124⟩]⟩,
  ⟨0x13000, 1, 4, [⟨16, 0, .ro, 0, 127⟩, ⟨17, 17, .ro, 0, 127⟩, ⟨18, 18, .ro, 0, 127⟩, ⟨19, 19, .ro, 0, 127⟩, ⟨31, 24, .ro, 0, 127⟩]⟩,
  ⟨0x13004, 1, 4, [⟨31, 0, .ro, 0, 127⟩]⟩,
  ⟨0x13008, 1, 4, [⟨31, 0, .ro, 0, 127⟩]⟩,
  ⟨0x1300C, 1, 4, [⟨31, 0, .ro, 0, 127⟩]⟩,
  ⟨0x13010, 1, 4, [⟨31, 0, .ro, 0, 127⟩]⟩,
  ⟨0x13014, 1, 4, [⟨15, 0, .rw, 0, 126⟩, ⟨16, 16, .ro, 0, 126⟩]⟩,
  ⟨0x13040, 16, 4, [⟨31, 0, .ro, 0, 126⟩]⟩,
  ⟨0x14000, 1, 4, [⟨15, 0, .w1c, 0, 116⟩]⟩,
  ⟨0x14004, 1, 4, [⟨15, 0, .rw, 0, 116⟩]⟩,
  ⟨0x14010, 4, 4, [⟨4, 0, .rw, 0, 116⟩, ⟨12, 8, .rw, 0, 116⟩, ⟨20, 16, .rw, 0, 116⟩, ⟨28, 24, .rw, 0, 116⟩]⟩
]

/-- The registers of the PF0 window, ascending. -/
def pfRegs : List RegRow := pfRegs0 ++ pfRegs1 ++ pfRegs2 ++ pfRegs3 ++ pfRegs4 ++ pfRegs5 ++ pfRegs6

/-- The registers of one VF window, ascending (part 0). -/
def vfRegs0 : List RegRow := [
  ⟨0x0, 1, 4, [⟨5, 0, .ro, 0, 127⟩, ⟨15, 8, .ro, 255, 124⟩]⟩,
  ⟨0x4, 1, 4, [⟨15, 0, .ro, 1, 116⟩]⟩,
  ⟨0x8, 1, 4, [⟨1, 0, .ro, 0, 116⟩, ⟨2, 2, .ro, 0, 112⟩, ⟨3, 3, .ro, 0, 124⟩]⟩,
  ⟨0xC, 1, 4, [⟨4, 0, .rw, 0, 116⟩, ⟨5, 5, .rw, 0, 116⟩, ⟨12, 8, .rw, 0, 116⟩, ⟨13, 13, .rw, 0, 116⟩, ⟨20, 16, .rw, 0, 116⟩, ⟨21, 21, .rw, 0, 116⟩]⟩,
  ⟨0x10, 1, 4, [⟨31, 0, .rc, 0, 16⟩]⟩,
  ⟨0x1000, 1, 4, [⟨31, 0, .rw, 0, 116⟩]⟩,
  ⟨0x1004, 1, 4, [⟨31, 0, .rw, 0, 116⟩]⟩,
  ⟨0x1008, 1, 4, [⟨31, 0, .rw, 0, 116⟩]⟩,
  ⟨0x100C, 1, 4, [⟨31, 0, .rw, 0, 116⟩]⟩,
  ⟨0x1010, 1, 4, [⟨12, 0, .rw, 0, 116⟩, ⟨16, 16, .rw, 0, 116⟩]⟩,
  ⟨0x1014, 1, 4, [⟨11, 0, .wo, 0, 0⟩]⟩,
  ⟨0x1018, 1, 4, [⟨11, 0, .ro, 0, 116⟩]⟩,
  ⟨0x101C, 1, 4, [⟨11, 0, .rw, 0, 116⟩]⟩,
  ⟨0x1020, 1, 4, [⟨0, 0, .ro, 0, 116⟩, ⟨1, 1, .ro, 0, 116⟩, ⟨3, 2, .ro, 1, 116⟩, ⟨4, 4, .w1c, 0, 116⟩, ⟨5, 5, .w1c, 0, 116⟩, ⟨11, 6, .ro, 0, 116⟩]⟩,
  ⟨0x1024, 1, 4, [⟨31, 0, .ro, 0, 116⟩]⟩,
  ⟨0x1028, 1, 4, [⟨31, 0, .ro, 0, 116⟩]⟩,
  ⟨0x102C, 1, 4, [⟨27, 0, .ro, 0, 116⟩]⟩,
  ⟨0x1030, 1, 4, [⟨31, 0, .rc, 0, 16⟩]⟩,
  ⟨0x2000, 1, 4, [⟨31, 0, .ro, 0, 126⟩]⟩,
  ⟨0x2004, 1, 4, [⟨31, 0, .ro, 0, 126⟩]⟩,
  ⟨0x3000, 1, 4, [⟨2, 0, .ro, 0, 48⟩, ⟨5, 3, .ro, 0, 48⟩, ⟨8, 6, .ro, 0, 48⟩, ⟨9, 9, .ro, 0, 48⟩, ⟨10, 10, .ro, 0, 48⟩, ⟨31, 16, .ro, 0, 48⟩]⟩,
  ⟨0x3004, 1, 4, [⟨31, 0, .ro, 0, 48⟩]⟩,
  ⟨0x3008, 1, 4, [⟨0, 0, .rw, 0, 112⟩, ⟨5, 1, .rw, 0, 112⟩]⟩,
  ⟨0x3010, 8, 4, [⟨11, 0, .ro, 0, 124⟩, ⟨15, 12, .ro, 0, 124⟩, ⟨18, 16, .ro, 0, 48⟩]⟩
]

/-- The registers of one VF window, ascending (part 1). -/
def vfRegs1 : List RegRow := [
  ⟨0x4000, 1, 4, [⟨6, 0, .ro, 0, 124⟩]⟩,
  ⟨0x10000, 4096, 8, [⟨12, 0, .wo, 0, 0⟩]⟩,
  ⟨0x10004, 4096, 8, [⟨11, 0, .rw, 0, 116⟩]⟩,
  ⟨0x18000, 1, 4, [⟨11, 0, .rw, 0, 116⟩]⟩,
  ⟨0x18004, 1, 4, [⟨1, 0, .ro, 0, 116⟩, ⟨3, 2, .ro, 0, 116⟩, ⟨4, 4, .ro, 0, 116⟩, ⟨6, 5, .ro, 0, 116⟩, ⟨7, 7, .w1c, 0, 116⟩, ⟨19, 8, .ro, 0, 116⟩, ⟨27, 20, .ro, 0, 116⟩]⟩,
  ⟨0x18010, 10, 4, [⟨31, 0, .ro, 0, 116⟩]⟩,
  ⟨0x18040, 1, 4, [⟨7, 0, .ro, 0, 116⟩, ⟨19, 8, .ro, 0, 116⟩]⟩,
  ⟨0x18044, 1, 4, [⟨12, 0, .ro, 0, 116⟩]⟩,
  ⟨0x18048, 1, 4, [⟨15, 0, .rw, 64, 116⟩]⟩
]

/-- The registers of one VF window, ascending. -/
def vfRegs : List RegRow := vfRegs0 ++ vfRegs1

/-- The row that holds offset `a`, if a register lies there. -/
def findRow (rows : List RegRow) (a : Nat) : Option RegRow :=
  rows.find? (fun r => r.base ≤ a && a < r.base + r.count * r.stride && (a - r.base) % r.stride == 0)

/-- Where a VF's window stands in the one numbering of register places: PF0's window first, then VF 0, VF 1, … -/
def vfReg (v off : Nat) : Nat := (v + 1) * 0x1000000 + off

/-- Where source `src` (0 the host, 1 the debug port, 2–5 CC0–CC3) keeps its own copy of a select register or latch (26 R551). -/
def srcReg (src off : Nat) : Nat := if src = 0 then off else (src + 100) * 0x1000000 + off

/-- The row of a register place. -/
def rowAt (k : Nat) : Option RegRow :=
  let w := k / 0x1000000
  let a := k % 0x1000000
  if w = 0 then findRow pfRegs a else if w ≤ 64 then findRow vfRegs a else findRow pfRegs a

/-- The reset value the register tables give a row. -/
def RegRow.reset (r : RegRow) : Nat :=
  (r.fields.map (fun f => (f.rst % 2 ^ (f.hi + 1 - f.lo)) * 2 ^ f.lo)).foldr (· + ·) 0

/-- What a register place reads as where nothing has been written: its reset value. -/
def regReset (k : Nat) : W32 :=
  match rowAt k with
  | some r => BitVec.ofNat 32 r.reset
  | none => 0

/-- The value a register keeps across an event: the fields whose Survives column shows letter `l` (00 R13), the others at reset. -/
def regKeep (l : Nat) (k : Nat) (v : W32) : W32 :=
  match rowAt k with
  | some r => BitVec.ofNat 32 ((r.fields.map (fun f =>
      (if f.surv.testBit l then bits v.toNat f.hi f.lo else f.rst % 2 ^ (f.hi + 1 - f.lo)) * 2 ^ f.lo)).foldr (· + ·) 0)
  | none => v

end Sys2Proof.Machine
end

