-- ==== Sys2Proof/Machine/State.lean ====
section
/-! DEFINITION. The state of the block: every register, table, buffer, queue and mode the spec gives Llyna, as plain data,
and the machine right after LLY_PORST_n is released (`State.reset`). Each structure names the chapter that owns it. -/

namespace Sys2Proof.Machine

/-! ## Binder (03) -/

/-- STATE of a grain table entry (R54). -/
inductive GState | blank | owned | dirty | scrubbing | poison
deriving DecidableEq, Repr

/-- ATTR of a grain table entry (R54). -/
inductive GAttr | priv | pod | save | sharedRo | baseSealed
deriving DecidableEq, Repr

/-- A grain table entry (R54). `owner` is 0–63 or 0xFF. -/
structure GrainE where
  st : GState
  inUse : Bool
  attr : GAttr
  sealed : Bool
  owner : Nat
  keyid : Nat
  shgrp : Nat
  image : Nat
  copy : Nat
  igrain : Nat
deriving DecidableEq, Repr

/-- A blank entry, which reads 0x0000_0000_0000_FF00 (R54). -/
def GrainE.blank : GrainE := ⟨.blank, false, .priv, false, 0xFF, 0, 0, 0, 0, 0⟩

/-- A slice definition (R52). -/
structure SliceDef where
  slice : Nat
  vf : Nat
  baseCopy : Nat
  keyid : Nat
  memRes : Nat
  clusters : Nat
  stackSet : Nat
  imageGrant : Nat
  latTarget : Nat
  foldShare : Nat
  fabMask : Nat
  fabRes : Nat
  fsliceId : Nat
  grains : Nat
deriving DecidableEq, Repr

/-- The statement version of a slice and the effective tick of that version (R71, R72). -/
structure StmtVer where
  ver : Nat
  tick : Nat
deriving DecidableEq, Repr

/-- A spare expert tile range of a layer in an image header (09 R217). -/
structure Spare where
  layer : Nat
  spare : Nat
  first : Nat
  tiles : Nat
deriving DecidableEq, Repr

/-- A base image (03 R65, 15 R349–R351). `loaded` lists the grains verified by R130 as 65,536·copy + igrain; `lastCopy` is the copy of a MIRRORED image that was
the last to be sound, which statements show when none is (log 66). -/
structure ImageE where
  bound : Bool
  mirrored : Bool
  sealed : Bool
  baseId : Nat
  ver : Nat
  ngrains : Nat
  ntiles : Nat
  crcBase : Nat
  scaleBase : Nat
  expertBase : Nat
  spares : List Spare
  grains0 : List Nat
  grains1 : List Nat
  loaded : List Nat
  lastCopy : Nat
deriving DecidableEq, Repr

/-- An image number to which nothing is bound. -/
def ImageE.init : ImageE := ⟨false, false, false, 0, 0, 0, 0, 0, 0, 0, [], [], [], [], 0⟩

/-- The Binder (03): the grain table (R54), the slice definitions in force (R52), statement versions and base images (R65). `poisonings` counts line
poisonings of a grain since it last became OWNED (R112); `scrub` holds the lines of each SCRUBBING grain written so far, and `scrubTok` what each stack's
scrub rate has given and no line has used, in 1/114,240 byte (04 R92). -/
structure Bnd where
  gt : Tbl GrainE
  poisonings : Tbl Nat
  defs : Tbl (Option SliceDef)
  vers : Tbl StmtVer
  images : Tbl ImageE
  scrub : Tbl Nat
  scrubTok : Tbl Nat
deriving DecidableEq, Repr

/-! ## Chuck (04) -/

/-- States of a staging bank (R76). -/
inductive BankSt | empty | loading | checked | waitBlank | drain | deciding | checking
deriving DecidableEq, Repr

/-- OP of a grain change record (R415), with IMAGE_BIND's assignment of blanks to the system tag (R65) and its taking them back (15 R351). -/
inductive ChgOp | give | giveAny | take | setAttr | bindImage | dropImage
deriving DecidableEq, Repr

/-- A grain change record in a bank (R415), with the slice it names. -/
structure GrainChg where
  slice : Nat
  op : ChgOp
  grain : Nat
  attr : GAttr
  shgrp : Nat
  onStacks : Nat
  count : Nat
  image : Nat
  copy : Nat
  igrain : Nat
deriving DecidableEq, Repr

/-- Who waits for a mailbox command's completion: the function, whether it came by the direct mailbox, its CMD_ID, its opcode,
and the GEN the function had when it was submitted (18). -/
structure CmdRef where
  fn : Nat
  direct : Bool
  id : Nat
  op : Nat
  gen : Nat
deriving DecidableEq, Repr

/-- What drain of an armed bank is running (R83–R86). -/
inductive DrainSt | none | saving | clearing | memory | keys | raised | held
deriving DecidableEq, Repr

/-- A staging bank (R76). `rws` holds staged register values by register place; `named` is the stamp of R95;
`since` the tick the present phase started; `savedFrom` the clusters whose tasks a drain saves (R84); `keysWanted` the KeyIDs whose keys the vault still derives, `derived` those whose index
it has raised for this bank (15 R330); `cmd` the command to complete. -/
structure Bank where
  st : BankSt
  defs : List SliceDef
  destroys : List Nat
  recs : List GrainChg
  seals : List Nat
  rws : Tbl Nat
  named : Nat
  since : Nat
  drain : DrainSt
  savedFrom : List (Nat × Nat)
  keysWanted : List Nat
  derived : List Nat
  checkAsked : Bool
  cmd : Option CmdRef
deriving DecidableEq, Repr

/-- An EMPTY bank. -/
def Bank.init : Bank := ⟨.empty, [], [], [], [], [], 0, 0, .none, [], [], [], false, none⟩

/-- The Chuck (04). -/
structure Chk where
  a : Bank
  b : Bank
  load : Nat
  lastTick : Nat
deriving DecidableEq, Repr

/-! ## Memory crypt (05) and the request path (03 R60, 11) -/

/-- State of a KeyID (R116). -/
inductive KeySt | free | active | retiring | system
deriving DecidableEq, Repr

/-- A KeyID: its state, holder, derivation index (R117), and the entry the 256 key tables hold for it (R100): whether it is LIVE, and its 96-byte key set
K1 ‖ K2 ‖ K3 as the two shares k ⊕ m and m of 15 R332, both zeros while EMPTY. -/
structure KeyE where
  st : KeySt
  owner : Nat
  dix : Nat
  live : Bool
  share : List Byte
  mask : List Byte
deriving DecidableEq, Repr

/-- A KeyID never used. -/
def KeyE.init : KeyE := ⟨.free, 0, 0, false, [], []⟩

/-- A line a walk has read and not yet written (R119): its engine, grain and line, and the slot value its read started with, if cached. -/
structure WalkRead where
  eng : Nat
  grain : Nat
  line : Nat
  slot : Option W64
deriving DecidableEq, Repr

/-- A re-key walk (R119): the retiring KeyID, the new one, and on each stack the grains not yet walked, ascending; `marks` the lines each engine has done of the
grain in hand on its stack, `reads` the lines at the watermarks, and `toks` what each stack's quarter (R120) has given and no line has used, in 1/512 byte. -/
structure Walk where
  old : Nat
  new : Nat
  left : Tbl (List Nat)
  marks : Tbl Nat
  reads : List WalkRead
  toks : Tbl Nat
deriving DecidableEq, Repr

/-- A line of a tag cache (R110): its way of the set and holder (R259), grain, tag line 0–7 of the port, the valid slots with their values, and
whether it holds slots not yet written to the carve-out. Lists of them stand most recently used first. -/
structure TagLine where
  way : Nat
  holder : Nat
  grain : Nat
  line : Nat
  slots : Tbl W64
  dirty : Bool
deriving DecidableEq, Repr

/-- Requester classes in LLY_BND_DENY_LAST's coding (R59, R74). -/
inductive RClass | cd | sav | fld | pf | hd | fab | cc | scr | img
deriving DecidableEq, Repr

/-- Where a memory request stands: held by the Binder in a drain (R86), waiting at its regulator, issued to its crypt engine and
memory controller, or answered and held for delivery until I + 640 ns (R257). -/
inductive ReqPhase | held | waiting | issued | ready
deriving DecidableEq, Repr

/-- How a line access was resolved (R106, R107). -/
inductive LineRes | none | ok | poisoned | error
deriving DecidableEq, Repr

/-- One line access on its way (R99): `port` and `aux` say where it came in (R59); `slot` is the slot value its read started with, where the tag cache held it, and
`pre` whether its miss fetched the next tag line too (R110). Times count sixteenths of a nanosecond since tick 0 (4,096 to a tick). -/
structure MemReq where
  id : Nat
  cls : RClass
  tag : Nat
  write : Bool
  mask : Nat
  data : List Byte
  addr : Nat
  grain : Nat
  line : Nat
  keyid : Nat
  port : Nat
  aux : Nat
  arrived : Nat
  issued : Nat
  phase : ReqPhase
  res : LineRes
  late : Bool
  slot : Option W64
  pre : Bool
deriving DecidableEq, Repr

/-- What a unit of Llyna waits for of an access of its own (01 R20): the lines of request `id`, of `len` bytes at `addr`, still on their way, how bad the worst was (1 an error,
2 POISONED), and the bytes of those read by line address. -/
structure Coll where
  id : Nat
  addr : Nat
  len : Nat
  left : Nat
  bad : Nat
  got : Tbl (List Byte)
deriving DecidableEq, Repr

/-- The memory crypt engines (05). `colls` are the accesses Llyna's own units wait for and `nextId` numbers the next; `haltSums` keeps the sums of LLY_AUD_SEL as they were at a halt's effective
tick (12 R280); `remark` holds while Z(a) is being
written into every slot of the system tag's grains after an Interleave change (R123). -/
structure Mce where
  keys : Tbl KeyE
  walks : Tbl (Option Walk)
  tagc : Tbl (List TagLine)
  reqs : List MemReq
  fenced : Bool
  halted : Bool
  remark : Bool
  haltSums : List Nat
  colls : List Coll
  nextId : Nat
deriving DecidableEq, Repr

/-! ## Bandwidth regulator (11) -/

/-- A regulator of one slice and stack (R251, R255), in 1/512 byte: its bucket and the counts of R278 since its last reset. -/
structure Regul where
  bucket : Nat
  filled : Nat
  charged : Nat
  lost : Nat
deriving DecidableEq, Repr

/-- A slice's epoch report (R264). -/
structure Report where
  slow : Nat
  cap : Nat
  grant : Nat
  misses : Nat
  lend : Bool
  capped : Bool
  epoch : Nat
deriving DecidableEq, Repr

/-- What is gathered for a slice in the running epoch: ticks waiting for tokens, misses, the resources it claimed
(stack k = k, fold unit u = 8 + u, husk transfer = 24, fabric port p = 25 + p), and bytes charged by stack. -/
structure EpochAcc where
  waitTicks : Nat
  misses : Nat
  claims : List Nat
  used : Tbl Nat
deriving DecidableEq, Repr

/-- Nothing gathered. -/
def EpochAcc.init : EpochAcc := ⟨0, 0, [], []⟩

/-- The bandwidth regulator (11). `lent` holds eighths by 64·resource + slice, `grant` the level g of R265 by slice,
`borrowOn` the resources each slice borrows on, `scrubV` the scrub rate of each stack fixed for the epoch in LEND (R92),
`qlvl` a stack's queue level and the tick it last became that level (R269). `usedPos` and `usedGrant` are the fold positions whose owner has used a cycle, and a
husk grant, in the running epoch; `idlePos` and `idleGrant` the positions that are idle for the epoch, and `offered` the lent cycles and grant bytes offered so far by
64·resource + slice (R266). -/
structure Bwr where
  regs : Tbl Regul
  epoch : Nat
  cap : Nat
  capped : Bool
  acc : Tbl EpochAcc
  reports : Tbl (Option Report)
  lent : Tbl Nat
  grant : Tbl Nat
  borrowOn : Tbl (List Nat)
  scrubV : Tbl Nat
  qlvl : Tbl (Nat × Nat)
  usedPos : List Nat
  usedGrant : List Nat
  idlePos : List Nat
  idleGrant : List Nat
  offered : Tbl Nat
deriving DecidableEq, Repr

/-! ## Transit pool and audit (12) -/

/-- What a holder has in a channel: buffers held and buffers returning (R274). Keys are 256·channel + holder. -/
structure TplUse where
  held : Nat
  returning : Nat
deriving DecidableEq, Repr

/-- Fabric credits of one holder on one port and VC (R277), as sender and as receiver. Keys are ((4·port + link)·8 + VC)·256 + holder. -/
structure FabCred where
  txGranted : Nat
  txHeld : Nat
  txOut : Nat
  rxAdv : Nat
  rxPartner : Nat
  rxOcc : Nat
  rxRet : Nat
deriving DecidableEq, Repr

/-- What a host access serves (R227, R228, R231, R203, R205, R244, R350, R385, R386, R390). -/
inductive HostUse
  | ring | completion | glist | dmaRead | dmaWrite | huskF | huskT | huskPut | mbxRing | mbxData | mbxWrite | mbxCpl | image | fw | other
deriving DecidableEq, Repr

/-- A host access of Llyna's (R534): what it serves and for whom (`sl`, `a`, `b`: a slice or function with a queue, an entry, a pod), the
function it is issued as and its generation, whether it writes, where, its bytes (those to write, or those read so far in order),
the bytes requested and answered so far. A DMA transfer's access draws on `budget` (R231, R275). -/
structure HostAcc where
  id : Nat
  use : HostUse
  sl : Nat
  a : Nat
  b : Nat
  fn : Nat
  gen : Nat
  write : Bool
  addr : Nat
  len : Nat
  sent : Nat
  back : Nat
  data : List Byte
  budget : Nat
deriving DecidableEq, Repr

/-- A request on the HIF (R534): its tag, the access it belongs to, its offset and length there, and its buffer's channel (112: none). -/
structure HostReq where
  tag : Nat
  acc : Nat
  off : Nat
  len : Nat
  chan : Nat
deriving DecidableEq, Repr

/-- Shared buffers and credits (12). Host credits: `hostGiven` by the controller at link-up, `hostHeld`, and `hostUsed` by requests whose
credit has not come back (R276). -/
structure Tpl where
  free : Nat
  use : Tbl TplUse
  hostUp : Bool
  hostGiven : Nat
  hostHeld : Nat
  hostUsed : Nat
  accs : List HostAcc
  reqs : List HostReq
  nextAcc : Nat
  nextTag : Nat
  fab : Tbl FabCred
deriving DecidableEq, Repr

/-! ## Fold engine (08) -/

/-- KIND of a fold descriptor (R166). -/
inductive FoldKind | inFlight | copy | step | reduce
deriving DecidableEq, Repr

/-- A pass waits for its pods and earlier STEPs (R175), runs, is suspended at its next undone tile (R164), or is stopped by its slice's containment (22 R472). -/
inductive PassSt | waiting | running | suspended | stopped
deriving DecidableEq, Repr

/-- A tile read a gather holds (R171, R172): who asked, for which variant index. -/
structure GatherRead where
  cluster : Nat
  variant : Nat
  rid : Nat
deriving DecidableEq, Repr

/-- A folded variant waiting to be emitted (R173): its index, bytes, CRC, the cycles of R177 it takes, the scale byte a COPY with RESCALE
writes, and its counts of R157. -/
structure GatherOut where
  v : Nat
  bytes : List Byte
  crc : Nat
  cost : Nat
  scale : Option Nat
  sat : Nat
  nanE : Nat
  nanB : Nat
deriving DecidableEq, Repr

/-- A gather of one TIX (R172); `ended` once it takes no further read; `ids` are the accesses that read its base tile, entry, scale byte and windows,
and `out` the variants still to be emitted once these have come. -/
structure Gather where
  tix : Nat
  since : Nat
  taddr : Nat
  caddr : Nat
  reads : List GatherRead
  ended : Bool
  ids : List Nat
  out : List GatherOut
deriving DecidableEq, Repr

/-- An admitted fold descriptor (R165–R175). `desc` is its 128 bytes; `order` its place in admission order (R175);
`tiles` the tiles or blocks done; `baseRead` the TIX whose
base tile has been read, for REREADS; `seen` the TADDR and CADDR of each TIX (R171); `podGen` the pod's generation folded (R176); `ended` a status an error has given it (R470). `shelfSrc` are the pods whose windows it loads from the shelf
(09 R206); `ids` and `wids` its own reads and writes on their way, and `out` the tile a COPY
has folded and not yet written. -/
structure Pass where
  sl : Nat
  queue : Nat
  jgen : Nat
  entry : Nat
  kind : FoldKind
  desc : List Byte
  order : Nat
  st : PassSt
  unit : Nat
  tiles : Nat
  served : Nat
  rereads : Nat
  satNf : Nat
  nanElem : Nat
  nanBlock : Nat
  podGen : Nat
  ended : Option Nat
  gathers : List Gather
  baseRead : List Nat
  seen : List (Nat × Nat × Nat)
  shelfSrc : List Nat
  ids : List Nat
  wids : List Nat
  out : List GatherOut
deriving DecidableEq, Repr

/-- An unadapted tile read on its way (06 R134): who asked, the image, tile and variant it names, its format, and its two accesses. -/
structure TileRd where
  rid : Nat
  cluster : Nat
  image : Nat
  tix : Nat
  variant : Nat
  fmt : Nat
  tileId : Nat
  entId : Nat
deriving DecidableEq, Repr

/-- A tile read held because the FDID it names is a suspended pass's (08 R171): its fields. -/
structure TileHold where
  rid : Nat
  cluster : Nat
  taddr : Nat
  caddr : Nat
  tix : Nat
  variant : Nat
  fmt : Nat
  fdid : Nat
deriving DecidableEq, Repr

/-- The fold engine (08). `failed` holds the (slice, FDID) of descriptors that ended with CHECK_FAILED (R175); `cyc` the cycles
each slice has had of a unit and no tile has used, by 64·unit + slice (R163, R177). `acc` holds the accumulator tiles, by 64·unit + tile: 16,384 FP32
patterns, [] for zeros; `fbuf` the 131,072 factor-buffer bytes of each position as BF16 patterns, [] for zeros (R160, R162, R164). `reads` are unadapted
tile reads on their way, `held` those held for a suspended pass. -/
structure Fld where
  passes : List Pass
  nextOrder : Nat
  failed : List (Nat × Nat)
  cyc : Tbl Nat
  acc : Tbl (List Nat)
  fbuf : Tbl (List Nat)
  reads : List TileRd
  held : List TileHold
deriving DecidableEq, Repr

/-! ## Tile checks (06) -/

/-- The tile check unit (06): the die-side checkers' copy of each image's VER (R134). -/
structure Tcu where
  dieVer : Tbl Nat
deriving DecidableEq, Repr

/-! ## Fault manager (22) -/

/-- A fault or report as raised (R465–R477): `scope` 1 TASK, 2 SLICE, 3 DOMAIN, 4 REPORT, 5 BLOCK. `module` is the DDL module a die-side checker names
(R486), of the die in `cluster`; `tag` is the tag a BINDER_DENY names (03 R62). -/
structure FaultEv where
  kind : Nat
  scope : Nat
  slices : List Nat
  cluster : Nat
  taskId : Nat
  queue : Nat
  jgen : Nat
  engine : Option Nat
  instr : Nat
  sub : Nat
  aux : Nat
  da : Nat
  addr : Nat
  db : Nat
  dc : Nat
  module : Nat
  tag : Nat
deriving DecidableEq, Repr

/-- A stored fault record (R476), before its bytes are laid out. -/
structure FaultRec where
  fseq : Nat
  primary : Bool
  slice : Nat
  tick : Nat
  ev : FaultEv
  lost : Nat
  capture : Nat
deriving DecidableEq, Repr

/-- The phases of a slice's recovery (R485), with the held state (R484): contained or about to be, capture, the slice reset asked for with its
retrainings, the reset in force. -/
inductive RecPhase | none | contain | capture | recover | reset | held
deriving DecidableEq, Repr

/-- A capture held in the slice's highest save slot (R480–R482): its first MiB without the zeros that end it, and what follows of the clusters; `taking`
until it has been written. -/
structure Capture where
  mode : Nat
  bytes : Nat
  head : List Byte
  body : List Byte
  fseq : Nat
  taking : Bool
deriving DecidableEq, Repr

/-- A target of retraining (R486): a module group of a die, one module of a die, or channels of a stack. -/
inductive Retrain
  | group (die k : Nat)
  | module (die k : Nat)
  | stack (k : Nat)
  | channel (port : Nat)
deriving DecidableEq, Repr

/-- The Fault manager's record of one slice (R467, R478, R480–R488): its phase, the containment tick C and whether what C does has been done,
when the phase began, the fault that started the containment with its stamp and, once written, its FSEQ; secondary events that wait for
that record; the last FSEQ, the store, the records lost; the stamps of R484's count; whether the slice is to be held, and for want of a
domain; the capture and CAPTURE_MODE; the clusters not yet stopped and those in cluster reset; the retrainings under way; the commands
that wait for the reset's end, and an FLR that does. -/
structure FltSlice where
  phase : RecPhase
  containAt : Nat
  acted : Bool
  since : Nat
  stamp : Nat
  primary : Option FaultEv
  primSeq : Nat
  pend : List (Nat × FaultEv)
  fseq : Nat
  store : List FaultRec
  lost : Nat
  starts : List Nat
  hold : Bool
  domainOut : Bool
  capture : Option Capture
  capMode : Nat
  notStopped : List Nat
  inReset : List Nat
  retrain : List Retrain
  waiters : List CmdRef
  flr : Bool
deriving DecidableEq, Repr

/-- A slice with no fault history. -/
def FltSlice.init : FltSlice :=
  ⟨.none, 0, false, 0, 0, none, 0, [], 0, [], 0, [], false, false, none, 0, [], [], [], [], false⟩

/-- The Fault manager (22). `block`: 0 normal, 1 block reset in progress, 2 FAILED (R493), from tick `blockAt`, by the event stamped `blockStamp`; `blocks`
counts them; `readyTick` the last READY of a block reset; `memTimeouts` the ports and stamps counted by R486; `heldPorts` the memory
ports whose requests are held for a retraining; `badGroups` the module groups of each die that failed theirs. -/
structure Flt where
  slices : Tbl FltSlice
  block : Nat
  blockAt : Nat
  blockStamp : Nat
  blocks : Nat
  readyTick : Option Nat
  memTimeouts : List (Nat × Nat)
  heldPorts : List Nat
  badGroups : Tbl Nat
deriving DecidableEq, Repr


/-! ## Events and the Spindle (02) -/

/-- What an event says (R31, R34). The comments give the precedence class each is raised in. -/
inductive EvBody
  /-- Class 1: cause of LLY_MCE_HALT_CAUSE, engine, tag, grain, line (05 R114). -/
  | secHalt (source port tag grain line : Nat)
  /-- Class 2: 1 SEC_BACKUP, 2 SEC_MAIN, 3 VLLY_WARN, 4 THERM_TRIP (23). -/
  | supply (k arg : Nat)
  /-- Class 3: a fault or report of the Fault manager (22). -/
  | fault (e : FaultEv)
  /-- Class 3: a line poisoning (05 R112). -/
  | linePoison (grain line port cause : Nat)
  /-- Class 3: grains that become POISON (03 R56, 25 R538); `stack` 8 unless the whole stack fails. -/
  | grainPoison (first count stack : Nat)
  /-- Class 3: an ABORT flit for FSLICE_ID with abort tick, hops, kind and origin (14 R319). -/
  | abortIn (fslice x hops kind origin port : Nat)
  /-- Class 3: the ABORT flits of an abort origin for a slice, which leave from the tick after its decision (14 R318). -/
  | abortOut (s x kind : Nat)
  /-- Class 3: a link goes DOWN with its reason, or is degraded (13 R296, R297). -/
  | portDown (port link reason : Nat)
  | portDegrade (port link lanes : Nat)
  /-- Class 4: block reset (22 R490), slice reset (R488), core restart (21 R461). -/
  | blockReset (kind : Nat)
  | sliceReset (s cause : Nat) (cmd : Option CmdRef)
  | coreRestart (core why : Nat)
  /-- Class 4: generation advances of functions (17 R370); `pf` for PF0's own. -/
  | genAdvance (fns : List Nat)
  /-- Class 5: the armed bank's commit (04 R83). -/
  | commit (bank : Nat)
  /-- Class 6: a LEAVE at its turn (10 R245), and grains given back after a rejected GLIST write (R244). -/
  | leave (s queue entry : Nat) (desc : List Byte)
  | giveBack (s queue entry : Nat) (grains : List Nat)
  /-- Class 6, system: the scrubber starts or ends a grain (03 R56). -/
  | scrubStart (grain : Nat)
  | scrubDone (grain : Nat)
  /-- Class 3: the scrubber's verify failed (03 R56). -/
  | scrubBad (grain : Nat)
  /-- Class 6: a slot or expert released (09 R215). -/
  | release (s : Nat) (expert : Bool) (layer slot pod : Nat) (cmd : Option CmdRef)
  /-- Class 7: a key-retire completion (05 R121). -/
  | keyRetire (keyid : Nat)
  /-- Class 8: a JOIN enters its admission queue, or the queue is decided again (10 R244). -/
  | join (s queue entry : Nat)
  | decideJoins (s : Nat)
  /-- Classes 6 and 8: a transition of a pod's RES, LIFE or TRAIN (09 R198), by `Pods.what` code. -/
  | pod (s handle what : Nat) (args : List Nat) (cmd : Option CmdRef)
  /-- Classes 6, 8 and 10: a queue created (0), destroyed (1), flushed (2), suspended (3), suspended with save (4), resumed (5). -/
  | queueOp (s queue what : Nat) (args : List Nat) (cmd : Option CmdRef)
  /-- Class 9: a slot or expert claim (09 R215, R216). -/
  | claim (s : Nat) (expert : Bool) (layer slot pod prio seq : Nat) (cmd : Option CmdRef)
  /-- Class 10: a pre-emption request for ready work (10 R239), or for one running task of a suspended queue (20 R442). -/
  | preempt (s queue entry : Nat)
  | saveTask (s queue entry : Nat)
  /-- Class 11: a doorbell (10 R225). -/
  | doorbell (s queue count : Nat)
  /-- Class 11: the end or renewal of a lease on a function (18 R395–R398): 0 expiry, 1 detach, 2 reattach. -/
  | lease (fn what : Nat)
  /-- Class 11: a tail write of a function's mailbox (18 R385), and a GO of the direct mailbox (R391). -/
  | mbTail (fn tail : Nat)
  | mbGo (entry : List Byte)
  /-- Class 11: LEASE, ATTACH, DETACH and NEGOTIATE (18, 19 R408–R411), by `Mailbox` code. -/
  | mbCmd (fn what : Nat) (args : List Nat) (cmd : Option CmdRef)
  /-- Class 12: the epoch boundary (11 R262). -/
  | epoch (n : Nat)
  /-- Class 12: REC_CTL FREEZE and UNFREEZE (24 R520). -/
  | recFreeze (cmd : Option CmdRef)
  | recThaw (cmd : Option CmdRef)
  | recClear (cmd : Option CmdRef)
deriving DecidableEq, Repr

/-- An event: class (R34), the slice it names (none for the system tag or no slice, R35), its source's number (00 the list of
R18), and what it says. -/
structure Ev where
  cls : Nat
  sl : Option Nat
  src : Nat
  body : EvBody
deriving DecidableEq, Repr

/-- A decided outcome waiting for its effective tick (R36): the stamp, the tick at which it takes effect, the event, the decision's numbers (the grains granted,
the victim chosen, …), and the events that arose from it in its decision and carry the next stamp (R558). -/
structure Eff where
  stamp : Nat
  due : Nat
  ev : Ev
  nums : List Nat
  raised : List Ev
deriving DecidableEq, Repr

/-- Alignment states (R43). -/
inductive AlignSt | unaligned | acquiring | aligned | lost
deriving DecidableEq, Repr

/-- The Spindle (02). `started` says that a tick has followed the last reset, `counting` that one has followed the last cold reset. `merged` holds the details of
class 1–4 events behind a sticky overflow flag (R33), `backlog` those of sources waiting for an entry (R33), `carried` class 11 and 12 events of R39, each with
whether it has been counted as submitted, `effs` outcomes before their effective tick.
`offset` is the estimated offset to the root in 1,024ths of a tick, `goodRun` the consecutive exchanges within one tick, `stepped` whether this stay in
ACQUIRING has made its one step, `lastGood` the tick of the last successful exchange, `slew` what slewing has still to correct, `lastSlew` the last slewed tick,
`reqSent` the tick of the last ALIGN request and `reqOut` whether it is unanswered, `keeper` the periods the always-on keeper counted (R45). -/
structure Spn where
  tick : Nat
  started : Bool
  counting : Bool
  queue : List Ev
  merged : List Ev
  backlog : List Ev
  carried : List (Bool × Ev)
  effs : List Eff
  rot : Nat
  align : AlignSt
  offset : Int
  goodRun : Nat
  stepped : Bool
  lastGood : Nat
  slew : Int
  lastSlew : Nat
  reqSent : Nat
  reqOut : Bool
  keeper : Nat
deriving DecidableEq, Repr

/-! ## Event recorder (24) -/

/-- A record of the event recorder (R515) before its bytes are laid out. -/
structure EvrRec where
  rseq : Nat
  cls : Nat
  kind : Nat
  tick : Nat
  slice : Nat
  sub : Nat
  aux : Nat
  boot : Nat
  d : List Nat
deriving DecidableEq, Repr

/-- The event recorder (24): the record SRAM by index, the input queue (R517), and its counters. `frozen` holds the stamp of
the FREEZE in force; `clearing` is true while CLEAR zeroes the SRAM (R521). -/
structure Evr where
  mem : List EvrRec
  inq : List EvrRec
  rseq : Nat
  fulldrop : Nat
  frzdrop : Nat
  qdrop : Nat
  boot : Nat
  frozen : Option Nat
  clearing : Bool
  clearCmd : Option CmdRef
  reading : Nat
deriving DecidableEq, Repr

/-! ## What leaves the block -/

/-- What crosses the block's edge as the effect of a command. -/
inductive OutKind
  | regValue | memIssue | memFill | memDone | memDenied | hostRead | hostWrite | msix | flit | ddl | align | spdm | tdisp | doe | mctp
  | otp | status | record | tap | statement | tile | signal | dropped
deriving DecidableEq, Repr

/-- One thing sent: its kind, its numbers and its bytes. -/
structure Output where
  kind : OutKind
  nums : List Nat
  data : List Byte
deriving DecidableEq, Repr

/-! ## Host functions (17). Function numbers: 0–63 the VFs, 64 PF0. -/

/-- TDISP states of a VF (R380). -/
inductive TdispSt | unlocked | locked | run | error
deriving DecidableEq, Repr

/-- A function (17): its generation (R370) and the tick of its last advance, stale count, MSI-X masks and pending bits by vector (R373), the vectors signalled in the
running tick (R375), its TDISP state and lock nonce (R380), the generation that an FLR out of CONFIG_LOCKED or RUN brings with it (0: none), and whether a slice reset of it or an FLR's own part runs (R376).
`cfg` is the function's configuration space as written (BAR, Memory Space Enable, MSI-X control). -/
structure FnSt where
  gen : Nat
  genAt : Nat
  stale : Nat
  fnMask : Bool
  vecMask : Nat
  pend : Nat
  sig : Nat
  tdisp : TdispSt
  nonce : Nat
  flrGen : Nat
  reset : Bool
  msixTbl : Tbl Nat
  cfg : Tbl Nat
deriving DecidableEq, Repr

/-- A function right after cold or warm reset: GEN 1 (R370), every vector masked. -/
def FnSt.init : FnSt := ⟨1, 0, 0, false, 0xFFFFFFFF, 0, 0, .unlocked, 0, 0, false, [], []⟩

/-- The host function presenter (17). -/
structure Hfp where
  fns : Tbl FnSt
  vfEnable : Bool
  numVfs : Nat
  cfgReady : Bool
  fwReady : Bool
deriving DecidableEq, Repr

/-! ## Mailbox (18) -/

/-- Where an executing mailbox command stands: held back by BARRIER (R399), its structure in host memory being read (R405), ready for its
opcode's own command, under way. -/
inductive CmdStage | barrier | fetching | ready | running
deriving DecidableEq, Repr

/-- Phases of a command's record in the protected ledger (21 R455); `none` before its component has begun it. -/
inductive LedgerSt | none | started | committed | replayed
deriving DecidableEq, Repr

/-- A mailbox command that holds an execution place (R399): its reference, header fields, its 64 bytes and the structure read for it, where it
stands, its ledger phase, and once it has ended its completion. `feat` is the FEAT in force for it (STRICT_ORDER its bit 0), `interim` an interim
completion owed and `interimSent` one written (R403), `lost` a completion its stopped ring discards (R384). -/
structure ExecCmd where
  ref : CmdRef
  tag : Nat
  slice : Nat
  pver : Nat
  feat : Nat
  stage : CmdStage
  ledger : LedgerSt
  done : Bool
  status : Nat
  detail : Nat
  result : List Byte
  interim : Bool
  interimSent : Bool
  interimDetail : Nat
  replayed : Bool
  lost : Bool
  barrier : Bool
  stamp : Nat
  entry : List Byte
  data : List Byte
deriving DecidableEq, Repr

/-- A function's mailbox (18). Ring places are counts that never wrap: `tail` submitted, `head` read, `cqTail` written, `cqSeen` consumed.
`on`, `depth`, `sq`, `cq` are the rings as enabled (R384), `stamp` the GEN they carry; `marks` says from which entry on a tail write of
which stamp submitted. `major` and `feat` hold from submissions stamped after `negAt`, the old ones before (R393). `ended` says that a
lease has ended since the last GEN advance (R396), `orphan` PF0's orphan mode (R398). -/
structure Mbx where
  on : Bool
  depth : Nat
  sq : Nat
  cq : Nat
  stamp : Nat
  tail : Nat
  head : Nat
  cqTail : Nat
  cqSeen : Nat
  marks : List (Nat × Nat)
  reading : Bool
  lease : Bool
  leaseAt : Nat
  leaseLen : Nat
  ended : Bool
  major : Nat
  feat : Nat
  oldMajor : Nat
  oldFeat : Nat
  negAt : Nat
  exec : List ExecCmd
  nextSeq : Nat
  directWait : Bool
  orphan : Bool
deriving DecidableEq, Repr

/-- A mailbox never used: major 1, no features (R393). -/
def Mbx.init : Mbx := ⟨false, 0, 0, 0, 1, 0, 0, 0, 0, [], false, false, 0, 0, false, 1, 0, 1, 0, 0, [], 0, false, false⟩

/-! ## Dispatch assist (10) -/

/-- KIND of a hardware queue (R223). -/
inductive QKind | task | fold | dma
deriving DecidableEq, Repr

/-- A hardware queue (R223–R228, R246). Ring places are counts that never wrap; the entry is the count modulo DEPTH.
`turn` is the next entry to reach its turn, `rel` the release point, `tail` the admitted tail; `closed` the completed or
cancelled entries past the release point. `marks` says for each doorbell from which entry it admitted, its place in the order of
class 11 decisions (R175) and the JGEN then in force. `fetched` is the descriptor at its turn once read from the ring (R227). `stopped` marks a queue whose GEN stamp is old (R371), `dying` one being destroyed. `joinHeld` holds the turn
for a JOIN (R227). `waitPods`, `waitFdid` and `podFail` say what a fold descriptor at its turn waits for (R204).
`ranOn` lists the clusters that ran its tasks, the latest first (R235). `owed` counts the descriptors of carried doorbells that are submitted and not
yet decided (02 R39; log 49). -/
structure Queue where
  kind : QKind
  depth : Nat
  prio : Nat
  preemptTask : Bool
  sqAddr : Nat
  cqAddr : Nat
  vector : Nat
  gen : Nat
  jgen : Nat
  tail : Nat
  turn : Nat
  rel : Nat
  closed : List Nat
  cqTail : Nat
  cqSeen : Nat
  submitted : Nat
  admitted : Nat
  refused : Nat
  completed : Nat
  cancelled : Nat
  dbst : Nat
  baddb : Bool
  marks : List (Nat × Nat × Nat)
  reading : Bool
  fetched : Option (List Byte)
  suspended : Bool
  stopped : Bool
  dying : Bool
  destroy : List CmdRef
  suspendCmds : List CmdRef
  joinHeld : Bool
  waitPods : List Nat
  waitFdid : Option Nat
  podFail : Nat
  ranOn : List Nat
  owed : Nat
deriving DecidableEq, Repr

/-- A resident group of a cluster (R236), most recently used first in its list. -/
structure Group where
  keys : List Nat
  mib : Nat
deriving DecidableEq, Repr

/-- Where a RUN task stands (R233–R243): waiting for its conditions, ready, running, saving, saved, restoring. -/
inductive TaskSt | waiting | ready | running | saving | saved | restoring
deriving DecidableEq, Repr

/-- A RUN task past its turn. `cluster` is the one it runs on or last ran on; `saves` counts its saves (R232); `slot` is its save slot while
an image is held, `savedAt` the tick its save started and `groups` the resident groups in the image (R241); `drain` marks a commit's
drain save (R84), `asked` a pre-emption request on its way (R239), `failed` a WFDID that ended with CHECK_FAILED (R237). -/
structure Task where
  sl : Nat
  queue : Nat
  jgen : Nat
  entry : Nat
  desc : List Byte
  st : TaskSt
  cluster : Nat
  placedAt : Nat
  saves : Nat
  slot : Nat
  savedAt : Nat
  groups : List Group
  drain : Bool
  asked : Bool
  failed : Bool
deriving DecidableEq, Repr

/-- A DMA transfer in progress (R231): its host access, the bytes moved, the status an error has given it, and its device
accesses on their way, each with the bytes it moves. -/
structure Dma where
  sl : Nat
  queue : Nat
  jgen : Nat
  entry : Nat
  desc : List Byte
  acc : Nat
  moved : Nat
  status : Option Nat
  ids : List (Nat × Nat)
deriving DecidableEq, Repr

/-- A completion waiting to be written to its queue's ring (R228). -/
structure QCpl where
  sl : Nat
  queue : Nat
  entry : Nat
  irq : Bool
  taskId : Nat
  data : List Byte
deriving DecidableEq, Repr

/-- A JOIN in its slice's admission queue (R244), since the tick it was first deferred (0: it has not been); once granted, its grains are
being written to GLIST. -/
structure JoinQ where
  sl : Nat
  queue : Nat
  entry : Nat
  desc : List Byte
  since : Nat
  grains : List Nat
  granted : Bool
deriving DecidableEq, Repr

/-- A cluster (R234–R243): its owner (0xFF none), the resident groups, whether it is in the cleared state (R85), whether a departing
commit holds it from placement (R83), out of service (22 R473), and the tick it became idle after a paced save (R242). -/
structure Cluster where
  owner : Nat
  groups : List Group
  cleared : Bool
  departing : Bool
  oos : Bool
  promised : Option (Nat × Nat)
  notBefore : Nat
deriving DecidableEq, Repr

/-- A cluster no slice owns is in the cleared state (R85). -/
def Cluster.init : Cluster := ⟨0xFF, [], true, false, false, none, 0⟩

/-- The Dispatch assist (10). Queues and sync counters are keyed 4,096·slice + local queue and 256·slice + counter;
`last` is the queue last given a cluster, keyed 4·slice + class (R234); `refusals` and `lastRef` the refusals since a slice's last REFUSALS record and its tick (R226). -/
structure Dpa where
  queues : Tbl (Option Queue)
  tasks : List Task
  dmas : List Dma
  cpls : List QCpl
  joins : List JoinQ
  sync : Tbl Nat
  clusters : Tbl Cluster
  last : Tbl Nat
  refusals : Tbl Nat
  lastRef : Tbl Nat
  rot : Nat
deriving DecidableEq, Repr

/-! ## Pods (09) -/

/-- RES of a pod-table entry (R197). -/
inductive PodRes | absent | fetching | t1 | t0 | pinned
deriving DecidableEq, Repr

/-- LIFE of a pod-table entry (R197). -/
inductive PodLife | none | stepping | frozen | retired
deriving DecidableEq, Repr

/-- A target of a layer record (R191). -/
structure PodTarget where
  firstTix : Nat
  trows : Nat
  tcols : Nat
  foff : Nat
deriving DecidableEq, Repr

/-- A layer record (R191). -/
structure PodLayer where
  layerNo : Nat
  rank : Nat
  xexp : Bool
  alpha : Nat
  targets : List PodTarget
deriving DecidableEq, Repr

/-- A pod-table entry (R197), the pod's contents as they stand in its slice's pod space (factors as BF16 bit patterns, θ, m, v, P1
and P2 as binary32 bit patterns, R193), its runs (first unit and units) in the pod space, its shelf units, and what the PCM keeps:
when it was last used (R208), whether it is to be pinned again (R209, R210), and whether it was rebased since its last put (R208). `modes` are the FMODE
values that descriptors admitted before a POD_SET_MODE still have: (the place in admission order at which the next one took over, value), R214. -/
structure Pod where
  pid : Nat
  gen : Nat
  savedGen : Nat
  res : PodRes
  life : PodLife
  train : Nat
  unsaved : Bool
  rebased : Bool
  fmode : Nat
  modes : List (Nat × Nat)
  huskAddr : Nat
  huskLen : Nat
  minGen : Nat
  fetched : Bool
  opt : Nat
  baseId : Nat
  rootNo : Nat
  layers : List PodLayer
  factors : List Nat
  theta : List Nat
  mom : List Nat
  var : List Nat
  p1 : Nat
  p2 : Nat
  run : Nat × Nat
  runT : Nat × Nat
  shelf : List Nat
  used : Nat
  pinWant : Bool
deriving DecidableEq, Repr

/-- A pending fetch in a slice's fetch queue (R203). `stage`: 0 queued, 1 its header is here or its run waits for units, 2 its section key
is asked of the vault, 3 its section is on its way, 4 its outcome is decided by the Spindle. `secT` is section T; `thenT` a POD_OPEN
with TRAIN, and `moved` the bytes of its section that its husk grants have let in (R203). -/
structure Fetch where
  sl : Nat
  pod : Nat
  secT : Bool
  stage : Nat
  keyAsked : Nat
  header : List Byte
  bytes : List Byte
  thenT : Bool
  moved : Nat
  cmd : Option CmdRef
deriving DecidableEq, Repr

/-- A POD_PUT or POD_REBASE under way (R199, R205, R213): its place in admission order (R175), and whether it has started. For a put `addr`,
`len` and `gen` are the husk's; for a rebase `gen` holds the new PID. `moved` counts the husk bytes that grants have
let out (R203). -/
structure PodJob where
  sl : Nat
  pod : Nat
  rebase : Bool
  order : Nat
  started : Bool
  addr : Nat
  len : Nat
  gen : Nat
  moved : Nat
  cmd : Option CmdRef
deriving DecidableEq, Repr

/-- A POD_EVICT or POD_PIN that waits, an EXPERT_CLAIM that waits for its pod's fetch, or a promotion that waits for shelf evictions (R207–R209, R438): `what`
0 evict, 1 pin, 2 expert claim, 3 promotion. -/
structure PodWait where
  sl : Nat
  pod : Nat
  what : Nat
  layer : Nat
  spare : Nat
  prio : Nat
  seq : Nat
  cmd : Option CmdRef
deriving DecidableEq, Repr

/-- The pod cache manager (09). Pods are keyed slice·2^32 + handle; slots slice·256 + slot; experts (slice·65,536 + layer)·16 + expert;
`roots` holds each pod root's 256 bits, keyed 2·slice + root; `promos` the promotions on their way; `clock` orders uses; `xfer` holds, by
pod, the accesses of a promotion on its way. -/
structure Pcm where
  pods : Tbl (Option Pod)
  fetches : List Fetch
  jobs : List PodJob
  waits : List PodWait
  promos : List (Nat × Nat)
  slots : Tbl (Option Nat)
  experts : Tbl (Option Nat)
  roots : Tbl (Option Nat)
  clock : Nat
  xfer : Tbl (List Nat)
deriving DecidableEq, Repr

/-! ## Fabric ports and transport (13, 14) -/

/-- States of a link. -/
inductive LinkSt | down | training | ready | up | degrading | off
deriving DecidableEq, Repr

/-- A fabric link (R283–R297, R310–R316), keyed 4·port + link. `lanes` is (first lane, count) in use; masks are of failed lanes. `keyTx` and `keyRx` are the
session key and salt of each direction, 36 bytes, `keyPrev` those of the old receive session while `oldKey` keeps it (R315), `keyCf` the confirmation key; an
empty one stands for the all-zero key. `gap` says that a flit was discarded and `gapTold` that RETRY has been sent for it (R310). -/
structure Link where
  st : LinkSt
  gen2 : Bool
  lane0 : Nat
  lanes : Nat
  reason : Nat
  fast : Bool
  reversed : Bool
  tfail : Nat
  ownMask : Nat
  peerMask : Nat
  trainAt : Nat
  failAt : Nat
  full : Bool
  fps : List Nat
  lastRx : Nat
  silent : Bool
  peerState : Nat
  peerFp : Nat
  peerGen2 : Bool
  peerWidth : Nat
  ack : Bool
  session : Nat
  keysel : Bool
  rekey : Nat
  txCtr : Nat
  rxCtr : Nat
  keyed : Bool
  oldKey : Bool
  keyTx : List Byte
  keyRx : List Byte
  keyPrev : List Byte
  keyCf : List Byte
  nonceOwn : Nat
  noncePeer : Nat
  keyAt : Nat
  txSeq : Nat
  rxSeq : Nat
  acked : Nat
  replay : List Output
  gap : Bool
  gapTold : Bool
  gcmBad : Nat
  wasUp : Bool
deriving DecidableEq, Repr

/-- A link after reset. -/
def Link.init : Link := ⟨.down, false, 0, 0, 0, false, false, 0, 0, 0, 0, 0, false, [], 0, false, 0, 0, false, 0, false,
  0, false, 0, 0, 0, false, false, [], [], [], [], 0, 0, 0, 0, 0, 0, [], false, false, 0, false⟩

/-- States of a pair's bypass (R299). -/
inductive BypSt | closed | waitAck | opened | closing
deriving DecidableEq, Repr

/-- A fabric request of this package for its partner (R307): its slice, link, tag, operation (1 RD, 2 WR), VC (R305), target and bytes; `sent` once it has left,
when it awaits its answer. -/
structure FabOut where
  sl : Nat
  port : Nat
  link : Nat
  rtag : Nat
  op : Nat
  vc : Nat
  addr : Nat
  len : Nat
  data : List Byte
  sent : Bool
deriving DecidableEq, Repr

/-- A fabric request being served for a partner (R307): its memory request's id, the slice, where it came in, what is wanted, the lines still
to come back, the lines read by address, and the error the answer carries (0 none, 1 DENIED, 2 POISONED, 3 NO_SLICE, 4 ABORTED). -/
structure FabIn where
  id : Nat
  sl : Nat
  fslice : Nat
  port : Nat
  link : Nat
  vc : Nat
  rtag : Nat
  write : Bool
  addr : Nat
  len : Nat
  left : Nat
  got : Tbl (List Byte)
  bad : Nat
  slots : Nat
deriving DecidableEq, Repr

/-- The fabric port controllers (13, 14). `width` is the width setting each port runs at; `ins` the requests being served; `byp` holds each pair's state and the tick CLOSING was first sent; `abortAt` the abort tick
a slice holds (R319); `admitted` the ports admitted (R292); `entries` the partner's holder entries by link and FSLICE_ID (R308); `meter` what a slice has sent on a link above its
share (11 R265), keyed 64·(4·port + link) + slice. -/
structure Fpc where
  links : Tbl Link
  width : Tbl Nat
  ins : List FabIn
  byp : Tbl (BypSt × Nat)
  admitted : List Nat
  abortAt : Tbl (Option Nat)
  out : List FabOut
  entries : Tbl (List (Nat × Nat × Nat))
  meter : Tbl Nat
  firstCommit : Bool
deriving DecidableEq, Repr

/-! ## Vault (15) -/

/-- A request waiting for or in a signing slot (R343): its owner 0–66, what it asks (0 statement, 1 pod root, 2 slice secret, 3 image bind,
4 an SPDM response, 5 SPDM CHALLENGE …, as Vault.lean numbers them), its numbers and bytes, and the command that waits. `begun` holds the
tick of the slot it runs in. -/
structure VReq where
  owner : Nat
  what : Nat
  nums : List Nat
  data : List Byte
  asked : Nat
  begun : Option Nat
  cmd : Option CmdRef
deriving DecidableEq, Repr

/-- A slice challenge accepted (R345), its response due 160 tk after. -/
structure Chal where
  sl : Nat
  due : Nat
  dst : Nat
  data : List Byte
  cmd : Option CmdRef
deriving DecidableEq, Repr

/-- What a challenge of function `fn` submitted at `stamp` is answered from (19 R422): the secret of its slice `sl`, and VERSION with the statement digest, as in force at the
effective tick of that tail write. -/
structure ChalAt where
  sl : Nat
  fn : Nat
  stamp : Nat
  secret : Option Nat
  shown : List Byte
deriving DecidableEq, Repr

/-- A secure session of an SPDM connection (R337): its identifier, and whether FINISH has completed its handshake. -/
structure Sess where
  id : Nat
  up : Bool
  keys : Nat
deriving DecidableEq, Repr

/-- An SPDM connection of one transport (R337): the step of VCA it has reached (0 none, 1 version, 2 capabilities, 3 algorithms), the version
in use, and its sessions. -/
structure SpdmConn where
  vca : Nat
  ver : Nat
  sess : List Sess
  nextSess : Nat
deriving DecidableEq, Repr

/-- A connection that has begun nothing: version 1.3 (R337), session numbers from 1. -/
def SpdmConn.init : SpdmConn := ⟨0, 0x13, [], 1⟩

/-- An image bind in progress (R351): its image, phase, placement, the container's address and header, the content key
once recovered (its 256 bits), its place in the load order, grains loaded, the image bytes decrypted so far by grain, the places written (65,536 × copy + grain), the status and
DETAIL of a bind that has failed and still has grains to give back, and the command. -/
structure Bind where
  image : Nat
  phase : Nat
  mirrored : Bool
  addr : Nat
  header : List Byte
  key : Nat
  next : Nat
  loaded : Nat
  plain : Tbl (List Byte)
  wrote : List Nat
  failing : Option (Nat × Nat)
  cmd : Option CmdRef
deriving DecidableEq, Repr

/-- The vault (15). `st` is LLY_VLT_STATE.STATE; `nb`, `kmem`, `cdi0`, `cdi1` and `cdi2` the boot nonce N_B, K_MEM and the CDIs of R328, empty while there are none;
`devPub` the DeviceID public key (R327), `aliasCert` and `bindCert` the certificates issued (R335); `known` whether the device identifier and fingerprint can be
read (they survive a warm reset); `secrets` each slice's secret (R345), `chalAt` what the challenges of tail writes not yet worked off are answered from (19 R422); `entropyFail` the tick of the last health-test failure and
`drbgStopped` whether the DRBG gives no output (R324). -/
structure Vlt where
  st : Nat
  lcClass : Nat
  svnVault : Nat
  svnControl : Nat
  nb : List Byte
  kmem : List Byte
  cdi0 : List Byte
  cdi1 : List Byte
  cdi2 : List Byte
  devPub : List Byte
  aliasCert : List Byte
  bindCert : List Byte
  known : Bool
  secrets : Tbl (Option Nat)
  reqs : List VReq
  chals : List Chal
  chalAt : List ChalAt
  conns : Tbl SpdmConn
  binding : Option Bind
  entropyFail : Option Nat
  drbgStopped : Bool
deriving DecidableEq, Repr

/-! ## Lifecycle (16) -/

/-- A lifecycle burn in progress (R359): the target's index, the bits still to burn as (row, bit), and how often the first of them
has failed to verify. -/
structure Burn where
  target : Nat
  bits : List (Nat × Nat)
  tries : Nat
deriving DecidableEq, Repr

/-- The lifecycle controller (16). `otp` is the fuse macro (25 R543), one 64-bit row each; `idx` the index of the effective state (R353),
`lockdown` LOCKDOWN in its place; `gone` holds from an accepted GO to the next reset (R358); `nonce` numbers the draw in LLY_LC_NONCE,
and `nonceWait` says that a fresh one waits for the DRBG (R324); `verify` holds the nonce and authorisation being verified (R365). -/
structure Lc where
  otp : Tbl W64
  idx : Nat
  lockdown : Bool
  torn : Bool
  resume : Bool
  target : Nat
  pending : Bool
  burn : Option Burn
  gone : Bool
  debug : Bool
  nonce : Nat
  nonceWait : Bool
  verify : Option (List Byte)
deriving DecidableEq, Repr

/-! ## Control complex (21) -/

/-- A control core (21 R452): held in reset, running, restarting (held after a restart request) or halted by debug (LLY_CCX_STATE). -/
inductive CoreSt | held | running | restarting | halted
deriving DecidableEq, Repr

/-- A control core: its state, the tick its restart request took effect or it was released, which components have reported RUNNING (R462), the ticks of its
restarts in the last second (R463), its watchdog's last service, and its debug registers (25 R547). -/
structure Core where
  st : CoreSt
  since : Nat
  running : Nat
  starts : List Nat
  dbg : Tbl Nat
deriving DecidableEq, Repr

def Core.init : Core := ⟨.held, 0, 0, [], []⟩

/-- What the control complex keeps of a loaded Ililo image (R456): versions, ledger versions and the three digests. -/
structure FwImage where
  vaultSvn : Nat
  controlSvn : Nat
  ledgerVer : Nat
  ledgerMin : Nat
  digests : List Byte
deriving DecidableEq, Repr

/-- A FW_LOAD or FW_UPDATE reading its image (R457): source, length, header, and the section read next (3: all read). -/
structure FwJob where
  update : Bool
  src : Nat
  len : Nat
  header : List Byte
  sec : Nat
  sections : List (List Byte)
  failed : Option Nat
  cmd : Option CmdRef
deriving DecidableEq, Repr

/-- An entry of the firmware log ring (R464). -/
structure LogE where
  tick : Nat
  core : Nat
  comp : Nat
  group : Nat
  num : Nat
  args : List Byte
deriving DecidableEq, Repr

/-- The control complex (21). `active`, `old` and `standby` are the images of the instruction banks; `phase` is LLY_CCX_HANDOFF.PHASE and
`quiesceAt` its tick S; `log` the log ring by place, `logCount` the entries written in all, `logMask` the groups of LOG_MASK. -/
structure Ccx where
  cores : Tbl Core
  active : Option FwImage
  standby : Option FwImage
  old : Option FwImage
  job : Option FwJob
  phase : Nat
  quiesceAt : Nat
  updCmd : Option CmdRef
  ledgerVer : Nat
  log : Tbl (Option LogE)
  logCount : Nat
  logMask : Nat
deriving DecidableEq, Repr

/-! ## Supplies, resets and low power (23) -/

/-- Retention of a parked slice (R507): engines stopping, clusters in retention, leaving it. -/
inductive ParkSt | none | stopping | retained | leaving
deriving DecidableEq, Repr

/-- What a die has reported in the running epoch (25 R542). -/
structure DieRep where
  count : Nat
  power : Nat
  tmax : Nat
deriving DecidableEq, Repr

/-- The supply, reset and clock controller (23). `hold` is the cause of a supply hold (5 VBAK, 6 trip; 0 none); `backupAt` the tick of
SEC_BACKUP; `warn` VLLY_WARN in force and `low` VDD_LLY below its warning threshold now; `trip` THERM_TRIP since the last boundary,
`tripHot` a trip whose cap 7 stands, `tripAlert` one for which LLY_ALERT_n is asserted, `hotNow` the dies whose last reading was at or above TRIP; `deep` LLY_SRC_STAT.DEEP; `held` the host writes held in DEEP: source, address, value (R510); `carved` and
`cleared` whether the carve-out and the data lines have been initialised, `wantClear` that a warm reset runs the full clear of 05 R118 (R513, R514); `upAt` the tick of
the last reset's end. -/
structure Src where
  hold : Nat
  backupAt : Option Nat
  warn : Bool
  low : Bool
  trip : Bool
  tripHot : Bool
  tripAlert : Bool
  hotNow : List Nat
  dies : Tbl DieRep
  deep : Nat
  deepAt : Nat
  held : List (Nat × Nat × Nat)
  park : Tbl ParkSt
  carved : Bool
  cleared : Bool
  wantClear : Bool
  otpSensed : Bool
  upAt : Nat
deriving DecidableEq, Repr

/-! ## Pins and sideband (25) -/

/-- The block's pins (25 R524–R531, R545–R547): the reset inputs as asserted, a warm reset's cause latched during a burn or in DEEP (0 none), the supplies, the two open-drain outputs,
the TAP's loaded instruction and the hold it imposes, the result of the last DDP frame (72 bits), the sideband target's dynamic
address, and whether it ignores the bus after an HDR entry. -/
structure Pins where
  porst : Bool
  wrst : Bool
  wrstLatched : Nat
  vddLly : Bool
  vddSec : Bool
  vbak : Bool
  haltN : Bool
  alertN : Bool
  tapInstr : Nat
  tapHold : Bool
  ddp : Nat
  i3cAddr : Option Nat
  i3cDeaf : Bool
deriving DecidableEq, Repr

/-! ## The whole state -/

/-- Why a command stops with a fault. No meaning of this model raises one: the spec gives every command an effect in every state
(an event whose condition does not hold finds nothing to act on). Safe. -/
inductive Fault
  /-- Raised by nothing; the type of faults may not be empty of names. Safe. -/
  | none
deriving DecidableEq, Repr

/-- Why a command is refused. -/
inductive Refusal
  /-- A command without a meaning in this model, by its mnemonic. Safe. -/
  | notModelled (mnemonic : String)
deriving DecidableEq, Repr

/-- The state of the block. `pending` is the queue of commands waiting, first in first out; `regs` every register whose value is
not a view of the state below, by register place (RegTable); `draws` numbers the free values drawn so far; `out` what has left the
block, oldest first. -/
structure State where
  pending : List Instr
  regs : Tbl W32
  spn : Spn
  bnd : Bnd
  chk : Chk
  mce : Mce
  bwr : Bwr
  tpl : Tpl
  fld : Fld
  tcu : Tcu
  pcm : Pcm
  dpa : Dpa
  fpc : Fpc
  hfp : Hfp
  mbx : Tbl Mbx
  flt : Flt
  vlt : Vlt
  lc : Lc
  ccx : Ccx
  src : Src
  evr : Evr
  pins : Pins
  draws : Nat
  out : List Output
deriving DecidableEq, Repr

/-! ## Reset -/

/-- The block right after LLY_PORST_n is released at its first power-up (02 R29, 23 R513), before the first tick: every register at its reset value, every
table, queue and buffer empty, the grains blank, KeyID 0 SYSTEM (R116) and not yet brought into use (R117), transit buffers free (R281), GEN 1
(17 R370), every core held (21 R452), the recorder empty with one cold start counted (24 R522). The fuse macro holds no programmed bit, so the
lifecycle state sensed is BLANK (16 R353, R354; log 20). -/
def State.reset : State where
  pending := []
  regs := []
  spn := ⟨0, false, false, [], [], [], [], [], 0, .unaligned, 0, 0, false, 0, 0, 0, 0, false, 0⟩
  bnd := ⟨[], [], [], [], [], [], []⟩
  chk := ⟨Bank.init, Bank.init, 0, 0⟩
  mce := ⟨[(0, ⟨.system, 0xFF, 0, false, [], []⟩)], [], [], [], false, false, false, [], [], 0⟩
  bwr := ⟨[], 0, 0, false, [], [], [], [], [], [], [], [], [], [], [], []⟩
  tpl := ⟨16384, [], false, 0, 0, 0, [], [], 0, 0, []⟩
  fld := ⟨[], 0, [], [], [], [], [], []⟩
  tcu := ⟨[]⟩
  pcm := ⟨[], [], [], [], [], [], [], [], 0, []⟩
  dpa := ⟨[], [], [], [], [], [], [], [], [], [], 0⟩
  fpc := ⟨[], [], [], [], [], [], [], [], [], false⟩
  hfp := ⟨[], false, 0, false, false⟩
  mbx := []
  flt := ⟨[], 0, 0, 0, 0, none, [], [], []⟩
  vlt := ⟨0, 0, 0, 0, [], [], [], [], [], [], [], [], false, [], [], [], [], [], none, none, false⟩
  lc := ⟨[], 0, false, false, false, 0, false, none, false, false, 0, false, none⟩
  ccx := ⟨[], none, none, none, none, 0, 0, none, 0, [], 0, 1⟩
  src := ⟨0, none, false, false, false, false, false, [], [], 0, 0, [], [], false, false, false, true, 0⟩
  evr := ⟨[], [], 0, 0, 0, 0, 1, none, false, none, 0⟩
  pins := ⟨false, false, 0, true, true, true, true, true, 1, false, 0, none, false⟩
  draws := 1
  out := []

end Sys2Proof.Machine
end

