-- ==== Sys2Proof/Machine/Ops.lean ====
section
/-! DEFINITION. The operations every subsystem shares: registers, events, outputs, records, interrupts, host writes under a
function's generation, the grain table, and the completion of mailbox commands. -/

namespace Sys2Proof.Machine

/-! ## Status codes (00 R14) -/

def Status.ok : Nat := 0x00
def Status.okEmpty : Nat := 0x01
def Status.busyInit : Nat := 0x10
def Status.busyRetry : Nat := 0x11
def Status.deferMem : Nat := 0x20
def Status.slotBusy : Nat := 0x21
def Status.queueFull : Nat := 0x22
def Status.badField : Nat := 0x30
def Status.rsvd : Nat := 0x31
def Status.badVersion : Nat := 0x32
def Status.notPermitted : Nat := 0x40
def Status.lcForbids : Nat := 0x41
def Status.keyspace : Nat := 0x50
def Status.podFrozen : Nat := 0x51
def Status.checkFailed : Nat := 0x60
def Status.staleGen : Nat := 0x61
def Status.faulted : Nat := 0x70
def Status.halted : Nat := 0x7F

/-- Totals of 01 R17. -/
def nGrains : Nat := 285696
def stackGrains : Nat := 35712

/-- Source numbers: the list of 01 R18, then those outside the sixteen subsystems. -/
def Sub.ccx : Nat := 1
def Sub.hfp : Nat := 2
def Sub.chk : Nat := 3
def Sub.spn : Nat := 4
def Sub.bnd : Nat := 5
def Sub.mce : Nat := 6
def Sub.tcu : Nat := 7
def Sub.fld : Nat := 8
def Sub.pcm : Nat := 9
def Sub.dpa : Nat := 10
def Sub.bwr : Nat := 11
def Sub.fpc : Nat := 12
def Sub.vlt : Nat := 13
def Sub.flt : Nat := 14
def Sub.src : Nat := 15
def Sub.evr : Nat := 16

/-- PF0's function number. -/
def pf0 : Nat := 64

/-! ## Registers -/

/-- A stored register's value. -/
def State.rd (s : State) (a : Nat) : Nat := (tget regReset s.regs a).toNat

/-- A stored register written whole by hardware. -/
def State.wr (s : State) (a v : Nat) : State := { s with regs := tset regReset s.regs a (BitVec.ofNat 32 v) }

/-- Bits `hi..lo` of a stored register. -/
def State.rf (s : State) (a hi lo : Nat) : Nat := bits (s.rd a) hi lo

/-- Bits `hi..lo` of a stored register written by hardware. -/
def State.wf (s : State) (a hi lo v : Nat) : State := s.wr a (setBits (s.rd a) hi lo v)

/-- A counter that saturates at 0xFFFF_FFFF, counted up by `n`. -/
def State.bump (s : State) (a n : Nat) : State := s.wr a (min 0xFFFFFFFF (s.rd a + n))

/-- Every register at its reset value but for the fields that survive event `l` (00 R13). -/
def State.keepRegs (s : State) (l : Nat) : Tbl W32 := tmap regReset s.regs (fun k w => regKeep l k w)

/-- Something sent across the block's edge. -/
def State.emit (s : State) (k : OutKind) (nums : List Nat) (data : List Byte) : State :=
  { s with out := s.out ++ [⟨k, nums, data⟩] }

/-- A fresh draw number for a free value. -/
def State.drawn (s : State) : State := { s with draws := s.draws + 1 }

/-- The moment `sub` sixteenths of a nanosecond into the running tick. A domain's local view may lag the count by up to one tick (R30); here every view shows
the count itself (DESIGN CHOICE, log 65). -/
def State.now (s : State) (sub : Nat) : Nat := s.spn.tick * 4096 + sub % 4096

/-- Llyna is held in a cold or warm reset (23 R498–R501, 16 R364). One latched during a burn or in DEEP is not in force yet. -/
def State.inReset (s : State) : Bool :=
  s.pins.wrstLatched == 0 && (s.pins.porst || s.pins.wrst || s.pins.tapHold || s.src.hold != 0 || (!s.pins.vddSec && !s.pins.vbak))

/-! ## Events (02 R31–R33) -/

/-- How many entries a source's queue of a class holds (R33). -/
def evDepth (cls : Nat) : Nat := if cls ≤ 4 then 16 else 64

/-- An event placed in its source's queue. A full queue of classes 1–4 merges it behind the sticky flag and shows the class in
LLY_SPN_QOVF; with a full queue of classes 5–12 the source waits, and what it has for these classes waits behind (R32, R33). -/
def State.raise (s : State) (e : Ev) : State :=
  let n := (s.spn.queue.filter (fun x => x.cls == e.cls && x.src == e.src)).length
  let waits := decide (5 ≤ e.cls) && s.spn.backlog.any (fun x => x.src == e.src)
  if n < evDepth e.cls && !waits then { s with spn := { s.spn with queue := s.spn.queue ++ [e] } }
  else if e.cls ≤ 4 then
    { s with spn := { s.spn with merged := s.spn.merged ++ [e] },
             regs := tset regReset s.regs R.spnQovf
               (tget regReset s.regs R.spnQovf ||| BitVec.ofNat 32 (2 ^ (e.cls - 1))) }
  else { s with spn := { s.spn with backlog := s.spn.backlog ++ [e] } }

/-- A fault or report with nothing but its kind, scope and slices. -/
def FaultEv.base (kind scope : Nat) (slices : List Nat) : FaultEv :=
  ⟨kind, scope, slices, 0xFF, 0, 0xFFFF, 0, none, 0, 0, 0, 0, 0, 0, 0, 0, 0⟩

/-- A class 3 event of the Fault manager. -/
def State.raiseFault (s : State) (src : Nat) (sl : Option Nat) (f : FaultEv) : State :=
  s.raise ⟨3, sl, src, .fault f⟩

/-! ## Event recorder (24) -/

/-- A record offered to the recorder: it takes the next RSEQ whatever becomes of it, is dropped by a freeze or a full input queue,
and otherwise waits to be written (R517–R521). During a halt only HALT and SUPPLY records are offered (R519). -/
def State.offer (s : State) (cls kind tick slice sub aux : Nat) (d : List Nat) : State :=
  if s.mce.halted && kind != 0x20 && kind != 0x21 then s else
  let r : EvrRec := ⟨s.evr.rseq, cls, kind, tick, slice, sub, aux, s.evr.boot, d⟩
  let v : Evr := { s.evr with rseq := (s.evr.rseq + 1) % 2 ^ 32 }
  let frz := match s.evr.frozen with
    | none => false
    | some f => if cls = 0 then f + 2 ≤ tick else f < tick
  if (s.evr.clearing || frz) && kind != 0x70 then { s with evr := { v with frzdrop := min 0xFFFFFFFF (v.frzdrop + 1) } }
  else if v.inq.length ≥ 512 then
    let s' := { s with evr := { v with qdrop := min 0xFFFFFFFF (v.qdrop + 1) } }
    if v.qdrop = 0 then
      { s' with regs := tset regReset s'.regs R.irqStat (tget regReset s'.regs R.irqStat ||| BitVec.ofNat 32 (2 ^ 9)) }
    else s'
  else { s with evr := { v with inq := v.inq ++ [r] } }

/-- The record LIFECYCLE (24 R516): a transition to state `d` has completed or failed (`sub` 1, 16 R359), or debug has opened or closed (`sub` 2, 16 R365). -/
def State.lcRecord (s : State) (sub status d : Nat) : State := s.offer 0 0x60 s.spn.tick 0xFF sub status [d]

/-! ## Functions, generations and MSI-X (17) -/

/-- A function's state. -/
def State.fn (s : State) (f : Nat) : FnSt := tget (dflt FnSt.init) s.hfp.fns f

/-- A function's state changed. -/
def State.modFn (s : State) (f : Nat) (g : FnSt → FnSt) : State :=
  { s with hfp := { s.hfp with fns := tmod (dflt FnSt.init) s.hfp.fns f g } }

/-- LLY_HFP_STALE of every function at 0: only a firmware hand-off keeps it (00 R13, 17). -/
def State.clearStale (s : State) : State :=
  { s with hfp := { s.hfp with fns := tmap (dflt FnSt.init) s.hfp.fns (fun _ x => { x with stale := 0 }) } }

/-- Whether a function exists to the host (R366). -/
def State.exists (s : State) (f : Nat) : Bool := f == pf0 || (s.hfp.vfEnable && f < s.hfp.numVfs)

/-- Whether host memory is withheld from a function: absent, or in TDISP state ERROR (R369). -/
def State.withheld (s : State) (f : Nat) : Bool := !s.exists f || (s.fn f).tdisp == .error

/-- One more discarded write of a function (R372). -/
def State.stale (s : State) (f : Nat) : State := s.modFn f (fun x => { x with stale := min 0xFFFFFFFF (x.stale + 1) })

/-- Whether a write stamped `gen` of function `f` may go out (R369, R372). -/
def State.mayWrite (s : State) (f gen : Nat) : Bool := (s.fn f).gen == gen && !s.withheld f

/-- A vector of a function signalled: combined with the other signals of the tick, or discarded with its write (R372, R375). -/
def State.signal (s : State) (f gen vec : Nat) : State :=
  if s.mce.halted then s
  else if s.mayWrite f gen then s.modFn f (fun x => { x with sig := x.sig ||| 2 ^ (vec % 32) })
  else s.stale f

/-- The messages of the tick leave: a masked vector's signal sets its pending bit instead (R375). None leaves in a halt. -/
def State.sendMsix (s : State) : State :=
  if s.mce.halted then { s with hfp := { s.hfp with fns := tmap (dflt FnSt.init) s.hfp.fns (fun _ x => { x with sig := 0 }) } } else
  (tkeys s.hfp.fns (fun _ x => x.sig != 0)).foldl (fun s f =>
    let x := s.fn f
    (maskList x.sig 32).foldl (fun s v =>
      let s := s.modFn f (fun x => { x with sig := x.sig &&& (0xFFFFFFFF ^^^ 2 ^ v) })
      if x.fnMask || bit x.vecMask v then s.modFn f (fun x => { x with pend := x.pend ||| 2 ^ v })
      else s.emit .msix [f, v] []) s) s

/-- A cause bit of LLY_IRQ_STAT set; going from 0 to 1 with its enable it signals its PF0 vector (26 R556, R557).
In a halt only SUPPLY (7) can be set. -/
def State.irq (s : State) (n : Nat) : State :=
  if s.mce.halted && n != 7 then s
  else if bit (s.rd R.irqStat) n then s
  else
    let s' := s.wr R.irqStat (s.rd R.irqStat ||| 2 ^ n)
    if bit (s.rd R.irqEn) n then s'.signal pf0 (s'.fn pf0).gen (s'.rf (R.irqVec + 4 * (n / 4)) (8 * (n % 4) + 4) (8 * (n % 4)))
    else s'

/-- An event of LLY_HFP_EVT signalled on a VF: 0 REFUSE, 1 MBOX, 2 FAULT (17 R374). -/
def State.hfpEvt (s : State) (v k : Nat) : State :=
  let e := s.rd (vfReg v V.hfpEvt)
  if bit e (8 * k + 5) then s.signal v (s.fn v).gen (bits e (8 * k + 4) (8 * k)) else s

/-! ## Slices (03) -/

/-- The definition in effect of a slice. -/
def State.sdef (s : State) (n : Nat) : Option SliceDef := tget (dflt none) s.bnd.defs n

/-- The slices in effect, ascending. -/
def State.slices (s : State) : List SliceDef := s.bnd.defs.filterMap Prod.snd

/-- The slice a VF presents (17 R369). -/
def State.presents (s : State) (v : Nat) : Option Nat := ((s.slices.find? (fun d => d.vf == v))).map SliceDef.slice

/-- The VF that presents a slice. -/
def State.vfOf (s : State) (n : Nat) : Option Nat := (s.sdef n).map SliceDef.vf

/-- The fault manager's record of a slice. -/
def State.fsl (s : State) (n : Nat) : FltSlice := tget (dflt FltSlice.init) s.flt.slices n

/-- The same changed. -/
def State.modFsl (s : State) (n : Nat) (f : FltSlice → FltSlice) : State :=
  { s with flt := { s.flt with slices := tmod (dflt FltSlice.init) s.flt.slices n f } }

/-- A slice in fault handling, held, or under reset (R467, R484, R487); a block reset covers every slice (R490). -/
def State.inFault (s : State) (n : Nat) : Bool := (s.fsl n).phase != .none || s.flt.block != 0

/-- A slice contained: from its containment tick C on (R471, R490, R493). -/
def State.contained (s : State) (n : Nat) : Bool :=
  ((s.fsl n).phase != .none && decide ((s.fsl n).containAt ≤ s.spn.tick)) || (s.flt.block != 0 && decide (s.flt.blockAt ≤ s.spn.tick))

/-! ## Host register writes (26 R549–R552) -/

/-- A wake source (R510): the wake begins, from the step an entry has reached. -/
def State.wakeUp (s : State) : State :=
  if s.src.deep = 1 || s.src.deep = 2 then { s with src := { s.src with deep := 3 } } else s

/-- The block is powered down to DEEP: from the end of the entry to the end of the wake (23 R509, R510). -/
def State.deepDown (s : State) : Bool := decide (2 ≤ s.src.deep) && !bit (s.rd R.audStatus) 8

/-- The fields of a register place that a written 1 clears, as a mask. -/
def w1cMask (a : Nat) : Nat :=
  match rowAt a with
  | some r => ((r.fields.filter (fun f => f.acc == .w1c)).map (fun f => 2 ^ (f.hi + 1) - 2 ^ f.lo)).foldr (· + ·) 0
  | none => 0

/-- The select registers (26 R551). -/
def selects : List Nat := [R.bndGtSel, R.mceKsel, R.mceWsel, R.audSel, R.evrSel]

/-- A dropped write shown in LLY_ID_ACCERR: flag 0 PARTIAL, 1 UNMAPPED, 2 HALT, 3 EARLY (26 R549–R552). -/
def State.accErr (s : State) (flag src a : Nat) : State :=
  let blk := if a / 4096 ≤ 0x14 then a / 4096 else 0x1F
  s.wr R.idAccerr (setBits (setBits (s.rd R.idAccerr ||| 2 ^ flag) 12 8 blk) 16 16 (if src = 1 then 1 else 0))

/-- Places of PF0's window that take writes in a security halt (26 R552), and those of the mailbox that R390 goes on serving (18). -/
def haltTakes (a : Nat) : Bool :=
  selects.contains a || a / 4096 == 0xF || w1cMask a != 0 || a == R.mbxSqTail || a == R.mbxCqHead || a == R.mbxDctl
    || (R.mbxDcmd ≤ a && a < R.mbxDcpl) || (R.mbxDdata ≤ a && a < R.spnTickLo)

/-- A host write held in DEEP to be applied at wake, which it starts (23 R510). -/
def State.holdWrite (s : State) (src a v : Nat) : State :=
  ({ s with src := { s.src with held := s.src.held ++ [(src, a, v)] } }).wakeUp

/-- The effective lifecycle code (R352): indices 0–16 are their own codes, 17 DEV 0x11, 18 PROD 0x12, 19 RMA 0x13, 20 SCRAP 0x14. -/
def State.lcCode (s : State) : Nat := if s.lc.lockdown then 0xFF else s.lc.idx

/-- Whether debug is open (R352, R365). -/
def State.debugOpen (s : State) : Bool :=
  let c := s.lcCode
  s.src.otpSensed && (c == 0 || (decide (c ≤ 15) && c % 2 == 1) || c == 0x13 || (c == 0x11 && s.lc.debug))

/-- Whether a frame may reach place `a` of PF0's window: all of it while debug is open, the lifecycle registers always (16 R364). -/
def State.ddpMay (s : State) (a : Nat) : Bool := s.debugOpen || a / 4096 == 0xF

/-- A read answered (26 R549): source `src`, the place, and the value. -/
def State.answerRead (s : State) (src a v : Nat) : State := s.emit .regValue [src, a, v] []

/-- Whether an access of source `src` to place `a` is served: out of reset, the host's from LLY_HFP_READY.CFG (17 R382, 26 R552), the debug port's as
its frames reach (16 R364). -/
def State.readable (s : State) (src a : Nat) : Bool := !s.inReset && (src != 0 || s.hfp.cfgReady) && (src != 1 || s.ddpMay a)

/-- Whether the block of a place answers and takes writes: before firmware is ready only those of R552's first row do. -/
def State.answers (s : State) (a : Nat) : Bool := s.hfp.fwReady || ([0, 1, 2, 3, 0xF, 0x13] : List Nat).contains (a / 4096)

/-- A write to place `a` of PF0's window by source `src` (0 host, 1 debug port, 2–5 CC0–CC3) as the state of the block takes it: nothing is answered before
LLY_HFP_READY.CFG; the debug port reaches what its frames may (16 R364); a host write wakes from DEEP; EARLY before firmware is ready, HALT in a security halt; in FAILED LLY_CHK_COMMIT.GO and
LLY_SRC_CTL.DEEP_REQ are dropped (26 R552, 17 R382, 23 R510). -/
def State.gated (s : State) (src a v : Nat) (act : State → State) : State :=
  if s.inReset || (src == 0 && !s.hfp.cfgReady) || (src == 1 && !s.ddpMay a) then s
  else if src == 0 && s.deepDown then s.holdWrite src a v
  else
    let s := if src = 0 then s.wakeUp else s
    if !s.answers a then s.accErr 3 src a
    else if s.mce.halted && !haltTakes a then s.accErr 2 src a
    else if s.flt.block = 2 && ((a == R.chkCommit && bit v 2) || (a == R.srcCtl && bit v 1)) then s
    else act s

/-- A write to a place of VF `f`'s window: it arrives where the VF exists, and wakes from DEEP (17 R366, R382, 23 R510). A VF that presents no slice takes
writes only of its mailbox block and LLY_HFP_EVT (R369). -/
def State.gatedVf (s : State) (f off v : Nat) (act : State → State) : State :=
  if s.inReset || !s.hfp.cfgReady || !(decide (f < 64) && s.exists f) then s
  else if s.deepDown then s.holdWrite 0 (vfReg f off) v
  else
    let s := s.wakeUp
    if (s.presents f).isSome || (0x1000 ≤ off && off < 0x2000) || off == V.hfpEvt then act s else s

/-- The same for a function's own register, which lies in PF0's window for PF0. -/
def State.gatedFn (s : State) (f pfPlace vfPlace v : Nat) (act : State → State) : State :=
  if f = pf0 then s.gated 0 pfPlace v act else s.gatedVf f vfPlace v act

/-! ## Grains (03) -/

/-- A grain's active entry. -/
def State.grain (s : State) (g : Nat) : GrainE := tget (dflt GrainE.blank) s.bnd.gt g

/-- A grain's entry changed in both copies of the table (R54). -/
def State.modGrain (s : State) (g : Nat) (f : GrainE → GrainE) : State :=
  { s with bnd := { s.bnd with gt := tmod (dflt GrainE.blank) s.bnd.gt g f } }

def GState.code : GState → Nat
  | .blank => 0 | .owned => 1 | .dirty => 2 | .scrubbing => 3 | .poison => 4

def GAttr.code : GAttr → Nat
  | .priv => 0 | .pod => 1 | .save => 2 | .sharedRo => 3 | .baseSealed => 4

/-- ATTR from its code; codes 5–7 are never held (R54). -/
def GAttr.ofCode (n : Nat) : GAttr :=
  match n with
  | 1 => .pod | 2 => .save | 3 => .sharedRo | 4 => .baseSealed | _ => .priv

/-- The 64 bits of an entry (R54). -/
def GrainE.pack (e : GrainE) : Nat :=
  e.st.code + (if e.inUse then 8 else 0) + 16 * e.attr.code + (if e.sealed then 128 else 0) + 2 ^ 8 * e.owner
    + 2 ^ 16 * e.keyid + 2 ^ 32 * e.shgrp + 2 ^ 38 * e.image + 2 ^ 40 * e.copy + 2 ^ 48 * e.igrain

/-- The stack of a grain (R50). -/
def stackOf (g : Nat) : Nat := g / stackGrains

/-- The grains whose entries satisfy `p`, ascending; blanks are unlisted and not among them. -/
def State.grainsWhere (s : State) (p : GrainE → Bool) : List Nat := tkeys s.bnd.gt (fun _ e => p e)

/-- OWNED grains of a slice with an attribute. -/
def State.ownedOf (s : State) (n : Nat) (a : GAttr) : List Nat :=
  s.grainsWhere (fun e => e.st == .owned && e.owner == n && e.attr == a)

/-- The five counts of the grain audit (R55): free, blank, dirty, owned, poisoned. -/
def State.grainCounts (s : State) : List Nat :=
  let n := fun (p : GrainE → Bool) => (s.grainsWhere p).length
  [n (fun e => e.st == .owned && !e.inUse),
   nGrains - (s.grainsWhere (fun e => e.st != .blank)).length,
   n (fun e => e.st == .dirty || e.st == .scrubbing),
   n (fun e => e.st == .owned && e.inUse),
   n (fun e => e.st == .poison)]

/-- The statement version of a slice advanced by one for the effective tick `t`, once for events of one stamp (R71). -/
def State.advanceStmt (s : State) (n t : Nat) : State :=
  let v := tget (dflt ⟨0, 0⟩) s.bnd.vers n
  if (s.sdef n).isSome && v.tick != t then
    { s with bnd := { s.bnd with vers := tset (dflt ⟨0, 0⟩) s.bnd.vers n ⟨v.ver + 1, t⟩ } }
  else s

/-- An image's record. -/
def State.image (s : State) (i : Nat) : ImageE := tget (dflt ImageE.init) s.bnd.images i

/-- The grain of copy `c` of an image at IGRAIN `k`. -/
def ImageE.at (im : ImageE) (c k : Nat) : Option Nat := if c = 0 then im.grains0[k]? else im.grains1[k]?

/-- Whether copy `c` of an image has no POISON grain. -/
def State.copySound (s : State) (im : ImageE) (c : Nat) : Bool :=
  (if c = 0 then im.grains0 else im.grains1).all (fun g => (s.grain g).st != .poison)

/-- The copy of an image chosen for a slice with preference `pref`, none where no copy is sound (R66). -/
def State.copyFor (s : State) (im : ImageE) (pref : Nat) : Option Nat :=
  if !im.mirrored then some 0
  else if s.copySound im pref then some pref
  else if s.copySound im (1 - pref) then some (1 - pref)
  else none

/-- The copy a statement shows in use: with no sound copy the one that was sound last, so that the statement changes with no slice's move (DEDUCED, log 66: R67 moves
readers only to another copy, and R73 lets the digest change only with VERSION). -/
def State.copyShown (s : State) (im : ImageE) (pref : Nat) : Nat := (s.copyFor im pref).getD im.lastCopy

/-! ## Keys (05 R116, R117) -/

/-- A KeyID's record. -/
def State.key (s : State) (k : Nat) : KeyE := tget (dflt KeyE.init) s.mce.keys k

/-- A KeyID's record changed. -/
def State.modKey (s : State) (k : Nat) (f : KeyE → KeyE) : State :=
  { s with mce := { s.mce with keys := tmod (dflt KeyE.init) s.mce.keys k f } }

/-- The key set K1 ‖ K2 ‖ K3 of a KeyID under a derivation index (15 R328). -/
def State.keySet (s : State) (k dix : Nat) : List Byte := kdf s.vlt.kmem "LLY-MEM" (leBytes 2 k ++ leBytes 2 dix) 768

/-- The marker key K_M (15 R328, 05 R103). -/
def State.markKey (s : State) : List Byte := kdf s.vlt.kmem "LLY-MARK" [] 256

/-- The key set a table entry holds, its two shares joined (15 R332). -/
def KeyE.keys (e : KeyE) : List Byte := xorBytes e.share e.mask

/-- The derivation index of a KeyID raised, which the vault does before it derives the KeyID's set (R117, 15 R330). -/
def State.raiseIndex (s : State) (k : Nat) : State := s.modKey k (fun e => { e with dix := e.dix + 1 })

/-- The vault loads the key set of a KeyID into the key tables, under a fresh mask (R100, 15 R332). -/
def State.loadKey (s : State) (k : Nat) : State :=
  let m := slice (Config.random s.draws 96) 0 96
  (s.modKey k (fun e => { e with live := true, share := xorBytes (s.keySet k e.dix) m, mask := m })).drawn

/-- A KeyID brought into use by `owner` under its present index. -/
def State.useKey (s : State) (k owner : Nat) (st : KeySt) : State :=
  (s.modKey k (fun e => { e with st := st, owner := owner })).loadKey k

/-- A re-mask (15 R332): an entry's shares under new masks, expanded from the round's seed by AES-256 in counter mode. -/
def KeyE.remask (seed : List Byte) (k : Nat) (e : KeyE) : KeyE :=
  let m := slice ((List.range 6).flatMap (fun i => aes seed (beBytes 16 (6 * k + i)))) 0 96
  if e.live then { e with share := xorBytes e.share m, mask := xorBytes e.mask m } else e

/-- A table entry zeroised (R100, R121). -/
def KeyE.dead (e : KeyE) : KeyE := { e with live := false, share := [], mask := [] }

/-! ## Mailbox completions (18) -/

/-- A function's mailbox. -/
def State.mb (s : State) (f : Nat) : Mbx := tget (dflt Mbx.init) s.mbx f

/-- The same changed. -/
def State.modMb (s : State) (f : Nat) (g : Mbx → Mbx) : State :=
  { s with mbx := tmod (dflt Mbx.init) s.mbx f g }

/-- A mailbox command ends: its completion waits to be written (R399). The RESULT is zero for every status but OK, OK_EMPTY and an
interim DEFER_MEM (R388). -/
def State.finish (s : State) (c : Option CmdRef) (status detail : Nat) (result : List Byte) : State :=
  match c with
  | none => s
  | some r =>
    let upd : ExecCmd → ExecCmd := fun e => { e with
      done := true, status := status, detail := detail,
      result := if status ≤ 1 then slice result 0 16 else List.replicate 16 0 }
    s.modMb r.fn (fun m => { m with exec := lmod m.exec (fun e => e.ref == r && !e.done) upd })

/-- A held command is given DEFER_MEM: an interim completion where INTERIM is granted (R403). -/
def State.deferCmd (s : State) (c : Option CmdRef) (detail : Nat) : State :=
  match c with
  | none => s
  | some r =>
    let upd : ExecCmd → ExecCmd := fun e => { e with interim := true, interimDetail := detail }
    s.modMb r.fn (fun m => { m with exec := lmod m.exec (fun e => e.ref == r && !e.done && bit m.feat 1) upd })

/-! ## Clusters and queues (10) -/

/-- A cluster's record. -/
def State.cluster (s : State) (c : Nat) : Cluster := tget (dflt Cluster.init) s.dpa.clusters c

/-- The same changed. -/
def State.modCluster (s : State) (c : Nat) (f : Cluster → Cluster) : State :=
  { s with dpa := { s.dpa with clusters := tmod (dflt Cluster.init) s.dpa.clusters c f } }

/-- The key of a slice's local queue. -/
def qkey (sl q : Nat) : Nat := 4096 * sl + q

/-- A slice's queue. -/
def State.queue (s : State) (sl q : Nat) : Option Queue := tget (dflt none) s.dpa.queues (qkey sl q)

/-- The same changed, where it exists. -/
def State.modQueue (s : State) (sl q : Nat) (f : Queue → Queue) : State :=
  { s with dpa := { s.dpa with queues := tmod (dflt none) s.dpa.queues (qkey sl q) (Option.map f) } }

/-- A link's record. -/
def State.link (s : State) (p l : Nat) : Link := tget (dflt Link.init) s.fpc.links (4 * p + l)

/-- The same changed. -/
def State.modLink (s : State) (p l : Nat) (f : Link → Link) : State :=
  { s with fpc := { s.fpc with links := tmod (dflt Link.init) s.fpc.links (4 * p + l) f } }

/-- CRC-32C of one more byte, on the reflected register (06 R127). -/
def crcByte (c : Nat) (b : Byte) : Nat :=
  (List.range 8).foldl (fun c _ => if c % 2 = 1 then (c / 2) ^^^ 0x82F63B78 else c / 2) (c ^^^ b.toNat)

/-- CRC-32C (06 R127). -/
def crc32c (bs : List Byte) : Nat := bs.foldl crcByte 0xFFFFFFFF ^^^ 0xFFFFFFFF

end Sys2Proof.Machine
end

