-- ==== Sys2Proof/Machine/Bandwidth.lean ====
section
/-! DEFINITION. Placements, rates, tokens, epochs and lending of the bandwidth regulator (11). -/

namespace Sys2Proof.Machine

/-- Stacks that hold a grain of any copy of an image a slice may read (R252). -/
def State.imageStacks (s : State) (grant : Nat) : Nat :=
  (maskList grant 4).foldl (fun m i =>
    ((s.image i).grains0 ++ (s.image i).grains1).foldl (fun m g => m ||| 2 ^ stackOf g) m) 0

/-- The reach set of a slice (R252). -/
def State.reach (s : State) (d : SliceDef) : Nat := d.stackSet ||| s.imageStacks d.imageGrant

/-- A slice's placements on the eight stacks from its weights word (R252). -/
def placements (memRes reach weights : Nat) : List Nat :=
  let w := fun k => if weights = 0 then (if bit reach k then 1 else 0) else bits weights (4 * k + 3) (4 * k)
  let tot := lsum ((List.range 8).map w)
  if tot = 0 then List.replicate 8 0 else
  let base := (List.range 8).map (fun k => memRes * w k / tot)
  let rest := memRes - lsum base
  let takers := (List.range 8).filter (fun k => w k != 0)
  let m := takers.length
  (List.range 8).map (fun k =>
    let i := takers.idxOf k
    base.getD k 0 + (if w k = 0 then 0 else rest / m + (if i < rest % m then 1 else 0)))

/-- The placement of a slice in effect on stack `k` (R252), in GB/s. -/
def State.placed (s : State) (n k : Nat) : Nat :=
  match s.sdef n with
  | some d => (placements d.memRes (s.reach d) (s.rd (R.bwrPlace + 4 * n))).getD k 0
  | none => 0

/-- What is placed on stack `k` by every slice (R252). -/
def State.placedAll (s : State) (k : Nat) : Nat := lsum (s.slices.map (fun d => s.placed d.slice k))

/-- The pre-emption reserve in GB/s (R253). -/
def State.prereserve (s : State) : Nat := s.rf R.bwrPreres 4 0 * 192

/-- Bandwidth of stack `k` neither placed nor in the reserve, in GB/s (R254). -/
def State.unreserved (s : State) (k : Nat) : Nat := 2400 - s.placedAll k - s.prereserve / 8

/-- The timing mode in effect: LEND (04 R98). -/
def State.lend (s : State) : Bool := bit (s.rd R.chkMode) 0

/-- Key of resource `x` and slice `n` in the lending tables. -/
def lendKey (x n : Nat) : Nat := 64 * x + n

/-- What a slice lends on a resource, eighths of a stack or port and whole positions of a unit or of the husk transfer, and its borrowed level there (R265). -/
def State.lentOf (s : State) (x n : Nat) : Nat := tget (dflt 0) s.bwr.lent (lendKey x n)
def State.borrowOf (s : State) (x n : Nat) : Nat :=
  if (tget (dflt []) s.bwr.borrowOn n).contains x then tget (dflt 0) s.bwr.grant n else 0

/-- Whether a slice's re-key walk still runs on stack `k` (05 R120). -/
def State.walking (s : State) (n k : Nat) : Bool :=
  match tget (dflt none) s.mce.walks n with
  | some w => !(tget (dflt []) w.left k).isEmpty
  | none => false

/-- A slice's rate on stack `k` in 1/512 GB/s: what it has not lent of its placement, or of three quarters of it while its walk runs there, plus what it
borrows, scaled by the cap factor (R255, R263, R265, 05 R120). -/
def State.rate512 (s : State) (n k : Nat) : Nat :=
  let q := if s.walking n k then 6 else 8
  s.placed n k * (q * (8 - s.lentOf k n) + 8 * s.borrowOf k n) * (8 - s.bwr.cap)

/-- The walk's quarter of a placement, one tick of it, in 1/512 byte (05 R120, R263). -/
def State.walkTick512 (s : State) (n k : Nat) : Nat := 256 * (s.placed n k * 16 * (8 - s.bwr.cap))

/-- One tick of a rate, in 1/512 byte: the depth of its bucket (R255). -/
def State.depth (s : State) (n k : Nat) : Nat := 256 * s.rate512 n k

/-- The charge of one line access or tag-line access (R255). -/
def lineCharge : Nat := 256 * 512

/-- Key of a regulator. -/
def regKey (n k : Nat) : Nat := 8 * n + k

/-- A regulator that has held nothing. -/
def Regul.init : Regul := ⟨0, 0, 0, 0⟩

/-- A regulator. -/
def State.regul (s : State) (n k : Nat) : Regul := tget (dflt Regul.init) s.bwr.regs (regKey n k)

/-- One tick's filling of a bucket of the given depth: tokens above the depth are lost (R255). -/
def Regul.fill (r : Regul) (depth : Nat) : Regul :=
  let b := r.bucket + depth
  ⟨min b depth, r.filled + depth, r.charged, r.lost + (b - min b depth)⟩

/-- A charge taken from a bucket; a tag-line charge that goes below leaves it empty of what it has. -/
def Regul.charge (r : Regul) (c : Nat) : Regul := ⟨r.bucket - min c r.bucket, r.filled, r.charged + min c r.bucket, r.lost⟩

/-- A regulator changed. -/
def State.modRegul (s : State) (n k : Nat) (f : Regul → Regul) : State :=
  { s with bwr := { s.bwr with regs := tmod (dflt Regul.init) s.bwr.regs (regKey n k) f } }

/-- TOKEN_FILL (R255): every regulator of every slice in effect fills for one tick. -/
def State.fillTokens (s : State) : State :=
  s.slices.foldl (fun s d => (List.range 8).foldl (fun s k =>
    if s.placed d.slice k = 0 then s
    else s.modRegul d.slice k (fun r => r.fill (s.depth d.slice k))) s) s

/-- What a slice gathers in the epoch, changed. -/
def State.modAcc (s : State) (n : Nat) (f : EpochAcc → EpochAcc) : State :=
  { s with bwr := { s.bwr with acc := tmod (dflt EpochAcc.init) s.bwr.acc n f } }

/-- A resource claimed (R265). -/
def EpochAcc.claim (a : EpochAcc) (x : Nat) : EpochAcc :=
  if a.claims.contains x then a else { a with claims := a.claims ++ [x] }

/-- The waiting requests of the tick count as ticks waited and claims (R264, R265). -/
def State.noteWaits (s : State) : State :=
  s.slices.foldl (fun s d =>
    let ws := s.mce.reqs.filter (fun r => r.phase == .waiting && r.tag == d.slice)
    if ws.isEmpty then s
    else s.modAcc d.slice (fun a => ws.foldl (fun a r => a.claim (stackOf r.grain)) { a with waitTicks := a.waitTicks + 1 })) s

/-- T_eff of a slice in sixteenths of a nanosecond; 0 with no target (R260). -/
def SliceDef.teff (d : SliceDef) : Nat := if d.latTarget = 0 then 0 else max (d.latTarget * 160) 10240

/-- The ramp level of a waiting request (R256). -/
def rampLevel (teff age : Nat) : Nat :=
  if teff = 0 then 0
  else if teff ≤ 10240 then 7
  else min 7 (8 * age / (teff - 10240))

/-- Issue order of requester classes (R256): CD, FLD, FAB, PF, HD, SAV; system classes behind. -/
def classOrder : RClass → Nat
  | .cd => 0 | .fld => 1 | .fab => 2 | .pf => 3 | .hd => 4 | .sav => 5 | .cc => 6 | .scr => 7 | .img => 8

/-- Whether `a` goes before `b` at a regulator (R256). -/
def issueBefore (teff now : Nat) (a b : MemReq) : Bool :=
  let la := rampLevel teff (now - a.arrived)
  let lb := rampLevel teff (now - b.arrived)
  if la != lb then decide (lb < la)
  else if classOrder a.cls != classOrder b.cls then decide (classOrder a.cls < classOrder b.cls)
  else decide (a.arrived < b.arrived)

/-- The request a regulator issues next (R256); list order stands for arrival order within one moment. -/
def nextIssue (teff now : Nat) (l : List MemReq) : Option MemReq :=
  l.foldl (fun m r => match m with
    | none => some r
    | some b => if issueBefore teff now r b then some r else some b) none

/-- Whether a bucket lets a request of a ramp level go with charge `c` (R256). -/
def mayIssue (teff level bucket depth c : Nat) : Bool :=
  decide (c ≤ bucket) &&
    (teff = 0 || level = 7 || decide ((7 - level) * depth ≤ 8 * (bucket - c)))

/-- Tag-cache ways of a slice on a stack (R259). -/
def State.ways (s : State) (n k : Nat) : Nat := 8 * s.placed n k / 2400

/-- The first way of a tag on a stack: ways are taken in ascending slice number from way 0 upward, the system tag has those left (R259). -/
def State.wayBase (s : State) (tag k : Nat) : Nat :=
  min 8 (lsum ((s.slices.filter (fun d => decide (d.slice < tag))).map (fun d => s.ways d.slice k)))

/-- Ways of a tag on a stack (R259). -/
def State.waysOf (s : State) (tag k : Nat) : Nat :=
  if tag < 64 then min (8 - s.wayBase tag k) (s.ways tag k) else 8 - s.wayBase 64 k

/-- The tag that holds way `w` of the engines of a stack (R259). -/
def State.wayOwner (s : State) (k w : Nat) : Nat :=
  match s.slices.find? (fun d => decide (s.wayBase d.slice k ≤ w) && decide (w < s.wayBase d.slice k + s.waysOf d.slice k)) with
  | some d => d.slice
  | none => 0xFF

/-- Units of a scrub rate in a GB/s: 840 · 17, so that v_set ÷ m and u_k × 16 ÷ 17 are whole (04 R92). -/
def scrubUnit : Nat := 14280

/-- The scrubber's rate on a stack that is one of the `m` it serves, at cap level 0 (04 R92). -/
def State.scrubRate (s : State) (m k : Nat) : Nat :=
  if m = 0 then 0
  else min ((s.rf R.chkScrub 3 0 + 1) * 250 * scrubUnit / m) (s.unreserved k * 16 * (scrubUnit / 17))

/-- The grains a bank names to give. -/
def Bank.gives (b : Bank) : List Nat :=
  (b.recs.filter (fun r => r.op == .give)).flatMap (fun r => (List.range r.count).map (fun i => r.grain + i))

/-- The owner of fold position `p` = 16u + j in LLY_FLD_MAP (08 R161). -/
def State.posOwner (s : State) (p : Nat) : Nat := s.rf (R.fldMap + 4 * (p % 256 / 4)) (8 * (p % 4) + 7) (8 * (p % 4))

/-- `own(s, x)` (R265): the placement on a stack, positions on a unit, positions in all for the husk transfer, FAB_RES on a port. -/
def State.ownOf (s : State) (x n : Nat) : Nat :=
  if x < 8 then s.placed n x
  else if x < 24 then ((List.range 16).filter (fun j => s.posOwner (16 * (x - 8) + j) == n)).length
  else if x = 24 then ((List.range 256).filter (fun p => s.posOwner p == n)).length
  else match s.sdef n with
    | some d => if bit d.fabMask (x - 25) then d.fabRes else 0
    | none => 0

/-- Units resource `x` has in all, for what no slice owns of it. -/
def totalOf (x : Nat) : Nat := if x < 8 then 2400 else if x < 24 then 16 else if x = 24 then 256 else 64

/-- Whether a link carries flits of slices (13 R292, R295). -/
def LinkSt.carries : LinkSt → Bool
  | .up | .degrading => true
  | _ => false

/-- Units of a flit in a fabric rate: 544 · 64 · 8 · 8, so that a share in 64ths, what is lent or borrowed of it in eighths, and the cap level are whole. -/
def flitUnit : Nat := 2228224

/-- Flits of a link in service in a tick, in 544ths (13 R287): 50 bytes a nanosecond and lane at gen 2, half of that at gen 1, times 514. -/
def State.linkFlits (s : State) (p l : Nat) : Nat :=
  let x := s.link p l
  if x.st.carries then x.lanes * (if x.gen2 then 50 else 25) * 514 else 0

/-- The same of all links of a port. -/
def State.portFlits (s : State) (p : Nat) : Nat := lsum ((List.range 4).map (s.linkFlits p))

/-- A slice's rate on a link in units of a tick (13 R284, R263, R265): FAB_RES 64ths of the link's, less the eighths lent, with those borrowed, at the cap level. -/
def State.fabRate (s : State) (p l n : Nat) : Nat :=
  match s.sdef n with
  | some d => if bit d.fabMask p then s.linkFlits p l * d.fabRes * (8 - s.lentOf (25 + p) n + s.borrowOf (25 + p) n) * (8 - s.bwr.cap) else 0
  | none => 0

/-- What a slice lends of resource `x` in the next epoch from what it used of it in the closing one (R265): at most 6 eighths of a stack or a fabric port, by the
fraction left unused; of a unit or the husk transfer the positions its owner left without a cycle or a transfer. -/
def State.lendNext (s : State) (x n : Nat) : Nat :=
  let own := s.ownOf x n
  let a := tget (dflt EpochAcc.init) s.bwr.acc n
  let used := tget (dflt 0) a.used x
  let unused := fun (whole : Nat) => if whole = 0 then 0 else min (8 * (whole - min used whole) / whole) 6
  if x < 8 then unused (own * 256 * 4000)
  else if x < 24 then ((List.range 16).filter (fun j => s.posOwner (16 * (x - 8) + j) == n && !s.bwr.usedPos.contains (16 * (x - 8) + j))).length
  else if x = 24 then ((List.range 256).filter (fun p => s.posOwner p == n && !s.bwr.usedGrant.contains p)).length
  else unused (own * 4000 * s.portFlits (x - 25))

/-- The positions idle in the epoch that begins (R266): those no slice owns, and those their owner has lent. `used` are those with a cycle or transfer in the
closing epoch. -/
def State.idleNow (s : State) (used : List Nat) : List Nat := (List.range 256).filter (fun p => s.posOwner p == 0xFF || !used.contains p)

/-- Nothing lent and nothing borrowed. -/
def State.noLend (s : State) : State :=
  { s with bwr := { s.bwr with lent := [], grant := [], borrowOn := [], scrubV := [], idlePos := [], idleGrant := [], offered := [] } }

/-- The LEND computation of R265 for the epoch that begins: what each slice lends, the levels L(x), each claimant's g, and what R266 judges once. `sv` are the
scrubber's rates, fixed for the epoch (04 R92). -/
def State.lendGrant (s : State) (sv : Tbl Nat) : State :=
  let s := if s.lend then
    let xs := List.range 33
    let lent : Tbl Nat := xs.foldl (fun t x => s.slices.foldl (fun t d =>
      tset (dflt 0) t (lendKey x d.slice) (s.lendNext x d.slice)) t) []
    let lentBy := fun (x n : Nat) => tget (dflt 0) lent (lendKey x n)
    -- pools and own in eighths of the resource's unit
    let pool := fun x =>
      let given := lsum (s.slices.map (fun d => if 8 ≤ x && x < 25 then 8 * lentBy x d.slice else s.ownOf x d.slice * lentBy x d.slice))
      if x < 8 then 8 * s.unreserved x + given - ceilDiv (8 * tget (dflt 0) sv x) scrubUnit
      else 8 * (totalOf x - lsum (s.slices.map (fun d => s.ownOf x d.slice))) + given
    let claimants := fun x => s.slices.filter (fun d => (tget (dflt EpochAcc.init) s.bwr.acc d.slice).claims.contains x)
    let level := fun x =>
      let own := lsum ((claimants x).map (fun d => s.ownOf x d.slice))
      (List.range 8).foldl (fun m l => if l * own ≤ pool x then l else m) 0
    let claimsOf := fun (n : Nat) => (tget (dflt EpochAcc.init) s.bwr.acc n).claims
    let grant : Tbl Nat := s.slices.foldl (fun t d =>
      let c := claimsOf d.slice
      tset (dflt 0) t d.slice (if c.isEmpty then 0 else c.foldl (fun m x => min m (level x)) 7)) []
    let bo : Tbl (List Nat) := s.slices.foldl (fun t d => tset (dflt []) t d.slice (claimsOf d.slice)) []
    { s with bwr := { s.bwr with lent := lent, grant := grant, borrowOn := bo, scrubV := sv,
                                 idlePos := s.idleNow s.bwr.usedPos, idleGrant := s.idleNow s.bwr.usedGrant, offered := [] } }
  else s.noLend
  { s with bwr := { s.bwr with usedPos := [], usedGrant := [] } }

/-! ## Fold cycles and husk grants (08 R163, 09 R203, R266) -/

/-- Cycles a fold position has in a tick: every 16th of 512 FCLK cycles, 384 when CAPPED, of which the cap level leaves 8 − c in each 8 (R263). -/
def State.posCycles (s : State) : Nat := (if s.bwr.capped then 3 else 4) * (8 - s.bwr.cap)

/-- Bytes a position's grant lets through in a tick and direction (09 R203, R263). -/
def State.grantBytes (s : State) : Nat := 4 * (8 - s.bwr.cap)

/-- The lent cycles or bytes a slice may be offered in the whole epoch (R266): g/8 of its own on the resource, if it claims it. -/
def State.lendDue (s : State) (x n per : Nat) : Nat := s.borrowOf x n * s.ownOf x n * per * 4000 / 8

/-- The position an idle one offers to: the first, counting upward from j + 1 and wrapping among `size` positions from `base`, whose owner has work ready (R163,
R203, R266). -/
def State.offerTo (s : State) (x base size per p : Nat) : Option Nat :=
  ((List.range size).map (fun i => base + (p - base + 1 + i) % size)).findSome? (fun q =>
    let n := s.posOwner q
    if n < 64 && decide (tget (dflt 0) s.bwr.offered (lendKey x n) < s.lendDue x n per) then some n else none)

/-- What an idle position gives in a tick is offered piece by piece as the owners' borrowed amounts fill. Answers the state and the amounts offered by slice. -/
def State.offerIdle (s : State) (x base size per : Nat) : Nat → Nat → Tbl Nat → Nat → State × Tbl Nat
  | 0, _, t, _ => (s, t)
  | fuel + 1, p, t, left =>
    if left = 0 then (s, t)
    else match s.offerTo x base size per p with
      | none => (s, t)
      | some n =>
        let k := lendKey x n
        let room := s.lendDue x n per - tget (dflt 0) s.bwr.offered k
        let c := min left room
        let s := { s with bwr := { s.bwr with offered := tmod (dflt 0) s.bwr.offered k (· + c) } }
        s.offerIdle x base size per fuel p (tmod (dflt 0) t n (· + c)) (left - c)

/-- The offers of a tick on resource `x`: those of its idle positions, ascending. -/
def State.offers (s : State) (x base size per : Nat) (idle : List Nat) : State × Tbl Nat :=
  (idle.filter (fun p => decide (base ≤ p) && decide (p < base + size))).foldl (fun acc p =>
    acc.1.offerIdle x base size per 65 p acc.2 per) (s, [])

/-- A slice's report of the closing epoch (R264). -/
def State.epochReport (s : State) (n : Nat) : Report :=
  let a := tget (dflt EpochAcc.init) s.bwr.acc n
  ⟨min 7 (8 * a.waitTicks / 4000), s.bwr.cap, tget (dflt 0) s.bwr.grant n, min 0xFFFF a.misses, s.lend, s.bwr.capped, s.bwr.epoch⟩

/-- The reports of the closing epoch take their place, and misses are signalled once (R261, R264). -/
def State.closeEpoch (s : State) : State :=
  let s := s.slices.foldl (fun s d =>
    let r := s.epochReport d.slice
    let s := { s with bwr := { s.bwr with reports := tset (dflt none) s.bwr.reports d.slice (some r) } }
    let c := s.rd (vfReg d.vf V.bwrMissCtl)
    if bit c 0 && r.misses != 0 then s.signal d.vf (s.fn d.vf).gen (bits c 5 1) else s) s
  s

/-- The bits of an epoch report (LLY_BWR_REPORT). -/
def Report.pack (r : Report) : Nat :=
  r.slow + 8 * r.cap + 64 * r.grant + (if r.lend then 512 else 0) + (if r.capped then 1024 else 0) + 2 ^ 16 * r.misses

/-- STACK_QUEUE_LEVEL_HOLD (R269): the controllers of stack `k` report queue level `v`; a level of 7 held for 4,000 tk raises a
class 3 event naming the stack, a fault of every slice that lists it. -/
def execStackQueueLevelHold (k v : Nat) (s : State) : Host.Outcome State Fault Refusal :=
  let k := k % 8
  let v := v % 8
  let (old, since) := tget (dflt (0, 0)) s.bwr.qlvl k
  let t := s.spn.tick
  if v != 7 || old != 7 then
    .next { s with bwr := { s.bwr with qlvl := tset (dflt (0, 0)) s.bwr.qlvl k (v, t) } }
  else if since + 4000 ≤ t then
    let f := { FaultEv.base 0x21 3 [] with sub := 1, da := k }
    .next ({ s with bwr := { s.bwr with qlvl := tset (dflt (0, 0)) s.bwr.qlvl k (7, t) } }.raiseFault Sub.bwr none f)
  else .next s

/-- BWR_REPORT_READ (R270): a read of LLY_BWR_REPORT by VF `v` latches the number of the epoch it reports. -/
def execBwrReportRead (v : Nat) (s : State) : Host.Outcome State Fault Refusal :=
  let v := v % 64
  if !s.readable 0 R.bwrEpoch || !s.exists v then .next s
  else match s.presents v with
  | none => .next (s.emit .regValue [0, vfReg v V.bwrReport, 0] [])
  | some n =>
    match tget (dflt none) s.bwr.reports n with
    | none => .next ((s.wr (vfReg v V.bwrReportEpoch) 0).emit .regValue [0, vfReg v V.bwrReport, 0] [])
    | some r => .next ((s.wr (vfReg v V.bwrReportEpoch) (r.epoch % 2 ^ 32)).emit .regValue [0, vfReg v V.bwrReport, r.pack] [])

end Sys2Proof.Machine
end

