-- ==== Sys2Proof/Machine/Binder.lean ====
section
/-! DEFINITION. The Binder: device addresses, the transaction filter, denials, grain transitions, and its registers (03). -/

namespace Sys2Proof.Machine

/-- A requester class from LLY_BND_DENY_LAST's code (R59, R74). -/
def RClass.ofCode (n : Nat) : RClass :=
  match n with
  | 0 => .cd | 1 => .sav | 2 => .fld | 3 => .pf | 4 => .hd | 5 => .fab | 6 => .cc | 7 => .scr | _ => .img

def RClass.code : RClass → Nat
  | .cd => 0 | .sav => 1 | .fld => 2 | .pf => 3 | .hd => 4 | .fab => 5 | .cc => 6 | .scr => 7 | .img => 8

/-- Step 1 of R60: which tags go with which class. -/
def tagFits (cls : RClass) (tag : Nat) : Bool :=
  match cls with
  | .cc | .scr | .img => tag == 0xFF
  | _ => decide (tag < 64)

/-- Step 2 of R60: the tag matches the port's binding. `port` is the cluster for CD and SAV, the fold position for FLD, the channel
for PF, the VF for HD, the fabric port for FAB with `aux` the flit's FSLICE_ID. -/
def State.portBound (s : State) (cls : RClass) (tag port aux : Nat) : Bool :=
  match cls with
  | .cd => (s.cluster port).owner == tag
  | .sav => s.dpa.tasks.any (fun t => t.sl == tag && t.cluster == port && (t.st == .saving || t.st == .restoring))
      || ((s.fsl tag).phase == .capture && (s.cluster port).owner == tag)
  | .fld => s.posOwner port == tag
  | .pf => (List.range 16).any (fun j => s.posOwner (16 * port + j) == tag)
      && (s.pcm.fetches.any (fun f => f.sl == tag && decide (2 ≤ f.stage)) || s.pcm.jobs.any (fun p => p.sl == tag && !p.rebase)
        || s.pcm.promos.any (fun p => p.1 == tag))
  | .hd => s.presents port == some tag
  | .fab => match s.sdef tag with
      | some d => bit d.fabMask port && d.fsliceId == aux
      | none => false
  | _ => true

/-- What the filter answers. -/
inductive Verdict
  | pass (grain : Nat)
  | deny (reason : Nat)
deriving DecidableEq, Repr

/-- The access matrix of R61, for an OWNED grain, or SCR on a DIRTY or SCRUBBING one: may this class read, may it write. -/
def access (e : GrainE) (cls : RClass) : Bool × Bool :=
  if e.st == .dirty || e.st == .scrubbing then (cls == .scr, cls == .scr) else
  match e.attr, cls with
  | .priv, .cd | .priv, .fld | .priv, .hd | .priv, .fab => (decide (e.owner < 64), decide (e.owner < 64))
  | .priv, .cc => (e.owner == 0xFF, e.owner == 0xFF)
  | .pod, .fld | .pod, .pf => (true, true)
  | .save, .sav => (true, true)
  | .sharedRo, .cd | .sharedRo, .fld | .sharedRo, .hd => (true, false)
  | .baseSealed, .cd | .baseSealed, .fld => (e.sealed, false)
  | .baseSealed, .img => (false, !e.sealed)
  | _, _ => (false, false)

/-- The reader mask of a share group in effect (R68). -/
def State.shareMask (s : State) (g : Nat) : Nat := s.rd (R.bndShgrp + 8 * g) + 2 ^ 32 * s.rd (R.bndShgrp + 8 * g + 4)

/-- The grain an address lies in: the translated one in the image space (R66), where the image is bound and holds it; none for an address out of range (R60 step 3). -/
def State.target (s : State) (tag addr : Nat) : Option Nat :=
  let ix := bits addr 44 21
  let im := s.image (bits addr 46 45)
  if bit addr 47 then
    if im.bound && ix < im.ngrains then (s.copyFor im ((s.sdef tag).elim 0 SliceDef.baseCopy)).bind (fun c => im.at c ix) else none
  else if bits addr 46 45 = 0 && ix < nGrains then some ix else none

/-- Steps 3–9 of R60 for the grain an address lies in. Step 8 gives reason 7 where the class may read such a grain and not write it, and 6 otherwise (DESIGN CHOICE,
log 67: the rule names both codes and not which applies). -/
def State.filterAddr (s : State) (cls : RClass) (tag addr : Nat) (rdir wdir : Bool) : Verdict :=
  let img := bit addr 47
  let ix := bits addr 44 21
  let copy := s.copyFor (s.image (bits addr 46 45)) ((s.sdef tag).elim 0 SliceDef.baseCopy)
  match s.target tag addr with
  | none => .deny 3
  | some g =>
    let granted := match s.sdef tag with | some d => bit d.imageGrant (bits addr 46 45) | none => false
    if img && cls != .img && !granted then .deny 8 else
    let e := s.grain g
    let own := e.owner == tag
      || (e.attr == .sharedRo && !wdir && tag < 64 && bit (s.shareMask e.shgrp) tag)
      || (e.attr == .baseSealed && img)
    let scrub := cls == .scr && (e.st == .dirty || e.st == .scrubbing)
    if !own then .deny 4
    else if e.st == .poison then .deny 10
    else if !(e.st == .owned || scrub) then .deny 5
    else
      let (r, w) := access e cls
      if wdir && !w then (if r then .deny 7 else .deny 6)
      else if rdir && !r then .deny 6
      else if scrub then .pass g
      else
        let keyOk :=
          if e.owner = 0xFF then e.keyid == 0
          else match s.sdef e.owner with
            | some d => e.keyid == d.keyid || (match tget (dflt none) s.mce.walks e.owner with
                | some w => e.keyid == w.old
                | none => false)
            | none => false
        let trOk := !img || (e.image == bits addr 46 45 && e.igrain == ix && some e.copy == copy)
        if keyOk && trOk then .pass g else .deny 9

/-- The grain-sized pieces of an address range: the address of each piece's first byte. -/
def pieces (addr len : Nat) : List Nat :=
  let first := addr / 2 ^ 21
  let last := (addr + (len - 1)) / 2 ^ 21
  (List.range (last - first + 1)).map (fun i => if i = 0 then addr else (first + i) * 2 ^ 21)

/-- The whole filter (R60): the first check that fails, of the first grain whose check fails. -/
def State.filter (s : State) (cls : RClass) (tag port aux addr len : Nat) (rdir wdir : Bool) : Verdict :=
  if !tagFits cls tag then .deny 1
  else if !s.portBound cls tag port aux then .deny 2
  else (pieces addr len).foldl (fun v a => match v with
    | .deny r => .deny r
    | .pass _ => s.filterAddr cls tag a rdir wdir) (.pass 0)

/-- The task whose save or restore runs on a cluster: the queue a SAV request comes from (R59). -/
def State.savTask (s : State) (sl c : Nat) : Option Task :=
  s.dpa.tasks.find? (fun t => t.sl == sl && t.cluster == c && (t.st == .saving || t.st == .restoring))

/-- The access of a number. -/
def State.coll (s : State) (id : Nat) : Option Coll := s.mce.colls.find? (fun c => c.id == id)

/-- Whether an access has ended, well or badly. -/
def State.collDone (s : State) (id : Nat) : Bool := match s.coll id with | some c => c.left == 0 | none => true

/-- How bad an access that has ended was. -/
def State.collBad (s : State) (id : Nat) : Nat := match s.coll id with | some c => c.bad | none => 0

/-- The bytes an access has read. -/
def Coll.bytes (c : Coll) : List Byte :=
  let first := c.addr / 256
  let n := (c.addr + (c.len - 1)) / 256 - first + 1
  (((List.range n).flatMap (fun i => slice (tget (dflt []) c.got ((first + i) * 256)) 0 256)).drop (c.addr % 256)).take c.len

/-- The bytes read by the access of a number. -/
def State.collBytes (s : State) (id : Nat) : List Byte := match s.coll id with | some c => c.bytes | none => []

/-- Accesses no unit waits for any more. -/
def State.dropColls (s : State) (ids : List Nat) : State :=
  { s with mce := { s.mce with colls := s.mce.colls.filter (fun c => !ids.contains c.id) } }

/-- Unadapted tile reads whose tile and entry have come: the tile goes to the die with its CRC and FMT in the trailer; where a line came back bad, an error (06 R134,
R137). Behind the fence of a halt nothing leaves (05 R114). -/
def State.serveTiles (s : State) : State :=
  s.fld.reads.foldl (fun s r =>
    if s.mce.fenced || !s.collDone r.tileId || !s.collDone r.entId then s
    else
      let bad := s.collBad r.tileId != 0 || s.collBad r.entId != 0
      let ent := s.collBytes r.entId
      let tile := s.collBytes r.tileId
      let s := { s with fld := { s.fld with reads := s.fld.reads.erase r } }.dropColls [r.tileId, r.entId]
      if bad then s.emit .tile [r.rid, r.cluster, 1] []
      else s.emit .tile [r.rid, r.cluster, 0, fieldAt ent 0 4, fieldAt ent 4 4, 0, r.image, r.tix, r.variant] tile) s

/-- What an access of one of Llyna's own units comes to where no line of it goes on: `code` 1 an error, 2 POISONED. -/
def State.collFail (s : State) (id code : Nat) : State :=
  { s with mce := { s.mce with colls := lmod s.mce.colls (fun c => c.id == id) (fun c => { c with left := 0, bad := max c.bad code }) } }.serveTiles

/-- The error response to a request (R62): POISONED for reason 10. -/
def State.refuseReq (s : State) (id : Nat) (cls : RClass) (tag reason addr : Nat) : State :=
  (s.emit .memDenied [id, cls.code, tag, reason, addr] []).collFail id (if reason = 10 then 2 else 1)

/-- BINDER_DENY (R62): the error response, LLY_BND_DENY_CNT and LLY_BND_DENY_LAST, and but for reason POISONED a class 3 event: a
fault of the slice for tags 0–63, block-level for tag 0xFF and for step 9. The event names the tag, and the cluster, queue or VF the port gives. The spec gives the event of a
tag 0x40–0xFE no scope: it is raised as one of no slice (DESIGN CHOICE, log 68). -/
def State.deny (s : State) (id : Nat) (cls : RClass) (tag port addr reason : Nat) : State :=
  let s := (s.refuseReq id cls tag reason addr).bump R.bndDenyCnt 1
  let s := s.wr R.bndDenyLast (reason + 16 * cls.code + 256 * tag)
  if reason = 10 then s else
  let f := if reason = 9 then FaultEv.base 0x41 5 []
    else if tag = 0xFF then FaultEv.base 0x42 5 []
    else FaultEv.base 0x02 2 (if tag < 64 then [tag] else [])
  let f := { f with sub := reason, da := cls.code, addr := addr, tag := tag, aux := if cls == .hd then port else 0,
                    cluster := match cls with | .cd | .sav => port | _ => 0xFF }
  let f := match (if cls == .sav then s.savTask tag port else none) with
    | some t => { f with queue := t.queue, jgen := t.jgen, taskId := fieldAt t.desc 8 8 }
    | none => f
  s.raiseFault Sub.bnd (if reason = 9 || tag ≥ 64 then none else some tag) f

/-- The lines of an address range: for each, its line address, its byte mask (256 bits) and its 256 data bytes. -/
def linesOf (addr len mask : Nat) (data : List Byte) : List (Nat × Nat × List Byte) :=
  let first := addr / 256
  let last := (addr + (len - 1)) / 256
  (List.range (last - first + 1)).map (fun i =>
    let la := (first + i) * 256
    let off := la - addr
    let skip := addr - la
    let n := min (256 - skip) (addr + len - (la + skip))
    (la, (((mask >>> off) % 2 ^ n) <<< skip), List.replicate skip 0 ++ slice data off n ++ List.replicate (256 - skip - n) 0))

/-- The bank that is armed, if any (04 R77). -/
def BankSt.armed : BankSt → Bool
  | .checking | .waitBlank | .drain | .deciding => true
  | _ => false

def State.bank (s : State) (b : Nat) : Bank := if b = 0 then s.chk.a else s.chk.b

def State.setBank (s : State) (b : Nat) (x : Bank) : State :=
  { s with chk := if b = 0 then { s.chk with a := x } else { s.chk with b := x } }

/-- The number of the armed bank. -/
def State.armed (s : State) : Option Nat :=
  if s.chk.a.st.armed then some 0 else if s.chk.b.st.armed then some 1 else none

/-- The grains a bank's records of an op name. -/
def Bank.named' (b : Bank) (op : ChgOp) : List Nat :=
  (b.recs.filter (fun r => r.op == op)).flatMap (fun r => (List.range r.count).map (fun i => r.grain + i))

/-- The clusters a slice has after a bank commits. -/
def Bank.clustersAfter (b : Bank) (s : State) (n : Nat) : Nat :=
  match b.defs.find? (fun d => d.slice == n) with
  | some d => d.clusters
  | none => if b.destroys.contains n then 0 else (match s.sdef n with | some d => d.clusters | none => 0)

/-- The clusters that leave a slice under a bank: (slice, cluster), ascending. -/
def Bank.departing (b : Bank) (s : State) : List (Nat × Nat) :=
  s.slices.flatMap (fun d => ((maskList d.clusters 64).filter (fun c => !bit (b.clustersAfter s d.slice) c)).map (fun c => (d.slice, c)))

/-- The engine whose carve-out share and tag cache hold a line's slot (R104): the one of Interleave OFF. -/
def slotEngine (g line : Nat) : Nat := 32 * stackOf g + line % 32

/-- The memory port a data line goes through (03 R50, R51). -/
def State.dataPort (s : State) (g line : Nat) : Nat :=
  if bit (s.rd R.chkMode) 1 then line % 256 else slotEngine g line

/-- The grains a bank takes from the requests that reach them: those it names, those of the slices it destroys, those of an image it drops (04 R86). -/
def State.taken (s : State) (k : Bank) (g : Nat) : Bool :=
  (k.named' .take).contains g || k.destroys.contains (s.grain g).owner
    || k.recs.any (fun r => r.op == .dropImage && (s.grain g).attr == .baseSealed && (s.grain g).st == .owned && (s.grain g).image == r.image)

/-- Whether the memory drain of the armed bank holds a request: it comes from a departing cluster, or targets a grain the bank takes (04 R86). -/
def State.drainHolds (s : State) (cls : RClass) (tag port addr len : Nat) : Bool :=
  match s.armed with
  | none => false
  | some b =>
    let k := s.bank b
    (k.drain == .memory || k.drain == .keys || k.drain == .raised || k.drain == .held) &&
      (((cls == .cd || cls == .sav) && (k.departing s).any (fun p => p.2 == port)) ||
        (pieces addr len).any (fun a => (s.target tag a).any (fun g => s.taken k g)))

/-- Whether the Binder holds a request: the memory drain does (04 R86); or the system tag's grains are being re-marked (05 R123); its channel is being retrained
(22 R486); or traffic is not yet admitted after a reset (12 R281). -/
def State.holds (s : State) (cls : RClass) (tag port addr len : Nat) : Bool :=
  let retrain := !s.flt.heldPorts.isEmpty && (List.range ((addr + (len - 1)) / 256 - addr / 256 + 1)).any (fun i =>
    let a := (addr / 256 + i) * 256
    match s.filterAddr cls tag a true false with
    | .pass g => s.flt.heldPorts.contains (s.dataPort g (bits a 20 8))
    | .deny _ => false)
  s.drainHolds cls tag port addr len || retrain || (s.mce.remark && tag == 0xFF && cls != .scr) || (!bit (s.rd R.audStatus) 8 && s.flt.block == 0)

/-- The line of a grain an engine of a stack has at its watermark (05 R119): engine `e` serves lines e, 32 + e, … of each grain. -/
def markLine (eng done : Nat) : Nat := 32 * done + eng % 32

/-- The KeyID a line is accessed under (05 R119): the entry's, but below the watermark of a grain being walked the new one; KeyID 0 for the scrubber. -/
def State.lineKey (s : State) (cls : RClass) (g line : Nat) : Nat :=
  let e := s.grain g
  if cls == .scr then 0 else
  match tget (dflt none) s.mce.walks e.owner with
  | some w => if e.keyid = w.old && (tget (dflt []) w.left (stackOf g)).head? == some g
      && decide (line / 32 < tget (dflt 0) w.marks (slotEngine g line)) then w.new else e.keyid
  | none => e.keyid

/-- The request admitted: its lines wait at the regulator (11 R255). -/
def State.admitLines (s : State) (id : Nat) (cls : RClass) (tag port aux addr len : Nat) (write : Bool) (mask : Nat)
    (data : List Byte) (now : Nat) : State :=
  let rs := (linesOf addr len mask data).map (fun (la, m, d) =>
    let g := (s.target tag la).getD (bits la 44 21)
    ({ id := id, cls := cls, tag := tag, write := write, mask := m, data := d, addr := la, grain := g, line := bits la 20 8,
       keyid := s.lineKey cls g (bits la 20 8), port := port, aux := aux, arrived := now, issued := 0,
       phase := .waiting, res := .none, late := false, slot := none, pre := false } : MemReq))
  { s with mce := { s.mce with reqs := s.mce.reqs ++ rs } }

/-- A request decided against the table in force (R60, R63). A partial write counts as a read and a write. In a block reset nothing is
admitted (22 R490): a request that would pass is answered with an error and no event, and from B + 92 every request is (DESIGN CHOICE, log 22). -/
def State.decideRequest (s : State) (id : Nat) (cls : RClass) (tag port aux addr len : Nat) (write : Bool) (mask : Nat)
    (data : List Byte) (now : Nat) : State :=
  if tag < 64 && s.contained tag && !(cls == .sav && (s.fsl tag).phase == .capture) then s.refuseReq id cls tag 0 addr else
  if s.flt.block != 0 && decide (s.flt.blockAt + 92 ≤ s.spn.tick) then s.refuseReq id cls tag 0 addr else
  let partial' := write && (linesOf addr len mask data).any (fun l => l.2.1 != 2 ^ 256 - 1 && l.2.1 != 0)
  match s.filter cls tag port aux addr len (!write || partial') write with
  | .deny r => s.deny id cls tag port addr r
  | .pass _ => if s.flt.block != 0 then s.refuseReq id cls tag 0 addr
      else s.admitLines id cls tag port aux addr len write mask data now

/-- A request enters the Binder: held in a drain (04 R86), else decided at once. -/
def State.enterRequest (s : State) (id : Nat) (c : RClass) (tag port aux addr len : Nat) (write : Bool) (mask : Nat)
    (data : List Byte) (now : Nat) : State :=
  if s.holds c tag port addr len then
    { s with mce := { s.mce with reqs := s.mce.reqs ++
      [{ id := id, cls := c, tag := tag, write := write, mask := mask, data := data, addr := addr, grain := 0, line := len,
         keyid := 0, port := port, aux := aux, arrived := now, issued := 0, phase := .held, res := .none, late := false, slot := none, pre := false }] } }
  else s.decideRequest id c tag port aux addr len write mask data now

/-- An access of one of Llyna's own units enters the Binder under a fresh number, which answers with the state: its lines are collected as they come back (01 R20). -/
def State.memAccess (s : State) (cls : RClass) (tag port addr len : Nat) (write : Bool) (data : List Byte) : State × Nat :=
  let id := 2 ^ 52 + s.mce.nextId
  let c : Coll := ⟨id, addr, len, (addr + (len - 1)) / 256 - addr / 256 + 1, 0, []⟩
  let s := { s with mce := { s.mce with colls := s.mce.colls ++ [c], nextId := s.mce.nextId + 1 } }
  (s.enterRequest id cls tag port 0 addr len write (2 ^ len - 1) data (s.now 0), id)

/-- Held requests are decided once their reason to be held has gone (04 R86, R88). `line` of a held request keeps its length. -/
def State.releaseHeld (s : State) : State :=
  let held := s.mce.reqs.filter (fun r => r.phase == .held)
  let (keep, go) := held.partition (fun r => s.holds r.cls r.tag r.port r.addr r.line)
  let s := { s with mce := { s.mce with reqs := s.mce.reqs.filter (fun r => r.phase != .held) ++ keep } }
  go.foldl (fun s r => s.decideRequest r.id r.cls r.tag r.port r.aux r.addr r.line r.write r.mask r.data r.arrived) s

/-! ## Grain transitions (R56) -/

/-- A grain becomes POISON: OWNED keeps owner and attribute, any other state takes OWNER 0xFF and ATTR 0 (R56, R57). -/
def GrainE.poisoned (e : GrainE) : GrainE :=
  match e.st with
  | .owned => { e with st := .poison, inUse := false }
  | .poison => e
  | _ => { GrainE.blank with st := .poison }

/-- An OWNED grain taken becomes DIRTY under the KeyID it was shredded under (R54, R56). -/
def GrainE.taken (e : GrainE) : GrainE := { GrainE.blank with st := .dirty, keyid := e.keyid }

/-- Slices whose base copy moves because grain `g` of a MIRRORED image has become POISON (R67). -/
def State.copyMovers (s : State) (g : Nat) : List Nat :=
  let e := s.grain g
  if e.attr == .baseSealed && e.st == .owned then
    let im := s.image e.image
    if im.mirrored then
      (s.slices.filter (fun d => bit d.imageGrant e.image && s.copyFor im d.baseCopy == some e.copy
        && s.copySound im (1 - e.copy))).map SliceDef.slice
    else []
  else []

/-- The copy of a MIRRORED image that a grain about to become POISON is the first unsound one of, while the other is unsound already: it was the last sound one. -/
def State.noteLastCopy (s : State) (g : Nat) : State :=
  let e := s.grain g
  let im := s.image e.image
  if e.attr == .baseSealed && e.st == .owned && im.mirrored && s.copySound im e.copy && !s.copySound im (1 - e.copy)
  then { s with bnd := { s.bnd with images := tset (dflt ImageE.init) s.bnd.images e.image { im with lastCopy := e.copy } } } else s

/-- A list of grains becomes POISON at effective tick `t`: the transition, the statement versions of owners and of slices whose base
copy moves (R67, R71), and the POISON cause (26 R556). -/
def State.poisonGrains (s : State) (gs : List Nat) (t : Nat) : State :=
  let s := gs.foldl (fun s g =>
    let e := s.grain g
    if e.st == .poison then s
    else
      let who := (if e.st == .owned && e.owner < 64 then [e.owner] else []) ++ s.copyMovers g
      let s := (s.noteLastCopy g).modGrain g GrainE.poisoned
      who.foldl (fun s n => s.advanceStmt n t) s) s
  if gs.isEmpty then s else s.irq 15

/-- FAILED_REGION (25 R537, R538): a controller of stack `k` reports that lines `first` to `last` have failed. The grains with a data
line or a tag line there become POISON by a class 3 event; a region that covers every line of the stack is a failure of the stack. -/
def execFailedRegion (k first last : Nat) (s : State) : Host.Outcome State Fault Refusal :=
  let k := k % 8
  let dataLines := stackGrains * 8192
  if first = 0 && last ≥ 301989887 then
    let f := { FaultEv.base 0x21 3 [] with sub := 2, da := k }
    .next (s.raiseFault Sub.bnd none f)
  else
    let place := fun l => if bit (s.rd R.chkMode) 1 then l / 1024 else k * stackGrains + l / 8192
    let raiseTo := fun (s : State) (g0 g1 : Nat) =>
      if g1 < g0 then s else s.raise ⟨3, none, Sub.bnd, .grainPoison g0 (g1 + 1 - g0) 8⟩
    let s := if first < dataLines then raiseTo s (place first) (place (min last (dataLines - 1))) else s
    let tagEnd := dataLines + stackGrains * 256
    let s := if dataLines ≤ last && first < tagEnd then
      raiseTo s (k * stackGrains + (max first dataLines - dataLines) / 256)
        (k * stackGrains + (min last (tagEnd - 1) - dataLines) / 256) else s
    .next s

/-- GT_SEL_WRITE (R74, 26 R551): source `src` selects grain `g`; its active entry is latched into that source's GT_LO and GT_HI. -/
def State.selGrain (s : State) (src g : Nat) : State :=
  let g := g % 2 ^ 24
  let e := if g < nGrains then (s.grain g).pack else 0
  ((s.wr (srcReg src R.bndGtSel) g).wr (srcReg src R.bndGtLo) (e % 2 ^ 32)).wr (srcReg src R.bndGtHi) (e / 2 ^ 32)

/-- GT_SEL_WRITE (R74). -/
def execGtSelWrite (src g : Nat) (s : State) : Host.Outcome State Fault Refusal :=
  .next (s.gated src R.bndGtSel g (fun s => s.selGrain src g))

end Sys2Proof.Machine
end

