-- ==== Sys2Proof/Machine/Crypt.lean ====
section
/-! DEFINITION. The memory crypt engines (05): issue, tag caches, line resolution, poison, the security halt, and re-key walks. -/

namespace Sys2Proof.Machine

/-- The tag line of a port in its grain, 0–7, and the slot in it (R104). -/
def tagLineOf (line : Nat) : Nat := line / 1024
def slotOf (line : Nat) : Nat := line / 32 % 32

/-- The key of a set of an engine's cache: the tag line's number modulo 16 (R110). -/
def setKey (g line : Nat) : Nat := 16 * slotEngine g line + ((g % stackGrains) * 8 + tagLineOf line) % 16

/-- A set of an engine's cache, most recently used first. -/
def State.cacheSet (s : State) (k : Nat) : List TagLine := tget (dflt []) s.mce.tagc k

/-- Whether a cached tag line is the one of a holder and line. -/
def TagLine.isFor (t : TagLine) (holder g line : Nat) : Bool :=
  t.holder == holder && t.grain == g && t.line == tagLineOf line

/-- The slot value a tag's cache holds for a line, if valid there (R110, 11 R259). -/
def State.cachedSlot (s : State) (holder g line : Nat) : Option W64 :=
  match (s.cacheSet (setKey g line)).find? (fun t => t.isFor holder g line) with
  | none => none
  | some t => (t.slots.find? (fun e => e.1 == slotOf line)).map Prod.snd

/-- A set with a line put first, in way of `base` to `base + ways − 1`: the way it has, a free one, or that of its holder's least recently used line, which leaves
(11 R259). Answers the new set and the lines that leave; with no way the line itself leaves at once. Which free way is taken shows nowhere. -/
def cachePut (set : List TagLine) (t : TagLine) (line base ways : Nat) : List TagLine × List TagLine :=
  let same := set.find? (fun x => x.isFor t.holder t.grain line)
  let others := set.filter (fun x => !x.isFor t.holder t.grain line)
  match same with
  | some x => ({ t with way := x.way } :: others, [])
  | none =>
    match ((List.range ways).map (fun i => base + i)).find? (fun w => !others.any (fun x => x.way == w)) with
    | some w => ({ t with way := w } :: others, [])
    | none =>
      match (others.filter (fun x => x.holder == t.holder)).getLast? with
      | some v => ({ t with way := v.way } :: others.filter (fun x => x != v), [v])
      | none => (others, [t])

/-- TAG_WRITE_BACK (R110): a dirty tag line leaves: where a slot of it is not valid the line is read and merged, and it is written to the carve-out. -/
def State.writeBack (s : State) (eng : Nat) (t : TagLine) : State :=
  if t.dirty then
    let s := if t.slots.length < 32 then s.emit .memIssue [0xFF, t.grain, t.line, 3, eng, 1] [] else s
    s.emit .memIssue ([0xFF, t.grain, t.line, 2, eng] ++ t.slots.flatMap (fun e => [e.1, e.2.toNat])) []
  else s

/-- A charge on a slice's regulator; the system tag has none (11 R251). -/
def State.charge (s : State) (tag k c : Nat) : State :=
  if tag < 64 then
    (s.modRegul tag k (fun r => r.charge c)).modAcc tag (fun a => { a with used := tmod (dflt 0) a.used k (· + c / 512) })
  else s

/-- A line that a slice's own access evicts: its write-back, and the read that merges it, are charged to the slice (11 R255). -/
def State.evict (s : State) (eng : Nat) (t : TagLine) : State :=
  if t.dirty then (s.writeBack eng t).charge t.holder (eng / 32) ((if t.slots.length < 32 then 2 else 1) * lineCharge) else s

/-- Slot values held for a line under a holder's ways, written through where the holder has none (R110, 11 R259). Values `fetched` from memory leave the valid slots as
they are. -/
def State.putSlots (s : State) (holder g line : Nat) (slots : Tbl W64) (dirty fetched : Bool) : State :=
  let k := setKey g line
  let old := (s.cacheSet k).find? (fun t => t.isFor holder g line)
  let base : Tbl W64 := match old with | some t => t.slots | none => []
  let put := fun (t : Tbl W64) (e : Nat × W64) => if fetched && t.any (fun x => x.1 == e.1) then t else tins (tdel t e.1) e.1 e.2
  let t : TagLine := ⟨0, holder, g, tagLineOf line, slots.foldl put base, dirty || (match old with | some t => t.dirty | none => false)⟩
  let (set, gone) := cachePut (s.cacheSet k) t line (s.wayBase holder (stackOf g)) (s.waysOf holder (stackOf g))
  let s := { s with mce := { s.mce with tagc := tset (dflt []) s.mce.tagc k set } }
  gone.foldl (fun s t => s.evict (k / 16) t) s

/-- Whether a request is a partial write with at least one byte enabled (R107). -/
def MemReq.partialWrite (r : MemReq) : Bool := r.write && r.mask != 2 ^ 256 - 1 && r.mask != 0

/-- A line held by a read-modify-write between its read and its write (R108). -/
def MemReq.rmwHeld (r : MemReq) : Bool := (r.partialWrite && r.phase == .issued) || (r.write && r.res == .ok && r.phase == .waiting)

/-- Whether a re-key walk holds a line for its read and write (R119). -/
def State.walkHolds (s : State) (g line : Nat) : Bool :=
  s.mce.walks.any (fun e => match e.2 with | some w => w.reads.any (fun r => r.grain == g && r.line == line) | none => false)

/-- Whether an engine may take a waiting request now: its line is not held, and a partial write finds one of 32 places (R108). -/
def State.engineTakes (s : State) (r : MemReq) : Bool :=
  let rmw := s.mce.reqs.filter (fun x => x.rmwHeld)
  let mine := r.write && r.res == .ok
  (mine || (!rmw.any (fun x => x.grain == r.grain && x.line == r.line) && !s.walkHolds r.grain r.line)) &&
    (mine || !r.partialWrite || decide ((rmw.filter (fun x => s.dataPort x.grain x.line == s.dataPort r.grain r.line)).length < 32))

/-- One request replaced by another, or removed. -/
def State.swapReq (s : State) (r : MemReq) (n : Option MemReq) : State :=
  { s with mce := { s.mce with reqs := s.mce.reqs.flatMap (fun x => if x == r then n.toList else [x]) } }

/-- Whether the miss of a tag line fetches the next one of the same grain too (R110). -/
def State.prefetches (s : State) (tag g line : Nat) : Bool :=
  decide (line + 1024 < 8192) && !(s.cacheSet (setKey g (line + 1024))).any (fun t => t.isFor tag g (line + 1024)) && s.waysOf tag (stackOf g) != 0

/-- A tag line fetched for a demand miss, and the next one with it (R110): counted, and charged. -/
def State.tagMiss (s : State) (id tag g line : Nat) : State :=
  let n := if s.prefetches tag g line then 2 else 1
  ((s.bump R.mceTagcMiss n).charge tag (stackOf g) (n * lineCharge)).emit .memIssue [id, g, tagLineOf line, 3, slotEngine g line, n] []

/-- The slot of a line as a read starts with it: the cached one, its line now the most recently used, or none, its tag line fetched (R110). -/
def State.lookSlot (s : State) (id tag g line : Nat) : State × Option W64 :=
  match s.cachedSlot tag g line with
  | some v => (s.putSlots tag g line [] false true, some v)
  | none => (s.tagMiss id tag g line, none)

/-- The physical device address of a request's line (R99, R101). -/
def MemReq.pa (r : MemReq) : Nat := r.grain * 2 ^ 21 + r.line * 256

/-- The leftmost 64 bits of a CMAC, its bytes in order as a slot stores them. -/
def mac64 (key m : List Byte) : W64 := BitVec.ofNat 64 (leNat ((cmac key m).take 8))

/-- The clear marker Z(a) and the poison marker P(a) under K_M (R103). -/
def clearMark (km : List Byte) (a : Nat) : W64 := mac64 km ([0x02, 0, 0] ++ leBytes 6 a)
def poisonMark (km : List Byte) (a : Nat) : W64 := mac64 km ([0x03, 0, 0] ++ leBytes 6 a)

/-- The data tag of a line under a key set (R102). -/
def lineTag (keys : List Byte) (keyid a : Nat) (c : List Byte) : W64 := mac64 (slice keys 64 32) ([0x01] ++ leBytes 2 keyid ++ leBytes 6 a ++ c)

/-- A line encrypted, and decrypted, under a key set at its address (R101). -/
def lineEnc (keys : List Byte) (a : Nat) (d : List Byte) : List Byte := xtsEnc (slice keys 0 32) (slice keys 32 32) a d
def lineDec (keys : List Byte) (a : Nat) (c : List Byte) : List Byte := xtsDec (slice keys 0 32) (slice keys 32 32) a c

/-- A line written at its physical address under a KeyID: its ciphertext to memory, its data tag to the tag cache of `tag` (R107). -/
def State.storeLine (s : State) (id tag g line keyid : Nat) (d : List Byte) : State :=
  let a := g * 2 ^ 21 + line * 256
  let ks := (s.key keyid).keys
  let c := lineEnc ks a d
  (s.emit .memIssue [id, g, line, 1, s.dataPort g line] c).putSlots tag g line [(slotOf line, lineTag ks keyid a c)] true false

/-- The engine accepts a full line to write (R107, R109); the scrubber's are zeros with Z(a), ahead of the tag cache (R104). -/
def State.writeLine (s : State) (r : MemReq) : State :=
  if r.cls == .scr then
    (s.emit .memIssue [r.id, r.grain, r.line, 1, s.dataPort r.grain r.line] (lineEnc (s.key r.keyid).keys r.pa (zeros 256))).emit .memIssue
      [r.id, r.grain, tagLineOf r.line, 2, slotEngine r.grain r.line, slotOf r.line, (clearMark s.markKey r.pa).toNat] []
  else s.storeLine r.id r.tag r.grain r.line r.keyid r.data

/-- A line of a request made for a fabric partner has come back: a read keeps its bytes for the answer (14 R307). -/
def State.fabLine (s : State) (r : MemReq) (res : LineRes) : State :=
  if r.cls != .fab then s
  else
    let upd : FabIn → FabIn := fun x => { x with
      left := x.left - 1, bad := if res == .ok then x.bad else max x.bad (if res == .poisoned then 2 else 1),
      got := if r.write then x.got else tset (dflt []) x.got r.addr r.data }
    { s with fpc := { s.fpc with ins := lmod s.fpc.ins (fun x => x.id == r.id) upd } }

/-- A line of an access of Llyna's own units has come back. -/
def State.collLine (s : State) (r : MemReq) (res : LineRes) : State :=
  let upd : Coll → Coll := fun c => { c with
    left := c.left - 1, bad := if res == .ok then c.bad else max c.bad (if res == .poisoned then 2 else 1),
    got := if r.write then c.got else tset (dflt []) c.got r.addr r.data }
  { s with mce := { s.mce with colls := lmod s.mce.colls (fun c => c.id == r.id) upd } }.serveTiles

/-- A line delivered to whoever inside the block waits for it. -/
def State.lineDone (s : State) (r : MemReq) (res : LineRes) : State := (s.fabLine r res).collLine r res

/-- A request under its KeyID of this moment: the one the Binder would give it now, but for the write that ends a read-modify-write, whose line a walk cannot have
passed (R119). -/
def State.keyed (s : State) (r : MemReq) : MemReq := if r.res == .ok then r else { r with keyid := s.lineKey r.cls r.grain r.line }

/-- A request leaves its regulator for its engine (R255, R100, R107): an EMPTY key entry is a block-level fault, a zero mask
completes at once, a full line is written, anything else starts with a read. -/
def State.issue (s : State) (r0 : MemReq) (now : Nat) : State :=
  let r := s.keyed r0
  let k := stackOf r.grain
  if r.write && r.mask = 0 then ((s.swapReq r0 none).lineDone r .ok).emit .memDone [r.id, r.addr, 0] []
  else if !(s.key r.keyid).live then
    (((s.swapReq r0 none).lineDone r .error).emit .memDenied [r.id, r.cls.code, r.tag, 0, r.addr] []).raiseFault Sub.mce none (FaultEv.base 0x41 5 [])
  else
    let s := s.charge r.tag k lineCharge
    if r.write && (r.mask = 2 ^ 256 - 1 || r.res == .ok) then
      let s := s.writeLine r
      if r.res == .ok then s.swapReq r0 (some { r with phase := .ready, issued := r.issued })
      else ((s.swapReq r0 none).lineDone r .ok).emit .memDone [r.id, r.addr, 0] []
    else
      let pre := (s.cachedSlot r.tag r.grain r.line).isNone && s.prefetches r.tag r.grain r.line
      let look := s.lookSlot r.id r.tag r.grain r.line
      (look.1.swapReq r0 (some { r with phase := .issued, issued := now, slot := look.2, pre := pre })).emit .memIssue
        [r.id, r.grain, r.line, 0, s.dataPort r.grain r.line] []

/-- REQUEST_ISSUE (11 R255, R256): the regulator of `tag` and `stack` issues its next request if the bucket holds its charge and the
ramp lets it; system requests go while the stack's controllers report a queue level below 4 (11 R254). -/
def execRequestIssue (tag stack sub : Nat) (s : State) : Host.Outcome State Fault Refusal :=
  let k := stack % 8
  let now := s.now sub
  let ws := s.mce.reqs.filter (fun r => r.phase == .waiting && r.tag == tag && stackOf r.grain == k && s.engineTakes r)
  if s.mce.fenced || (s.mce.remark && tag == 0xFF) then .next s else
  match s.sdef tag with
  | some d =>
    match nextIssue d.teff now ws with
    | none => .next s
    | some r =>
      let b := (s.regul tag k).bucket
      let c := if r.write && r.mask = 0 then 0 else lineCharge
      if mayIssue d.teff (rampLevel d.teff (now - r.arrived)) b (s.depth tag k) c then .next (s.issue r now)
      else .next s
  | none =>
    if tag != 0xFF || 4 ≤ (tget (dflt (0, 0)) s.bwr.qlvl k).1 then .next s
    else match nextIssue 0 now ws with
      | none => .next s
      | some r => .next (s.issue r now)

/-- A slot set to P(a) (R112): the slot is written under the tag's ways, and the poisoning is a class 3 event naming the line's owner. A slot known to hold P(a) already
changes nothing. -/
def State.poisonLine (s : State) (tag g line cause : Nat) : State :=
  let p := poisonMark s.markKey (g * 2 ^ 21 + line * 256)
  if s.cachedSlot tag g line = some p then s
  else
    let o := (s.grain g).owner
    (s.putSlots tag g line [(slotOf line, p)] true false).raise
      ⟨3, if o < 64 then some o else none, Sub.mce, .linePoison g line (slotEngine g line) cause⟩

/-- The 32 slots of the tag line of a line set to P (R106). -/
def State.poisonTag (s : State) (tag g line : Nat) : State :=
  (List.range 32).foldl (fun s i => s.poisonLine tag g (tagLineOf line * 1024 + 32 * i + line % 32) 3) s

/-- What the read of a line comes to (R106). -/
inductive ReadRes
  | plain (data : List Byte)
  | zeros
  | poison (cause : Nat)
  | poisonTagLine
  | wasPoison
  | halt
deriving DecidableEq, Repr

/-- R106 for a line at physical address `a` under a key set: the first matching row. ECC statuses: 0 clean, 1 corrected, 2 uncorrectable. -/
def resolve (km keys : List Byte) (keyid a : Nat) (tagEcc : Nat) (slot : W64) (dataEcc : Nat) (cipher : List Byte) : ReadRes :=
  if tagEcc = 2 then .poisonTagLine
  else if slot = poisonMark km a then .wasPoison
  else if slot = clearMark km a then .zeros
  else if dataEcc = 2 then .poison 1
  else if lineTag keys keyid a cipher = slot then .plain (lineDec keys a cipher)
  else if tagEcc = 1 || dataEcc = 1 then .poison 2
  else .halt

/-- Enabled bytes merged onto a line (R107). -/
def mergeBytes (mask : Nat) (new old : List Byte) : List Byte :=
  (List.range 256).map (fun i => if bit mask i then new.getD i 0 else old.getD i 0)

/-- The request answered with a line, or with POISONED: held for its delivery time, and if that has passed, late (R257, R258). -/
def State.answer (s : State) (r : MemReq) (res : LineRes) (data : List Byte) (now : Nat) : State :=
  let late := r.tag < 64 && r.issued + 10240 < now
  let s := s.swapReq r (some { r with phase := .ready, res := res, data := data, late := late })
  if late then
    let rising := s.rd R.bwrLate == 0
    let s := (s.bump R.bwrLate 1).modAcc r.tag (fun a => { a with misses := a.misses + 1 })
    let s := s.offer 0 0x41 s.spn.tick r.tag 0 0 [s.dataPort r.grain r.line]
    if rising then s.irq 14 else s
  else s

/-- A POISONED response delivered to a requester of a slice writes one MEM_POISON record there (R112, 22 R469). -/
def State.memPoison (s : State) (r : MemReq) : State :=
  if r.tag < 64 then
    let f := { FaultEv.base 0x10 1 [r.tag] with
      cluster := match r.cls with | .cd | .sav => r.port | _ => 0xFF
      sub := r.cls.code, da := s.dataPort r.grain r.line, addr := r.addr }
    s.raiseFault Sub.mce (some r.tag) f
  else s

/-- A tag failure with clean ECC (R106, R114): the fence line at once, and the class 1 event. -/
def State.tagHalt (s : State) (cause port tag g line : Nat) : State :=
  { s with mce := { s.mce with fenced := true } }.raise ⟨1, none, Sub.mce, .secHalt cause port tag g line⟩

/-- The line of a request is resolved (R106, R107). -/
def State.settle (s : State) (r : MemReq) (tagEcc : Nat) (slot : W64) (dataEcc : Nat) (cipher : List Byte) (now : Nat) : State :=
  let s := if tagEcc = 1 || dataEcc = 1 then s.bump R.mceCeccCnt 1 else s
  let good := fun (s : State) (d : List Byte) =>
    if r.write then s.swapReq r (some { r with phase := .waiting, res := .ok, data := mergeBytes r.mask r.data d })
    else s.answer r .ok d now
  match resolve s.markKey (s.key r.keyid).keys r.keyid r.pa tagEcc slot dataEcc cipher with
  | .plain d => good s d
  | .zeros => good s (zeros 256)
  | .wasPoison => (s.memPoison r).answer r .poisoned [] now
  | .poison c => ((s.poisonLine r.tag r.grain r.line c).memPoison r).answer r .poisoned [] now
  | .poisonTagLine => ((s.poisonTag r.tag r.grain r.line).memPoison r).answer r .poisoned [] now
  | .halt => (s.swapReq r none).tagHalt (if r.write then 2 else 1) (s.dataPort r.grain r.line) r.tag r.grain r.line

/-- The slots a fetched tag line brings, and those of the next one where it was fetched too (R110). -/
def State.fillSlots (s : State) (tag g line : Nat) (pre : Bool) (tagLine : List W64) : State :=
  if s.waysOf tag (stackOf g) = 0 then s
  else
    let part := fun (o : Nat) => (List.range 32).map (fun i => (i, tagLine.getD (o + i) 0))
    let s := s.putSlots tag g line (part 0) false true
    if pre then s.putSlots tag g (line + 1024) (part 32) false true else s

/-! ## Re-key walks (R119–R121) -/

/-- The grains a slice keeps, by stack, ascending: what a walk has to do (R119). -/
def State.keptByStack (s : State) (n : Nat) : Tbl (List Nat) :=
  let gs := s.grainsWhere (fun e => e.st == .owned && e.owner == n)
  (List.range 8).foldl (fun t k => tset (dflt []) t k (gs.filter (fun g => stackOf g == k))) []

/-- A key set zeroised in all key tables, and the engines' pipelines and read-modify-write buffers with it (R121, R122). -/
def State.zeroiseKey (s : State) (k : Nat) : State :=
  let mine := fun (r : MemReq) => r.keyid == k && (r.phase == .issued || (r.phase == .waiting && r.res == .ok))
  let s := (s.mce.reqs.filter mine).foldl (fun s r => ((s.swapReq r none).lineDone r .error).emit .memDenied [r.id, r.cls.code, r.tag, 0, r.addr] []) s
  s.modKey k KeyE.dead

/-- Grains a walk has left. -/
def Walk.count (w : Walk) : Nat := lsum (w.left.map (fun e => e.2.length))

/-- A slice's walk changed. -/
def State.modWalk (s : State) (n : Nat) (f : Walk → Walk) : State :=
  { s with mce := { s.mce with walks := tmod (dflt none) s.mce.walks n (Option.map f) } }

/-- The request number of a walk's lines. -/
def walkId (n : Nat) : Nat := 2 ^ 41 + n

/-- What a walk's line costs: its read and write and its share of the slot reads and writes, 4,325,376 B a grain (R120), in 1/512 byte. -/
def walkCharge : Nat := 528 * 512

/-- The line at the watermark of engine `eng` in grain `g`, where the walk may take it up: it has no read of its own there, and no request has the line in the engine. -/
def State.walkLine (s : State) (w : Walk) (eng g : Nat) : Option Nat :=
  let line := markLine eng (tget (dflt 0) w.marks eng)
  if decide (tget (dflt 0) w.marks eng < 256) && !w.reads.any (fun r => r.eng == eng)
      && !s.mce.reqs.any (fun r => r.grain == g && r.line == line && (r.phase == .issued || r.rmwHeld)) then some line else none

/-- Slice `n`'s walk goes on at one engine: the line at its watermark is read under the retiring KeyID, if the stack's quarter has its cost. -/
def State.walkAt (s : State) (n eng : Nat) : State :=
  match (if s.mce.fenced then none else tget (dflt none) s.mce.walks n) with
  | none => s
  | some w =>
    match tget (dflt []) w.left (eng / 32) with
    | [] => s
    | g :: _ =>
      if (s.grain g).st != .owned || (s.grain g).owner != n || tget (dflt 0) w.toks (eng / 32) < walkCharge then s
      else match s.walkLine w eng g with
        | none => s
        | some line =>
          let cs := s.cachedSlot n g line
          let s := s.modWalk n (fun w => { w with reads := w.reads ++ [⟨eng, g, line, cs⟩], toks := tmod (dflt 0) w.toks (eng / 32) (· - walkCharge) })
          let s := if cs.isSome then s else s.emit .memIssue [walkId n, g, tagLineOf line, 3, slotEngine g line, 1] []
          s.emit .memIssue [walkId n, g, line, 0, s.dataPort g line] []

/-- Every walk gets its quarter for a tick, what no line could use lost, and its engines go on, each at the line of its watermark (R119, R120). -/
def State.walkTick (s : State) : State :=
  if s.mce.fenced then s else
  s.slices.foldl (fun s d =>
    let n := d.slice
    if (tget (dflt none) s.mce.walks n).isNone then s
    else (List.range 8).foldl (fun s k =>
      let r := s.walkTick512 n k
      let s := s.modWalk n (fun w => if (tget (dflt []) w.left k).isEmpty then w
        else { w with toks := tmod (dflt 0) w.toks k (fun x => min (x + r) (r + walkCharge)) })
      (List.range 32).foldl (fun s e => s.walkAt n (32 * k + e)) s) s) s

/-- A walk's line has come back (R119): a DATA line is written under the new KeyID with a new data tag, a CLEAR or POISONED one is left, and the watermark moves on; a tag
failure with clean ECC halts the device. -/
def State.walkSettle (s : State) (n : Nat) (w : Walk) (x : WalkRead) (tagEcc : Nat) (slot : W64) (dataEcc : Nat) (cipher : List Byte) : State :=
  let s := if tagEcc = 1 || dataEcc = 1 then s.bump R.mceCeccCnt 1 else s
  let s := s.modWalk n (fun w => { w with reads := w.reads.filter (fun y => y != x), marks := tmod (dflt 0) w.marks x.eng (· + 1) })
  (match resolve s.markKey (s.key w.old).keys w.old (x.grain * 2 ^ 21 + x.line * 256) tagEcc slot dataEcc cipher with
   | .plain d => s.storeLine (walkId n) n x.grain x.line w.new d
   | .zeros | .wasPoison => s
   | .poison c => s.poisonLine n x.grain x.line c
   | .poisonTagLine => s.poisonTag n x.grain x.line
   | .halt => s.tagHalt 1 (s.dataPort x.grain x.line) n x.grain x.line).walkAt n x.eng

/-- REKEY_GRAIN_DONE (R119, R121): all 32 engines of `stack` have finished slice `n`'s grain in hand there, and the Binder writes its new
KEYID. When the walk ends the retiring key set is zeroised and a key-retire completion is raised. A grain the slice has lost since is passed over. -/
def execRekeyGrainDone (n stack : Nat) (s : State) : Host.Outcome State Fault Refusal :=
  match tget (dflt none) s.mce.walks n with
  | none => .next s
  | some w =>
    match tget (dflt []) w.left stack with
    | [] => .next s
    | g :: rest =>
      let mine := (s.grain g).st == .owned && (s.grain g).owner == n
      let engs := (List.range 32).map (fun e => 32 * stack + e)
      if mine && !engs.all (fun e => tget (dflt 0) w.marks e == 256) then .next s
      else
        let w' : Walk := { w with left := tset (dflt []) w.left stack rest, marks := w.marks.filter (fun e => !engs.contains e.1) }
        let s := if mine then s.modGrain g (fun e => { e with keyid := w.new }) else s
        let s := { s with mce := { s.mce with walks := tset (dflt none) s.mce.walks n (some w') } }
        if w'.count = 0 then .next ((s.zeroiseKey w.old).raise ⟨7, none, Sub.mce, .keyRetire w.old⟩) else .next s

/-- MEM_RESPONSE (R106): a controller returns the line at address `addr` of request `id`, or of a walk: the tag line's ECC and 32 slots (used where the
slot was not cached), the next tag line's slots where it was fetched with it, the data line's ECC and the ciphertext. A response for no outstanding read, or behind the
fence, is nothing. -/
def execMemResponse (id addr tagEcc : Nat) (tagLine : List W64) (dataEcc : Nat) (cipher : List Byte) (sub : Nat)
    (s : State) : Host.Outcome State Fault Refusal :=
  if s.mce.fenced then .next s else
  match s.mce.reqs.find? (fun r => r.id == id && r.addr == addr && r.phase == .issued) with
  | some r =>
    match r.slot with
    | some v => .next (s.settle r 0 v dataEcc cipher (s.now sub))
    | none =>
      let s := if tagEcc = 2 then s else s.fillSlots r.tag r.grain r.line r.pre tagLine
      .next (s.settle r tagEcc (tagLine.getD (slotOf r.line) 0) dataEcc cipher (s.now sub))
  | none =>
    let n := id - 2 ^ 41
    match (if id < 2 ^ 41 then none else tget (dflt none) s.mce.walks n) with
    | none => .next s
    | some w => match w.reads.find? (fun x => x.grain * 2 ^ 21 + x.line * 256 == addr) with
      | none => .next s
      | some x =>
        match x.slot with
        | some v => .next (s.walkSettle n w x 0 v dataEcc cipher)
        | none => .next (s.walkSettle n w x tagEcc (tagLine.getD (slotOf x.line) 0) dataEcc cipher)

/-- The request number of a load or store that the debug port has core `c` issue (25 R547). -/
def coreReq (c : Nat) : Nat := 2 ^ 40 + c

/-- A load of a halted core has come back: its word is in LDST_DATA (25 R547). -/
def State.coreLoad (s : State) (r : MemReq) : State :=
  if r.write || r.res != .ok || r.cls != .cc || r.id < 2 ^ 40 then s
  else
    let upd : Core → Core := fun x => { x with
      dbg := tset (dflt 0) x.dbg 4 (leNat (slice r.data (tget (dflt 0) x.dbg 3 % 256 / 4 * 4) 4)) }
    { s with ccx := { s.ccx with cores := tmod (dflt Core.init) s.ccx.cores (r.id - 2 ^ 40) upd } }

/-- READ_DELIVERY (11 R257): an answered request is delivered in the first cycle at or after I + 640 ns; a late one when ready. The
time from its arrival decides a miss (11 R260). -/
def execReadDelivery (id addr sub : Nat) (s : State) : Host.Outcome State Fault Refusal :=
  let now := s.now sub
  if s.mce.fenced then .next s else
  match s.mce.reqs.find? (fun r => r.id == id && r.addr == addr && r.phase == .ready) with
  | none => .next s
  | some r =>
    if now < r.issued + 10240 then .next s
    else
      let s := ((s.swapReq r none).lineDone r r.res).emit .memDone [r.id, r.addr, match r.res with | .ok => 0 | .poisoned => 1 | _ => 2] (if r.write then [] else r.data)
      let s := s.coreLoad r
      match s.sdef r.tag with
      | some d =>
        if !r.write && !r.late && d.teff != 0 && d.teff < now - r.arrived then
          .next (s.modAcc r.tag (fun a => { a with misses := a.misses + 1 }))
        else .next s
      | none => .next s

/-! ## Poisonings and the halt, at their effective ticks -/

/-- A line poisoning counted at its effective tick (R112); answers whether it is the grain's ninth. -/
def State.countPoison (s : State) (g : Nat) : State × Bool :=
  let rising := s.rd R.mcePoisonCnt == 0
  let s := s.bump R.mcePoisonCnt 1
  let s := if rising then s.irq 15 else s
  let n := tget (dflt 0) s.bnd.poisonings g + 1
  ({ s with bnd := { s.bnd with poisonings := tset (dflt 0) s.bnd.poisonings g n } }, n == 9 && (s.grain g).st == .owned)

/-! ## Registers -/

def KeySt.code : KeySt → Nat
  | .free => 0 | .active => 1 | .retiring => 2 | .system => 3

/-- The bits of LLY_MCE_KSTAT for a KeyID (R125). -/
def KeyE.pack (e : KeyE) : Nat := e.st.code + 256 * e.owner + 2 ^ 16 * e.dix

/-- MCE_KSEL_WRITE (R125): source `src` selects a KeyID; its state is latched. -/
def State.selKey (s : State) (src k : Nat) : State :=
  let k := k % 2 ^ 16
  (s.wr (srcReg src R.mceKsel) k).wr (srcReg src R.mceKstat) (if k < 1024 then (s.key k).pack else 0)

/-- MCE_KSEL_WRITE. -/
def execMceKselWrite (src k : Nat) (s : State) : Host.Outcome State Fault Refusal :=
  .next (s.gated src R.mceKsel k (fun s => s.selKey src k))

/-- MCE_WSEL_WRITE (R125): source `src` selects a slice; its walk is latched. -/
def State.selWalk (s : State) (src n : Nat) : State :=
  let n := n % 64
  let s := s.wr (srcReg src R.mceWsel) n
  match tget (dflt none) s.mce.walks n with
  | none => (s.wr (srcReg src R.mceWstat) 0).wr (srcReg src R.mceWleft) 0
  | some w => (s.wr (srcReg src R.mceWstat) w.old).wr (srcReg src R.mceWleft) w.count

/-- MCE_WSEL_WRITE (R125). -/
def execMceWselWrite (src n : Nat) (s : State) : Host.Outcome State Fault Refusal :=
  .next (s.gated src R.mceWsel n (fun s => s.selWalk src n))

/-- Cached slots of grains that satisfy `p` dropped: memory has been written ahead of them (R104, R123). -/
def State.forgetTags (s : State) (p : Nat → Bool) : State :=
  { s with mce := { s.mce with tagc := tmap (dflt []) s.mce.tagc (fun _ l => l.filter (fun t => !p t.grain)) } }

/-- INTERLEAVE_MARKER_WRITE_DONE (R123): the engines have written Z(a) into every slot of the system tag's OWNED grains; its requests go on. -/
def execInterleaveMarkerWriteDone (s : State) : Host.Outcome State Fault Refusal :=
  if s.mce.remark then
    let gs := s.grainsWhere (fun e => e.st == .owned && e.owner == 0xFF)
    let s := gs.foldl (fun s g => s.emit .memFill [0xFF, 0xFF, g, 0, 8192, 0] []) (s.forgetTags gs.contains)
    .next { s with mce := { s.mce with remark := false } }.releaseHeld
  else .next s

end Sys2Proof.Machine
end

