-- ==== Sys2Proof/Machine/Buffers.lean ====
section
/-! DEFINITION. Shared buffers, host credits and host accesses, fabric credits, and conservation (12; the HIF rules of 25 R532–R534). -/

namespace Sys2Proof.Machine

/-! ## Buffer channels (R271–R274) -/

/-- A holder's key in a channel; the system tag is holder 255. -/
def chKey (ch holder : Nat) : Nat := 256 * ch + holder

/-- What a holder has in a channel. -/
def State.bufUse (s : State) (ch h : Nat) : TplUse := tget (dflt ⟨0, 0⟩) s.tpl.use (chKey ch h)

/-- The same changed. -/
def State.modUse (s : State) (ch h : Nat) (f : TplUse → TplUse) : State :=
  { s with tpl := { s.tpl with use := tmod (dflt ⟨0, 0⟩) s.tpl.use (chKey ch h) f } }

/-- MIN and BORROW of a channel (R271). -/
def State.chMin (s : State) (ch : Nat) : Nat := s.rf (R.tplCh + 4 * ch) 14 0
def State.chBorrow (s : State) (ch : Nat) : Nat := s.rf (R.tplCh + 4 * ch) 27 16

/-- The owner of host grant `g` (R275). -/
def State.grantOwner (s : State) (g : Nat) : Nat := s.rf (R.tplHgrant + 4 * (g / 2)) (8 * (g % 2) + 7) (8 * (g % 2))

/-- How many host grants a slice owns (R275). -/
def State.grantsOf (s : State) (n : Nat) : Nat := ((List.range 64).filter (fun g => s.grantOwner g == n)).length

/-- The flit slots of slice `n` on port `p` and VC `v` (R273). -/
def State.slotPart (s : State) (p v n : Nat) : Nat :=
  match s.sdef n with
  | some d => if bit d.fabMask p then 16 * s.chMin (8 * p + v) * d.fabRes / 64 else 0
  | none => 0

/-- The flit slots left for the system tag there (R273). -/
def State.slotRest (s : State) (p v : Nat) : Nat :=
  16 * s.chMin (8 * p + v) - lsum (s.slices.map (fun d => s.slotPart p v d.slice))

/-- A holder's part of a channel, in buffers (R273); of a fabric channel its slots in whole buffers. -/
def State.bufPart (s : State) (ch h : Nat) : Nat :=
  let m := s.chMin ch
  if ch < 64 then (if h < 64 then ceilDiv (s.slotPart (ch / 8) (ch % 8) h) 16 else ceilDiv (s.slotRest (ch / 8) (ch % 8)) 16)
  else if ch < 96 then
    let c := ch - 64
    (if s.grantOwner (2 * c) == h then ceilDiv m 2 else 0) + (if s.grantOwner (2 * c + 1) == h then m / 2 else 0)
  else
    m / 16 * ((List.range 16).filter (fun j => s.posOwner (16 * (ch - 96) + j) == h)).length

/-- Buffers a channel's holders have, held or returning (R274). -/
def State.chUsed (s : State) (ch : Nat) : Nat :=
  lsum ((s.tpl.use.filter (fun e => e.1 / 256 == ch)).map (fun e => e.2.held + e.2.returning))

/-- Buffers borrowed on a channel by the system tag (R272). -/
def State.borrowed (s : State) (ch : Nat) : Nat :=
  let u := s.bufUse ch 255
  u.held + u.returning - s.bufPart ch 255

/-- Whether a holder may take one more buffer of a channel (R272, R273). -/
def State.canTake (s : State) (ch h : Nat) : Bool :=
  let u := s.bufUse ch h
  if s.tpl.free = 0 then false
  else if u.held + u.returning < s.bufPart ch h then true
  else h == 255 && decide (s.borrowed ch < s.chBorrow ch) &&
    decide (lsum ((List.range 112).map s.borrowed) + lsum ((List.range 112).map s.chMin) < 16384)

/-- A buffer taken. -/
def State.takeBuf (s : State) (ch h : Nat) : State :=
  let s := s.modUse ch h (fun u => { u with held := u.held + 1 })
  { s with tpl := { s.tpl with free := s.tpl.free - 1 } }

/-- A buffer given back: it is returning until it has been zeroed (R274). -/
def State.giveBuf (s : State) (ch h : Nat) : State :=
  s.modUse ch h (fun u => if u.held = 0 then u else ⟨u.held - 1, u.returning + 1⟩)

/-- BUFFER_ZEROED (R274): a returning buffer of holder `h` on channel `ch` has been zeroed and joins the free list. -/
def execBufferZeroed (ch h : Nat) (s : State) : Host.Outcome State Fault Refusal :=
  let ch := ch % 112
  let h := h % 256
  if (s.bufUse ch h).returning = 0 then .next s
  else
    let s := s.modUse ch h (fun u => { u with returning := u.returning - 1 })
    .next { s with tpl := { s.tpl with free := s.tpl.free + 1 } }

/-! ## Host accesses (R276, 25 R534) -/

/-- Uses that move slice data and need a transit buffer, with the channels they take it from (R271, R275). -/
def HostUse.chans : HostUse → List Nat
  | .dmaRead | .dmaWrite | .image | .fw => (List.range 32).map (64 + ·)
  | .huskF | .huskT | .huskPut => (List.range 16).map (96 + ·)
  | _ => []

/-- The holder an access's buffers belong to: its slice, or the system tag for image and firmware loads (R275). -/
def HostAcc.holder (a : HostAcc) : Nat := match a.use with | .image | .fw => 255 | _ => a.sl

/-- Uses that wait, and are not discarded, while their function is absent or in ERROR (17 R369): reads and data writes. -/
def HostAcc.patient (a : HostAcc) : Bool := !a.write || a.use == .dmaWrite || a.use == .huskPut

/-- Whether an access is one of a slice's own transfers, which a contained slice's host channels do not issue (22 R471). -/
def HostUse.ofSlice : HostUse → Bool
  | .ring | .completion | .glist | .dmaRead | .dmaWrite | .huskF | .huskT | .huskPut => true
  | _ => false

/-- Uses whose transfers stop on the way into DEEP (23 R509). -/
def HostUse.moves : HostUse → Bool
  | .dmaRead | .dmaWrite | .huskF | .huskT | .huskPut => true
  | _ => false

/-- Bytes the fetch channels have granted a husk transfer (09 R203). -/
def State.huskGrant (s : State) (a : HostAcc) : Nat :=
  match a.use with
  | .huskPut => ((s.pcm.jobs.find? (fun j => j.sl == a.sl && j.pod == a.a && !j.rebase && j.started)).map PodJob.moved).getD 0
  | _ => ((s.pcm.fetches.find? (fun f => f.sl == a.sl && f.pod == a.a && f.secT == (a.use == .huskT) && f.stage != 4)).map Fetch.moved).getD 0

/-- Whether an access may send its next request, and from which buffer channel (112: it needs none). Behind the fence of a halt mailbox ring
traffic alone moves (05 R114, 18 R390). -/
def State.mayIssue (s : State) (a : HostAcc) : Option Nat :=
  let n := min 4096 (a.len - a.sent)
  if a.len ≤ a.sent || !s.tpl.hostUp || s.tpl.hostHeld = 0 || decide (4096 ≤ s.tpl.reqs.length) then none
  else if a.patient && s.withheld a.fn then none
  else if a.use.ofSlice && s.contained a.sl then none
  else if (a.use.ofSlice || a.use == .image) && !bit (s.rd R.audStatus) 8 then none
  else if (a.use == .dmaRead || a.use == .dmaWrite) && decide (a.budget < n) then none
  else if (a.use == .huskF || a.use == .huskT || a.use == .huskPut) && decide (s.huskGrant a < a.sent + n) then none
  else if s.src.deep != 0 && a.use.moves then none
  else if s.mce.fenced && !(a.use == .mbxRing || a.use == .mbxCpl) then none
  else match a.use.chans with
    | [] => some 112
    | l => l.find? (fun ch => s.canTake ch a.holder)

/-- An access sends one request: a credit is consumed, and a transit buffer where it needs one (R276). A write's buffer is free once the
HIF has taken its bytes. -/
def State.issueReq (s : State) (a : HostAcc) (ch : Nat) : State :=
  let n := min 4096 (a.len - a.sent)
  let r : HostReq := ⟨s.tpl.nextTag, a.id, a.sent, n, if a.write then 112 else ch⟩
  let t : Tpl := { s.tpl with
    hostHeld := s.tpl.hostHeld - 1, hostUsed := s.tpl.hostUsed + 1, reqs := s.tpl.reqs ++ [r],
    nextTag := (s.tpl.nextTag + 1) % 4096,
    accs := lmod s.tpl.accs (fun x => x.id == a.id) (fun x => { x with sent := x.sent + n, budget := x.budget - n }) }
  let s := { s with tpl := t }
  let s := if ch < 112 then s.takeBuf ch a.holder else s
  if a.write then
    let s := s.emit .hostWrite [a.fn, a.addr + a.sent, r.tag] (slice a.data a.sent n)
    if ch < 112 then s.giveBuf ch a.holder else s
  else s.emit .hostRead [a.fn, a.addr + a.sent, n, r.tag] []

/-- Every access sends what it may, oldest access first; one access sends at most `fuel` requests at a time. -/
def State.pumpAcc (s : State) (id : Nat) : Nat → State
  | 0 => s
  | fuel + 1 =>
    match s.tpl.accs.find? (fun a => a.id == id) with
    | none => s
    | some a => match s.mayIssue a with
      | none => s
      | some ch => (s.issueReq a ch).pumpAcc id fuel

/-- HOST_PUMP: requests leave in the order in which their accesses were made (R276). -/
def State.pumpHost (s : State) : State :=
  s.tpl.accs.foldl (fun s a => s.pumpAcc a.id 4096) s

/-- A host access made. A read, or a patient write, waits for credits and for its function; any other write of a function that is
absent, in ERROR or of another generation is discarded and counted (17 R369, R372). -/
def State.access (s : State) (use : HostUse) (sl a b f gen : Nat) (write : Bool) (addr len : Nat) (data : List Byte) : State :=
  let acc : HostAcc := ⟨s.tpl.nextAcc, use, sl, a, b, f, gen, write, addr, len, 0, 0, data, 0⟩
  if write && !acc.patient && !s.mayWrite f gen then s.stale f
  else
    let s := { s with tpl := { s.tpl with nextAcc := s.tpl.nextAcc + 1, accs := s.tpl.accs ++ [acc] } }
    s.pumpAcc acc.id 4096

/-- A read of host memory (R276). -/
def State.hostRead (s : State) (use : HostUse) (sl a b f gen addr len : Nat) : State := s.access use sl a b f gen false addr len []

/-- A write to host memory (R276). -/
def State.hostWrite (s : State) (use : HostUse) (sl a b f gen addr : Nat) (d : List Byte) : State :=
  s.access use sl a b f gen true addr d.length d

/-- Accesses satisfying `p` are dropped with their requests; the requests' buffers are given back. Their credits come back with the
controller's answers. -/
def State.dropAccs (s : State) (p : HostAcc → Bool) : State :=
  let gone := s.tpl.accs.filter p
  let ids := gone.map HostAcc.id
  let rs := s.tpl.reqs.filter (fun r => ids.contains r.acc)
  let s := rs.foldl (fun s r =>
    match gone.find? (fun a => a.id == r.acc) with
    | some a => if r.chan < 112 then s.giveBuf r.chan a.holder else s
    | none => s) s
  { s with tpl := { s.tpl with accs := s.tpl.accs.filter (fun a => !p a), reqs := s.tpl.reqs.filter (fun r => !ids.contains r.acc) } }

/-- What the answer to a request means to its access. -/
inductive Answer
  | nothing
  | more (a : HostAcc) (off : Nat) (data : List Byte)
  | done (a : HostAcc)
  | failed (a : HostAcc)
deriving DecidableEq, Repr

/-- The request with tag `tag` answered with status `stat` and, for a read, its data (25 R534). A nonzero status fails the whole access;
its other requests are dropped with it. Answers with the state and what the access has come to. -/
def State.answerReq (s : State) (tag stat : Nat) (data : List Byte) : State × Answer :=
  match s.tpl.reqs.find? (fun r => r.tag == tag) with
  | none => (s, .nothing)
  | some r =>
    let s1 := { s with tpl := { s.tpl with reqs := s.tpl.reqs.filter (fun x => x.tag != tag) } }
    match s1.tpl.accs.find? (fun a => a.id == r.acc) with
    | none => (s1, .nothing)
    | some a =>
      let s2 := if r.chan < 112 then s1.giveBuf r.chan a.holder else s1
      if stat != 0 then (s2.dropAccs (fun x => x.id == a.id), .failed a)
      else
        let d := slice data 0 r.len
        let a' : HostAcc := { a with back := a.back + r.len, data := if a.write then a.data else putAt (slice a.data 0 (max a.data.length r.off)) r.off d }
        if a.len ≤ a'.back then ({ s2 with tpl := { s2.tpl with accs := s2.tpl.accs.filter (fun x => x.id != a.id) } }, .done a')
        else ({ s2 with tpl := { s2.tpl with accs := lmod s2.tpl.accs (fun x => x.id == a.id) (fun _ => a') } }, .more a' r.off d)

/-- HOST_CREDIT_RETURN (R276): the controller returns `n` request credits; accesses that waited for one go on. -/
def execHostCreditReturn (n : Nat) (s : State) : Host.Outcome State Fault Refusal :=
  .next ({ s with tpl := { s.tpl with hostHeld := s.tpl.hostHeld + n, hostUsed := s.tpl.hostUsed - n } }.pumpHost)

/-- HOST_LINK_UP (25 R532): the link comes up with `init` credits, 1–4,096, or falls, which discards every credit. -/
def execHostLinkUp (up : Bool) (init : Nat) (s : State) : Host.Outcome State Fault Refusal :=
  if up = s.tpl.hostUp then .next s
  else if up then
    .next ({ s with tpl := { s.tpl with hostUp := true, hostGiven := init, hostHeld := init, hostUsed := 0 } }.pumpHost)
  else .next { s with tpl := { s.tpl with hostUp := false, hostGiven := 0, hostHeld := 0, hostUsed := 0 } }

/-! ## Fabric credits (R277) -/

/-- The key of a holder's credits on a port's link and VC. -/
def fabKey (p l v h : Nat) : Nat := ((4 * p + l) * 8 + v) * 256 + h

def State.fab (s : State) (p l v h : Nat) : FabCred := tget (dflt ⟨0, 0, 0, 0, 0, 0, 0⟩) s.tpl.fab (fabKey p l v h)

def State.modFab (s : State) (p l v h : Nat) (f : FabCred → FabCred) : State :=
  { s with tpl := { s.tpl with fab := tmod (dflt ⟨0, 0, 0, 0, 0, 0, 0⟩) s.tpl.fab (fabKey p l v h) f } }

/-! ## Conservation (R278–R282) -/

/-- KeyIDs by state (05 R116): FREE, ACTIVE, RETIRING, SYSTEM. -/
def State.keyCounts (s : State) : List Nat :=
  let n := fun st => (tkeys s.mce.keys (fun _ e => e.st == st)).length
  [1024 - (n .active + n .retiring + n .system), n .active, n .retiring, n .system]

/-- The identities of R278 in table order: bit `i` is set where identity `i` fails. -/
def State.auditFails (s : State) : Nat :=
  let used := lsum ((List.range 112).map s.chUsed)
  let f := fun (i : Nat) (ok : Bool) => if ok then 0 else 2 ^ i
  f 0 (s.tpl.free + used == 16384 && (List.range 112).all (fun ch => s.chUsed ch == 0 || decide (s.chUsed ch ≤ s.chMin ch + s.chBorrow ch)
      || (s.tpl.use.filter (fun e => e.1 / 256 == ch)).any (fun e => decide (s.bufPart ch (e.1 % 256) < e.2.held + e.2.returning))))
  + f 1 (s.tpl.fab.all (fun e => e.2.rxAdv == e.2.rxPartner + e.2.rxOcc + e.2.rxRet && e.2.txGranted == e.2.txHeld + e.2.txOut))
  + f 2 (s.tpl.hostGiven == s.tpl.hostHeld + s.tpl.hostUsed)
  + f 3 (s.bwr.regs.all (fun e => e.2.filled == e.2.charged + e.2.lost + e.2.bucket))
  + f 4 (lsum s.grainCounts == nGrains)
  + f 5 (lsum s.keyCounts == 1024 && s.keyCounts.getD 3 0 == 1 &&
      s.slices.all (fun d => (tkeys s.mce.keys (fun _ e => e.st == .active && e.owner == d.slice)).length == 1))
  + f 7 (s.dpa.queues.all (fun e => match e.2 with
      | none => true
      | some q => q.submitted == q.admitted + q.refused + q.owed && decide (q.completed + q.cancelled ≤ q.admitted)
          && decide (q.admitted ≤ q.completed + q.cancelled + q.depth)))

/-- The sum LLY_AUD_SEL selects (R282). -/
def State.auditSum (s : State) (lcUsed lcLeft k : Nat) : Nat :=
  if k < 5 then s.grainCounts.getD k 0
  else if k = 5 then s.tpl.free
  else if k = 6 then lsum ((List.range 112).map s.chUsed)
  else if k < 10 then s.keyCounts.getD (k - 7) 0
  else if k = 10 then lcUsed
  else if k = 11 then lcLeft
  else 0

end Sys2Proof.Machine
end

