-- ==== Sys2Proof/Machine/QueueOps.lean ====
section
/-! DEFINITION. Rings, turns, completions and job counts of the hardware queues (10 R224–R228, R246). -/

namespace Sys2Proof.Machine

/-- Whether a queue is of a kind. -/
def Queue.isKind (q : Queue) (k : QKind) : Bool := q.kind == k

/-- The queues of a slice: (local number, queue), ascending. -/
def State.queuesOf (s : State) (sl : Nat) : List (Nat × Queue) :=
  s.dpa.queues.filterMap (fun e => if e.1 / 4096 = sl then e.2.map (fun q => (e.1 % 4096, q)) else none)

/-- Every queue: (slice, local number, queue). -/
def State.allQueues (s : State) : List (Nat × Nat × Queue) :=
  s.dpa.queues.filterMap (fun e => e.2.map (fun q => (e.1 / 4096, e.1 % 4096, q)))

/-- The mark of an entry: the first entry its doorbell admitted, that doorbell's place in class 11 order, and the JGEN then in force. -/
def Queue.markOf (q : Queue) (entry : Nat) : Nat × Nat × Nat :=
  q.marks.foldl (fun m x => if x.1 ≤ entry then x else m) (0, 0, q.jgen)

/-- An entry's place in admission order (R175). -/
def Queue.orderOf (q : Queue) (entry : Nat) : Nat := let m := q.markOf entry; 4096 * m.2.1 + (entry - m.1)

/-- The JGEN an entry's completion carries (20 R441). -/
def Queue.jgenOf (q : Queue) (entry : Nat) : Nat := (q.markOf entry).2.2

/-- The release point after entries up to `fuel` more have been released. -/
def relAfter (closed : List Nat) (rel : Nat) : Nat → Nat
  | 0 => rel
  | k + 1 => if closed.contains rel then relAfter closed (rel + 1) k else rel

/-- An entry completed or cancelled: it is released when every earlier one has been (R225). -/
def Queue.close (q : Queue) (entry : Nat) : Queue :=
  let closed := if q.closed.contains entry then q.closed else q.closed ++ [entry]
  let rel := relAfter closed q.rel closed.length
  { q with closed := closed.filter (fun e => rel ≤ e), rel := rel,
           marks := (q.marks.filter (fun m => decide (rel < m.1))).foldl (fun l m => l ++ [m]) [q.markOf rel] }

/-- The queue stands empty of descriptors: it may vanish if it is being destroyed (R371, 20 R441). -/
def Queue.idle (q : Queue) : Bool := q.rel == q.tail

/-- A dying queue whose last descriptor has ended is destroyed and its QUEUE_DESTROY commands complete. -/
def State.reapQueue (s : State) (sl q : Nat) : State :=
  match s.queue sl q with
  | none => s
  | some x =>
    if (x.dying || x.stopped) && x.idle then
      let s := { s with dpa := { s.dpa with queues := tset (dflt none) s.dpa.queues (qkey sl q) none } }
      let s := s.dropAccs (fun a => a.use == .ring && a.sl == sl && a.a == q)
      x.destroy.foldl (fun s c => s.finish (some c) Status.ok 0 []) s
    else s

/-- The Dispatch assist reads the descriptor at its turn as the slice's VF (R223, R227); a DMA queue reads the next one once the transfer
before it has ended (R231). -/
def State.readTurn (s : State) (sl q : Nat) : State :=
  match s.queue sl q, s.vfOf sl with
  | some x, some v =>
    if x.turn < x.tail && !x.reading && x.fetched.isNone && !x.joinHeld && !x.stopped && !x.dying
        && !s.dpa.dmas.any (fun d => d.sl == sl && d.queue == q) then
      (s.modQueue sl q (fun x => { x with reading := true })).hostRead .ring sl q x.turn v x.gen (x.sqAddr + 128 * (x.turn % x.depth)) 128
    else s
  | _, _ => s

/-- The turn passes to the next entry (R227). -/
def State.nextTurn (s : State) (sl q : Nat) : State :=
  (s.modQueue sl q (fun x => { x with turn := x.turn + 1, fetched := none, waitPods := [], waitFdid := none, podFail := 0 })).readTurn sl q

/-- A 32-byte completion of R232. -/
def cplBytes (status op q jgen cluster taskId count aux entry seq : Nat) : List Byte :=
  leBytes 1 status ++ leBytes 1 (1 + 16 * (op % 8)) ++ leBytes 2 q ++ leBytes 2 jgen ++ leBytes 1 cluster ++ leBytes 1 0
    ++ leBytes 8 taskId ++ leBytes 4 count ++ leBytes 4 (min aux 0xFFFFFFFF) ++ leBytes 4 entry ++ leBytes 4 seq

/-- A completion joins those waiting to be written to their queue's ring (R228). -/
def State.queueCpl (s : State) (sl q entry : Nat) (irq : Bool) (taskId : Nat) (d : List Byte) : State :=
  { s with dpa := { s.dpa with cpls := s.dpa.cpls ++ [⟨sl, q, entry, irq, taskId, d⟩] } }

/-- A RUN, JOIN, LEAVE or DMA descriptor completes (R232). -/
def State.complete (s : State) (sl q entry status cluster count aux : Nat) (desc : List Byte) (op seq : Nat) : State :=
  match s.queue sl q with
  | none => s
  | some x =>
    let tid := fieldAt desc 8 8
    s.queueCpl sl q entry (bit (fieldAt desc 2 1) 1) tid
      (cplBytes status op q (x.jgenOf entry) cluster tid count aux (entry % x.depth) seq)

/-- An entry ends without a completion: CANCELLED rises and it is released (R246). -/
def State.cancelEntry (s : State) (sl q entry : Nat) : State :=
  (s.modQueue sl q (fun x => { (x.close entry) with cancelled := x.cancelled + 1 })).reapQueue sl q

/-- A HOST_ERROR record of scope TASK written to a slice, naming the queue and the descriptor's TASK_ID, the requester class and the host
address (22 R466, R469, R477). -/
def State.hostError (s : State) (sl q taskId cls addr : Nat) : State :=
  s.raiseFault Sub.dpa (some sl) { FaultEv.base 0x12 1 [sl] with
    queue := q, taskId := taskId, sub := cls, db := addr % 2 ^ 32, dc := addr / 2 ^ 32,
    jgen := (s.queue sl q).elim 0 Queue.jgen }

/-- A descriptor at its turn: its bytes, once read. -/
def State.atTurn (s : State) (sl q : Nat) (k : QKind) : Option (Queue × List Byte) :=
  match s.queue sl q with
  | none => none
  | some x =>
    if s.contained sl || x.kind != k || x.joinHeld || x.stopped || x.dying || !(x.turn < x.tail) then none
    else match x.fetched with
      | none => none
      | some d => some (x, d)

/-- Every earlier descriptor of the queue has completed (R227): its completion has been written, or stands with those to be written, in the order in which
descriptors complete (R228; DEDUCED, log 83). -/
def State.fenceMet (s : State) (sl n : Nat) (q : Queue) : Bool :=
  (List.range (q.turn - q.rel)).all (fun i => q.closed.contains (q.rel + i)
    || s.dpa.cpls.any (fun c => c.sl == sl && c.queue == n && c.entry == q.rel + i))

/-- A fold descriptor that fails at its turn (08 R165, R187): a completion in its own layout and nothing else. -/
def State.foldFail (s : State) (sl q : Nat) (x : Queue) (d : List Byte) (status : Nat) : State :=
  (s.queueCpl sl q x.turn false (fieldAt d 8 8) (leBytes 1 status ++ leBytes 1 (1 + 16 * (fieldAt d 0 1 % 8)) ++ leBytes 2 (fieldAt d 2 2)
    ++ leBytes 4 0 ++ leBytes 8 (fieldAt d 8 8) ++ leBytes 16 0)).nextTurn sl q

/-- A descriptor that fails its checks completes with the failing status and has no other effect (R227). -/
def State.failTurn (s : State) (sl q : Nat) (x : Queue) (d : List Byte) (status op : Nat) : State :=
  if x.kind == .fold then s.foldFail sl q x d status
  else (s.complete sl q x.turn status 0xFF 0 0 d op (if x.kind == .task && (op = 2 || op = 3) then fieldAt d 0x18 4 else 0)).nextTurn sl q

/-- Whether bytes `lo` to `hi − 1` are all zero. -/
def zeroIn (d : List Byte) (lo hi : Nat) : Bool := (slice d lo (hi - lo)).all (· == 0)

/-- The queue's completion head as the driver writes it (LLY_DPA_CQH_q): the count it stands for. -/
def Queue.seenBy (q : Queue) (h : Nat) : Nat :=
  if q.depth = 0 then q.cqSeen else if q.depth = 1 then q.cqTail else
  let adv := (h + q.depth - q.cqSeen % q.depth) % q.depth
  if q.cqSeen + adv ≤ q.cqTail then q.cqSeen + adv else q.cqSeen

/-- LLY_DPA_CQH_q of VF `v` written (R228): the completion head of queue `q` advances; values at or above DEPTH are ignored. -/
def State.writeCqh (s : State) (v q h : Nat) : State :=
  match s.presents v with
  | none => s
  | some n =>
    let h := h % 4096
    match s.queue n q with
    | none => s
    | some x => if h < x.depth then (s.wr (vfReg v (V.dpaCqh + 8 * q)) h).modQueue n q (fun x => { x with cqSeen := x.seenBy h }) else s

/-- DPA_CQH_WRITE (R228). -/
def execDpaCqhWrite (v q h : Nat) (s : State) : Host.Outcome State Fault Refusal :=
  .next (s.gatedVf v (V.dpaCqh + 8 * (q % 4096)) h (fun s => s.writeCqh v (q % 4096) h))

/-- The oldest waiting completion of queue `q` of slice `n` is written where its ring has room, or discarded where its generation is no longer
current or its function absent (R228, 17 R369, R372); `err`: the host answers the write with an error, and the completion is lost. Either way
the descriptor counts as completed and its entry is released; a written one with IRQ signals VECTOR. -/
def State.writeCpl (s : State) (n q : Nat) (err : Bool) : State :=
  match s.queue n q, s.dpa.cpls.find? (fun c => c.sl == n && c.queue == q) with
  | some x, some c =>
    if x.depth ≤ x.cqTail - x.cqSeen then s
    else
      let live := match s.vfOf n with | some v => s.mayWrite v x.gen | none => false
      if live && (!s.tpl.hostUp || s.tpl.hostHeld = 0) then s
      else
        let s := { s with dpa := { s.dpa with cpls := s.dpa.cpls.erase c } }
        let v := (s.vfOf n).getD pf0
        let s := if live then
            { s with tpl := { s.tpl with hostHeld := s.tpl.hostHeld - 1, hostUsed := s.tpl.hostUsed + 1 } }.emit .hostWrite
              [v, x.cqAddr + 32 * (x.cqTail % x.depth)] c.data
          else if (s.vfOf n).isSome then s.stale v else s
        let s := s.modQueue n q (fun x => { (x.close c.entry) with completed := x.completed + 1, cqTail := if live && !err then x.cqTail + 1 else x.cqTail })
        let s := if live && err then s.hostError n q c.taskId RClass.hd.code (x.cqAddr + 32 * (x.cqTail % x.depth))
          else if live && c.irq then s.signal v x.gen x.vector else s
        s.reapQueue n q
  | _, _ => s

/-- COMPLETION_WRITE (R228): the oldest waiting completion of a queue is written. None is during a block reset: those wait for the audit after it
(22 R491); none is behind the fence of a halt (05 R114). -/
def execCompletionWrite (n q : Nat) (err : Bool) (s : State) : Host.Outcome State Fault Refusal :=
  if s.flt.block != 0 || s.mce.fenced then .next s else .next (s.writeCpl n q err)

/-- A queue's latched status (LLY_DPA_QSTAT). -/
def State.qstat (s : State) (n q : Nat) : Nat :=
  match s.queue n q with
  | none => 0
  | some x =>
    (if s.contained n then 2 else 1) + 4 * x.prio + (if x.preemptTask then 16 else 0)
      + 32 * (match x.kind with | .task => 1 | .fold => 2 | .dma => 3) + (if x.baddb then 128 else 0)
      + 256 * (x.rel % x.depth) + 2 ^ 20 * (x.dbst % 256)

/-- LLY_DPA_QSEL of VF `v` written (R250): the queue's status and counts are latched together. A number the slice does not hold latches zeros. -/
def State.selQueue (s : State) (v q : Nat) : State :=
  match s.presents v with
  | none => s
  | some n =>
    let q := q % 4096
    let cs := match s.queue n q with
      | some x => [x.submitted, x.admitted, x.refused, x.completed, x.cancelled]
      | none => [0, 0, 0, 0, 0]
    let s := (s.wr (vfReg v V.dpaQsel) q).wr (vfReg v V.dpaQstat) (s.qstat n q)
    (List.range 5).foldl (fun s i =>
      (s.wr (vfReg v (V.dpaCnt + 8 * i)) (cs.getD i 0)).wr (vfReg v (V.dpaCnt + 8 * i + 4)) (cs.getD i 0 / 2 ^ 32)) s

/-- QSEL_WRITE (R250). -/
def execQselWrite (v q : Nat) (s : State) : Host.Outcome State Fault Refusal :=
  .next (s.gatedVf v V.dpaQsel q (fun s => s.selQueue v q))

/-- LLY_DPA_DB_q of VF `v` written with COUNT (R225, R226): an event of class 11. COUNT 0 has no effect; COUNT above 4,096, or a number the slice does
not hold, or a queue of an old generation (17 R371), is dropped with BADDB set where the queue exists. Under reset doorbells are dropped (17 R376). -/
def State.writeDoorbell (s : State) (v q count : Nat) : State :=
  let count := count % 8192
  match s.presents v with
  | none => s
  | some n =>
    if count = 0 || (s.fn v).reset then s
    else match s.queue n q with
      | none => s
      | some x =>
        if 4096 < count || x.stopped then s.modQueue n q (fun x => { x with baddb := true })
        else s.raise ⟨11, some n, Sub.dpa, .doorbell n q count⟩

/-- DOORBELL (R225): VF `v` writes COUNT to the doorbell of queue `q`; a VF without a slice drops it (17 R369). -/
def execDoorbell (v q count : Nat) (s : State) : Host.Outcome State Fault Refusal :=
  .next (s.gatedVf v (V.dpaDb + 8 * (q % 4096)) count (fun s => s.writeDoorbell v (q % 4096) count))

/-- The outcome of a doorbell at its stamp (R225): how many descriptors are admitted, against the queue as the events before left it. -/
def State.doorbellGrant (s : State) (n q count : Nat) : Option Nat :=
  match s.queue n q with
  | some x => if x.dying || x.stopped then none else some (min count (x.depth - (x.tail - x.rel)))
  | none => none

/-- The descriptors of a doorbell count as submitted (R225, 02 R39). -/
def State.doorbellSubmit (s : State) (n q count : Nat) : State :=
  s.modQueue n q (fun x => { x with submitted := x.submitted + count, owed := x.owed + count })

/-- A doorbell counted as submitted takes effect (R225, R246): counts rise, the tail advances, DBST shows the outcome, and a refusal signals REFUSE once (17 R374).
A queue stopped meanwhile admits none. -/
def State.doorbellEffect (s : State) (n q count got : Nat) : State :=
  match s.queue n q with
  | none => s
  | some x =>
    if x.stopped then s.modQueue n q (fun x => { x with baddb := true, refused := x.refused + count, owed := x.owed - count })
    else
      let order := s.fld.nextOrder
      let s := { s with fld := { s.fld with nextOrder := order + 1 } }
      let s := s.modQueue n q (fun x => { x with
        owed := x.owed - count, admitted := x.admitted + got, refused := x.refused + (count - got), tail := x.tail + got,
        marks := if got = 0 then x.marks else x.marks ++ [(x.tail, order, x.jgen)],
        dbst := if got < count then Status.queueFull else Status.ok })
      let s := if got < count then
          let s := { s with dpa := { s.dpa with refusals := tmod (dflt 0) s.dpa.refusals n (· + (count - got)) } }
          match s.vfOf n with | some v => s.hfpEvt v 0 | none => s
        else s
      s.readTurn n q

/-- REFUSALS (R248): while any queue of slice `n` refuses, one record per 3,906,250 tk carries the refusals of the period. -/
def execRefusals (n : Nat) (s : State) : Host.Outcome State Fault Refusal :=
  let k := tget (dflt 0) s.dpa.refusals n
  let last := tget (dflt 0) s.dpa.lastRef n
  if k = 0 || s.spn.tick < last + 3906250 then .next s
  else
    let s := s.offer 0 0x42 s.spn.tick n 0 0 [k]
    .next { s with dpa := { s.dpa with refusals := tset (dflt 0) s.dpa.refusals n 0, lastRef := tset (dflt 0) s.dpa.lastRef n s.spn.tick } }

end Sys2Proof.Machine
end

