-- ==== Sys2Proof/Machine/Pods.lean ====
section
/-! DEFINITION. Pods and the pod cache (09): the pod table and its transitions, the pod space and the shelf, husks and their checks,
fetches, promotions, evictions, slots and experts. -/

namespace Sys2Proof.Machine

/-! ## The pod table -/

/-- The key of a pod of a slice. -/
def podKey (sl h : Nat) : Nat := sl * 2 ^ 32 + h

/-- A pod-table entry. -/
def State.pod (s : State) (sl h : Nat) : Option Pod := tget (dflt none) s.pcm.pods (podKey sl h)

/-- A pod-table entry written. -/
def State.setPod (s : State) (sl h : Nat) (p : Option Pod) : State :=
  { s with pcm := { s.pcm with pods := tset (dflt none) s.pcm.pods (podKey sl h) p } }

/-- A pod-table entry changed, where it exists. -/
def State.modPod (s : State) (sl h : Nat) (f : Pod → Pod) : State := s.setPod sl h ((s.pod sl h).map f)

/-- The pods of a slice: (handle, entry), ascending. -/
def State.podsOf (s : State) (sl : Nat) : List (Nat × Pod) :=
  s.pcm.pods.filterMap (fun e => if e.1 / 2 ^ 32 = sl then e.2.map (fun p => (e.1 % 2 ^ 32, p)) else none)

/-- The pods named by a fold descriptor (08 R167, R169). -/
def Pass.pods (p : Pass) : List Nat :=
  match p.kind with
  | .inFlight => (List.range (fieldAt p.desc 0x11 1 % 32)).map (fun v => fieldAt p.desc (0x28 + 4 * v) 4)
  | .copy => [fieldAt p.desc 0x28 4]
  | .step => [fieldAt p.desc 0x10 4]
  | .reduce => []

/-- Whether a pass, a put or a rebase holds a pod (R199). -/
def State.podHeld (s : State) (sl h : Nat) : Bool :=
  s.fld.passes.any (fun p => p.sl == sl && p.pods.contains h) || s.pcm.jobs.any (fun j => j.sl == sl && j.pod == h)

/-- A pod's slot and expert bindings (R197). -/
def State.bindings (s : State) (sl h : Nat) : Nat :=
  (s.pcm.slots.filter (fun e => e.1 / 256 == sl && e.2 == some h)).length
    + (s.pcm.experts.filter (fun e => e.1 / 16 / 65536 == sl && e.2 == some h)).length

/-- A pod used now, for the least-recently-used order of R208. -/
def State.touchPod (s : State) (sl h : Nat) : State :=
  let s := { s with pcm := { s.pcm with clock := s.pcm.clock + 1 } }
  s.modPod sl h (fun p => { p with used := s.pcm.clock })

/-- DETAIL of a field: its byte offset and its lowest bit (18 R402). -/
def dtl (off low : Nat) : Nat := off + 256 * low

/-! ## Units of the pod space and the shelf (R194, R197) -/

/-- The 64 KiB units of a slice's pod space. -/
def State.podUnits (s : State) (sl : Nat) : Nat := 32 * (s.ownedOf sl .pod).length

/-- Units of a pod's run: the header unit and its factor bytes rounded up. -/
def unitsF (factorBytes : Nat) : Nat := 1 + ceilDiv factorBytes 65536
/-- Units of its section T run: θ and the moments. -/
def unitsT (tlen : Nat) : Nat := ceilDiv (tlen - 16) 65536

/-- The runs of a slice's pods but one pod's: (first unit, units). -/
def State.runsOf (s : State) (sl : Nat) : List (Nat × Nat) :=
  ((s.podsOf sl).flatMap (fun e => [e.2.run, e.2.runT])).filter (fun r => r.2 != 0)

/-- Whether two runs share a unit. -/
def runsMeet (a b : Nat × Nat) : Bool := decide (a.1 < b.1 + b.2) && decide (b.1 < a.1 + a.2)

/-- The first unit at which `n` units are free among runs, first fit (R197): candidates are 0 and the ends of runs. -/
def firstFit (total n : Nat) (runs : List (Nat × Nat)) : Option Nat :=
  ((ascending (0 :: runs.map (fun r => r.1 + r.2))).find? (fun u =>
    decide (u + n ≤ total) && !runs.any (fun r => runsMeet (u, n) r)))

/-- Free units of a slice's pod space. -/
def State.freeUnits (s : State) (sl : Nat) : Nat := s.podUnits sl - lsum ((s.runsOf sl).map Prod.snd)

/-- The addresses of `n` bytes from byte `off` of unit `u` of a slice's pod space, one piece for each 64 KiB unit they touch: (address, bytes) (R194). -/
def State.podSpan (s : State) (sl u off n : Nat) : List (Nat × Nat) :=
  let gs := s.ownedOf sl .pod
  let first := off / 65536
  (List.range ((off + (n - 1)) / 65536 - first + 1)).map (fun i =>
    let k := u + first + i
    let lo := max off (65536 * (first + i))
    (gs.getD (k / 32) 0 * 2 ^ 21 + (k % 32) * 65536 + lo % 65536, min (off + n) (65536 * (first + i + 1)) - lo))

/-- Whether a fetch of a section of a pod has taken its run. -/
def State.fetchRuns (s : State) (sl h : Nat) : Bool := s.pcm.fetches.any (fun f => f.sl == sl && f.pod == h && decide (2 ≤ f.stage))

/-- The runs of a slice with their pods: (pod, whether section T, first unit, units), in ascending place. -/
def State.placed' (s : State) (sl : Nat) : List (Nat × Bool × Nat × Nat) :=
  sortBy (fun a b => decide (a.2.2.1 ≤ b.2.2.1)) (((s.podsOf sl).flatMap (fun e =>
    [(e.1, false, e.2.run.1, e.2.run.2), (e.1, true, e.2.runT.1, e.2.runT.2)])).filter (fun r => r.2.2.2 != 0))

/-- A run of a pod set to a place. -/
def State.putRun (s : State) (sl : Nat) (r : Nat × Bool × Nat × Nat) (u : Nat) : State :=
  s.modPod sl r.1 (fun p => if r.2.1 then { p with runT := (u, r.2.2.2) } else { p with run := (u, r.2.2.2) })

/-- Whether a pod may be moved within the pod space: nothing holds it, and no promotion or fetch works on its runs (R197). -/
def State.movable (s : State) (sl h : Nat) : Bool := !(s.podHeld sl h || s.pcm.promos.contains (sl, h) || s.fetchRuns sl h)

/-- The runs that `may` names are moved down in ascending place, each to the lowest free units; the others stay where they are (R197). A run's own place is
free when its turn comes, so each finds one at or below it. -/
def State.pack (s : State) (sl : Nat) (may : Nat → Bool) : State :=
  let all := s.placed' sl
  let stay := (all.filter (fun r => !may r.1)).map (fun r => r.2.2)
  ((all.filter (fun r => may r.1)).foldl (fun (acc : State × List (Nat × Nat)) r =>
    let u := (firstFit (s.podUnits sl) r.2.2.2 acc.2).getD r.2.2.1
    (acc.1.putRun sl r u, acc.2 ++ [(u, r.2.2.2)])) (s, stay)).1

/-- Pods that nothing holds are moved together (R197). -/
def State.compact (s : State) (sl : Nat) : State := s.pack sl (s.movable sl)

/-- The runs of a slice after a commit has changed its POD grains from `old` (R194, R197): each stays in its grains, whose place in the pod space may have
changed. A run that a new grain now cuts in two is placed anew, first fit, after the pods that nothing holds have been moved if need be, and after all
of them as a last resort (DEDUCED, log 74). -/
def State.regrain (s : State) (sl : Nat) (old : List Nat) : State :=
  let new := s.ownedOf sl .pod
  if old == new then s
  else
    let at' := fun (u : Nat) => (new.idxOf? (old.getD (u / 32) nGrains)).map (fun k => 32 * k + u % 32)
    let whole := fun (r : Nat × Bool × Nat × Nat) => match at' r.2.2.1 with
      | some v => if at' (r.2.2.1 + r.2.2.2 - 1) == some (v + r.2.2.2 - 1) then some v else none
      | none => none
    let all := s.placed' sl
    let kept := all.filterMap (fun r => (whole r).map (fun v => (r, v)))
    let cut := all.filter (fun r => (whole r).isNone)
    let s := kept.foldl (fun s e => s.putRun sl e.1 e.2) s
    let busy := kept.map (fun e => (e.2, e.1.2.2.2))
    let got := cut.foldl (fun (acc : State × List (Nat × Nat) × Bool) r =>
      match firstFit (s.podUnits sl) r.2.2.2 acc.2.1 with
      | some u => (acc.1.putRun sl r u, acc.2.1 ++ [(u, r.2.2.2)], acc.2.2)
      | none => (acc.1, acc.2.1, false)) (s, busy, true)
    if got.2.2 then got.1 else s.pack sl (fun _ => true)

/-- POD grains that hold a run are IN_USE, the others free (03 R54, R55). -/
def State.syncPodUse (s : State) (sl : Nat) : State :=
  let gs := s.ownedOf sl .pod
  let rs := s.runsOf sl
  (List.range gs.length).foldl (fun s k =>
    s.modGrain (gs.getD k 0) (fun e => { e with inUse := rs.any (fun r => runsMeet (32 * k, 32) r) })) s

/-- A run of `n` units taken for a pod where it fits, after compaction if free units suffice but no run is long enough (R197). -/
def State.takeRun (s : State) (sl n : Nat) : Option (State × Nat) :=
  match firstFit (s.podUnits sl) n (s.runsOf sl) with
  | some u => some (s, u)
  | none =>
    if s.freeUnits sl < n then none
    else
      let s := s.compact sl
      (firstFit (s.podUnits sl) n (s.runsOf sl)).map (fun u => (s, u))

/-- Fold positions whose owner a bank changes (04 R86, 08 R164). -/
def State.movedPositions (s : State) (k : Bank) : List Nat :=
  let s' := k.rws.foldl (fun s e => s.wr e.1 e.2) s
  (List.range 256).filter (fun p => s.posOwner p != 0xFF && s'.posOwner p != s.posOwner p)

/-- Positions whose shelf units are left in the drain of the armed bank: nothing is placed there any more (R210). -/
def State.leaving (s : State) : List Nat :=
  match s.armed with
  | none => []
  | some b => if (s.bank b).st == .drain || (s.bank b).st == .deciding then s.movedPositions (s.bank b) else []

/-- The shelf units of a slice's positions (R194), without those it is leaving. -/
def State.shelfUnits (s : State) (sl : Nat) : List Nat :=
  let but := s.leaving
  ((List.range 256).filter (fun p => s.posOwner p == sl && !but.contains p)).flatMap (fun p => (List.range 28).map (fun i => 28 * p + i))

/-- Shelf units no pod of the slice holds. -/
def State.shelfFree (s : State) (sl : Nat) : List Nat :=
  let used := (s.podsOf sl).flatMap (fun e => e.2.shelf)
  (s.shelfUnits sl).filter (fun u => !used.contains u)

/-- Pods a promotion or a pin may evict from T0: RESIDENT_T0 and held by nothing, least recently used first (R208). -/
def State.shelfVictims (s : State) (sl : Nat) : List Nat :=
  (sortBy (fun a b => decide (a.2.used ≤ b.2.used)) ((s.podsOf sl).filter (fun e => e.2.res == .t0 && !s.podHeld sl e.1))).map Prod.fst

/-- A pod leaves T0: its shelf units are free, and it is RESIDENT_T1 (R208). -/
def State.dropShelf (s : State) (sl h : Nat) : State :=
  s.modPod sl h (fun p => { p with shelf := [], res := if p.res == .t0 then .t1 else p.res })

/-! ## Transition codes of `EvBody.pod` (R198) -/

def PodW.opened : Nat := 0
def PodW.fetch : Nat := 1
def PodW.fetched : Nat := 2
def PodW.promoted : Nat := 3
def PodW.pin : Nat := 4
def PodW.stepping : Nat := 5
def PodW.trained : Nat := 7
def PodW.failed : Nat := 10
def PodW.unshelved : Nat := 11
def PodW.unpin : Nat := 12
def PodW.evict : Nat := 13
def PodW.stepEnd : Nat := 14
def PodW.rebaseEnd : Nat := 15
def PodW.close : Nat := 16

/-- A transition raised in its class of R198. -/
def State.podEv (s : State) (sl h what : Nat) (args : List Nat) (cmd : Option CmdRef) : State :=
  s.raise ⟨if what < 10 then 8 else 6, some sl, Sub.pcm, .pod sl h what args cmd⟩

/-- Whether a shelf eviction of a pod is on its way (R198). -/
def State.unshelving (s : State) (sl h : Nat) : Bool :=
  (s.spn.queue ++ s.spn.effs.map Eff.ev).any (fun e => match e.body with
    | .pod a b w _ _ => a == sl && b == h && w == PodW.unshelved
    | _ => false)

/-- The pod-fetch channel a slice's transfers use: that of the lowest unit it holds a position of (03 R59). -/
def State.pfPort (s : State) (sl : Nat) : Nat := ((List.range 256).find? (fun p => s.posOwner p == sl)).getD 0 / 16

/-- Reads of one of Llyna's units over pieces of memory; answers their numbers. -/
def State.readSpans (s : State) (cls : RClass) (sl port : Nat) (ps : List (Nat × Nat)) : State × List Nat :=
  ps.foldl (fun acc a =>
    let r := acc.1.memAccess cls sl port a.1 a.2 false []
    (r.1, acc.2 ++ [r.2])) (s, [])

/-- Writes of one of Llyna's units over pieces of memory; answers their numbers. -/
def State.writeSpans (s : State) (cls : RClass) (sl port : Nat) (ps : List (Nat × Nat)) (bs : List Byte) : State × List Nat :=
  let r := ps.foldl (fun acc a =>
    let w := acc.1.memAccess cls sl port a.1 a.2 true (slice acc.2.2 0 a.2)
    (w.1, acc.2.1 ++ [w.2], acc.2.2.drop a.2)) (s, ([] : List Nat), bs)
  (r.1, r.2.1)

/-- A promotion starts where the run fits the shelf (R207, R209). Where the free units suffice they are taken and the copy begins: PF-class reads of the run
from T1. Else RESIDENT_T0 pods that nothing holds leave the shelf in class 6, least recently used first, and the promotion waits for them. Answers
whether it fits. -/
def State.promote (s : State) (sl h : Nat) : State × Bool :=
  match s.pod sl h with
  | none => (s, false)
  | some p =>
    let n := p.run.2
    let free := s.shelfFree sl
    let size := fun (v : Nat) => ((s.pod sl v).map (fun p => p.shelf.length)).getD 0
    let going := (s.shelfVictims sl).filter (fun v => v != h && s.unshelving sl v)
    let more := (s.shelfVictims sl).filter (fun v => v != h && !s.unshelving sl v)
    let due := lsum (going.map size)
    if n = 0 then (s, false)
    else if n ≤ free.length then
      let s := s.modPod sl h (fun p => { p with shelf := free.take n })
      let r := s.readSpans .pf sl (s.pfPort sl) (s.podSpan sl p.run.1 0 (65536 * n))
      ({ r.1 with pcm := { r.1.pcm with promos := r.1.pcm.promos ++ [(sl, h)], xfer := tset (dflt []) r.1.pcm.xfer (podKey sl h) r.2 } }, true)
    else if free.length + due + lsum (more.map size) < n then (s, false)
    else
      let r := more.foldl (fun (acc : State × Nat) v =>
        if n ≤ acc.2 then acc else (acc.1.podEv sl v PodW.unshelved [1] none, acc.2 + size v)) (s, free.length + due)
      let s := r.1
      ({ s with pcm := { s.pcm with waits := s.pcm.waits.filter (fun w => !(w.sl == sl && w.pod == h && w.what == 3)) ++ [⟨sl, h, 3, 0, 0, 0, 0, none⟩] } }, true)

/-- A promotion ends without a copy: its shelf units are free. -/
def State.dropPromo (s : State) (sl h : Nat) : State :=
  let on := s.pcm.promos.contains (sl, h)
  let s := s.dropColls (tget (dflt []) s.pcm.xfer (podKey sl h))
  let s : State := { s with pcm := { s.pcm with
    promos := s.pcm.promos.filter (· != (sl, h)),
    xfer := tset (dflt []) s.pcm.xfer (podKey sl h) [],
    waits := s.pcm.waits.filter (fun w => !(w.sl == sl && w.pod == h && w.what == 3)) } }
  s.modPod sl h (fun p => { p with shelf := if on || p.res == .t1 then [] else p.shelf })

/-- The promotions that wait for shelf units go on, or end where their run no longer fits: a pin that waits for one ends with BAD_FIELD (R209). -/
def State.retryPromos (s : State) (sl : Nat) : State :=
  (s.pcm.waits.filter (fun w => w.sl == sl && w.what == 3)).foldl (fun s w =>
    let s := { s with pcm := { s.pcm with waits := s.pcm.waits.erase w } }
    if ((s.pod sl w.pod).map Pod.res) != some .t1 && ((s.pod sl w.pod).map Pod.res) != some .pinned then s
    else
      let r := s.promote sl w.pod
      if r.2 then r.1
      else
        let pins := s.pcm.waits.filter (fun x => x.sl == sl && x.pod == w.pod && x.what == 1)
        let s := { s with pcm := { s.pcm with waits := s.pcm.waits.filter (fun x => !pins.contains x) } }.modPod sl w.pod (fun p =>
          { p with pinWant := p.pinWant && pins.isEmpty })
        pins.foldl (fun s x => s.finish x.cmd Status.badField (dtl 0x0C 0) []) s) s

/-! ## Husks (R190–R193, R200, R201) -/

/-- A check that failed: its status and DETAIL. -/
structure Fail where
  status : Nat
  detail : Nat
deriving DecidableEq, Repr

/-- The first of a list of conditions that holds names its failure. -/
def firstOf : List (Bool × Nat × Nat) → Option Fail
  | [] => none
  | (b, st, d) :: r => if b then some ⟨st, d⟩ else firstOf r

/-- The offset of the first nonzero byte among ranges of bytes, if any (00 R12). -/
def rsvdAt (d : List Byte) (ranges : List (Nat × Nat)) : Option Nat :=
  (ranges.flatMap (fun r => (List.range (r.2 - r.1)).map (fun i => r.1 + i))).find? (fun i => d.getD i 0 != 0)

/-- The length of a husk (R190). -/
def huskLength (flen tlen : Nat) : Nat := if tlen = 0 then 144 + flen else 160 + flen + tlen

/-- Header fields (R190). -/
def huskOpt (h : List Byte) : Nat := bits (fieldAt h 5 1) 1 0
def huskLayers (h : List Byte) : Nat := bits (fieldAt h 5 1) 6 2
def huskPid (h : List Byte) : Nat := fieldAt h 8 8
def huskGen (h : List Byte) : Nat := fieldAt h 0x10 4
def huskFlen (h : List Byte) : Nat := fieldAt h 0x14 4
def huskTlen (h : List Byte) : Nat := fieldAt h 0x18 4
def huskBase (h : List Byte) : Nat := fieldAt h 0x20 8
def huskSalt (h : List Byte) : Nat := fieldAt h 0x38 8

/-- Factor elements of a husk. -/
def huskElems (h : List Byte) : Nat := (huskFlen h - 256 * huskLayers h) / 2

/-- Step 1 of R201: MAGIC, GENF and the reserved bytes, then the other fields in order, a joint condition at its last field (00 R12, R559). -/
def huskHeader (h : List Byte) : Option Fail :=
  let opt := huskOpt h
  let n := huskLayers h
  let rs := (if bits (fieldAt h 4 1) 7 4 != 0 then some 4 else if bit (fieldAt h 5 1) 7 then some 5 else none : Option Nat)
  let rsvd := match rs with | some o => some o | none => rsvdAt h [(6, 8), (0x1C, 0x20), (0x40, 0x80)]
  firstOf [
    (fieldAt h 0 4 != 0x4B48594C, Status.badField, dtl 0 0),
    (fieldAt h 4 1 % 16 != 1, Status.badVersion, 0x0301),
    (rsvd.isSome, Status.rsvd, rsvd.getD 0),
    (opt == 3, Status.badField, dtl 5 0),
    (n == 0 || decide (16 < n), Status.badField, dtl 5 2),
    (huskFlen h == 0 || decide (268439552 < huskFlen h) || decide (huskFlen h < 256 * n) || decide (268435456 < huskFlen h - 256 * n)
      || (huskFlen h - 256 * n) % 2 != 0, Status.badField, dtl 0x14 0),
    ((opt == 0) != (huskTlen h == 0)
      || (opt == 1 && huskTlen h != 16 + huskElems h * 8) || (opt == 2 && huskTlen h != 16 + huskElems h * 12), Status.badField, dtl 0x18 0),
    (huskBase h == 0, Status.badField, dtl 0x20 0)]

/-- The image a slice reads whose base identity a husk names (R201 step 3). -/
def State.baseOf (s : State) (sl baseId : Nat) : Option Nat :=
  match s.sdef sl with
  | none => none
  | some d => (maskList d.imageGrant 4).find? (fun i => (s.image i).bound && (s.image i).baseId == baseId)

/-- The 32 bytes of a root a slice holds (R200, R218). -/
def State.rootOf (s : State) (sl k : Nat) : Option (List Byte) := (tget (dflt none) s.pcm.roots (2 * sl + k)).map (leBytes 32)

/-- The fingerprint of a root (R200). -/
def rootFp (root : List Byte) : List Byte := slice (hmac384 root (ascii "LLY-HUSK-FP")) 0 16

/-- The root a husk is sealed under, 0 or 1 (R201 step 4). -/
def State.rootFor (s : State) (sl : Nat) (h : List Byte) : Option Nat :=
  [0, 1].find? (fun k => match s.rootOf sl k with | some d => rootFp d == slice h 0x28 16 | none => false)

/-- The key of section F or T of the pods of an identity under a root (R200). -/
def sectionKey (root : List Byte) (pid : Nat) (secT : Bool) : List Byte :=
  kdf root (if secT then "LLY-HUSK-T" else "LLY-HUSK-F") (leBytes 8 pid) 256

/-- The IV of both sections: GEN, then SALT (R200). -/
def sectionIv (gen salt : Nat) : List Byte := leBytes 4 gen ++ leBytes 8 salt

/-- Steps 1–5 of R201 for section F or T (R201 applies steps 4 and 5 to T). `first`: no fetch has yet been verified. -/
def State.fetchChecks (s : State) (sl : Nat) (p : Pod) (secT : Bool) (h : List Byte) : Option Fail :=
  let c := fun (k : Nat) => some (⟨Status.checkFailed, k⟩ : Fail)
  let early := if secT then none else
    match huskHeader h with
    | some f => some f
    | none =>
      if p.huskLen != huskLength (huskFlen h) (huskTlen h) then some ⟨Status.badField, dtl 0x18 0⟩
      else if (s.baseOf sl (huskBase h)).isNone then some ⟨Status.badField, dtl 0x20 0⟩
      else none
  match early with
  | some f => some f
  | none =>
    if (s.rootFor sl h).isNone then c 4
    else if !p.fetched then (if huskGen h < p.minGen then c 5 else none)
    else if huskPid h != p.pid || huskGen h != p.savedGen then c 5
    else none

/-- A layer record's target (R191). -/
def targetAt (r : List Byte) (t : Nat) : PodTarget :=
  ⟨fieldAt r (0x08 + 16 * t) 4, fieldAt r (0x0C + 16 * t) 2, fieldAt r (0x0E + 16 * t) 2, fieldAt r (0x10 + 16 * t) 4⟩

/-- A layer record (R191). -/
def layerAt (r : List Byte) : PodLayer :=
  let w := fieldAt r 2 2
  ⟨fieldAt r 0 2, bits w 10 0, bit w 15, fieldAt r 4 4, (List.range (bits w 14 11)).map (targetAt r)⟩

/-- Tiles and factor bytes of a target at rank `r` (R192). -/
def PodTarget.tiles (t : PodTarget) : Nat := t.trows * t.tcols
def PodTarget.bytes (t : PodTarget) (r : Nat) : Nat := (t.trows + t.tcols) * 256 * r

/-- A tile of a target: (a, b) with tile row and column, where `tix` lies in it (R191). -/
def PodTarget.place (t : PodTarget) (tix : Nat) : Option (Nat × Nat) :=
  if t.firstTix ≤ tix && tix < t.firstTix + t.tiles then some ((tix - t.firstTix) / t.tcols, (tix - t.firstTix) % t.tcols) else none

/-- Whether two half-open ranges overlap. -/
def meets (a n b m : Nat) : Bool := decide (a < b + m) && decide (b < a + n)

/-- The factor areas of a layer record: (offset, bytes), empty at rank 0 (R192). -/
def PodLayer.areas (l : PodLayer) : List (Nat × Nat) := (l.targets.map (fun t => (t.foff, t.bytes l.rank))).filter (fun a => a.2 != 0)

/-- A layer record against the records before it, in field order (R189, R191, R192, R217; 00 R559). `fbytes` are the husk's factor bytes, which the areas of all
records together fill exactly: judged at the last target of the last record. -/
def State.layerCheck (s : State) (img fbytes : Nat) (last : Bool) (before : List PodLayer) (r : List Byte) : Option Fail :=
  let l := layerAt r
  let n := bits (fieldAt r 2 2) 14 11
  let bad := fun (b : Bool) (off low : Nat) => (b, Status.badField, dtl off low)
  let old := before.flatMap PodLayer.areas
  let tgt := (List.range n).flatMap (fun t =>
    let x := targetAt r t
    let o := 0x08 + 16 * t
    let mine := (x.foff, x.bytes l.rank)
    let known := old ++ ((List.range t).map (fun k => let y := targetAt r k; (y.foff, y.bytes l.rank))).filter (fun a => a.2 != 0)
    let total := lsum (known.map Prod.snd) + mine.2
    [bad (x.trows == 0) (o + 4) 0,
     bad (x.tcols == 0 || decide (2 ^ 32 < x.firstTix + x.tiles)
        || (l.xexp && !(s.image img).spares.any (fun e => e.layer == l.layerNo && decide (e.first ≤ x.firstTix)
          && decide (x.firstTix + x.tiles ≤ e.first + e.tiles)))
        || (List.range t).any (fun k => let y := targetAt r k; meets x.firstTix x.tiles y.firstTix y.tiles)) (o + 6) 0,
     bad (x.foff % 256 != 0 || (mine.2 != 0 && (decide (fbytes < mine.1 + mine.2) || known.any (fun a => meets mine.1 mine.2 a.1 a.2)))
        || (last && t + 1 == n && total != fbytes)) (o + 8) 0,
     bad (fieldAt r (o + 12) 4 != 0) (o + 12) 0])
  firstOf ([bad (before.any (fun b => decide (l.layerNo ≤ b.layerNo))) 0 0, bad (decide (1024 < l.rank)) 2 0, bad (n == 0 || decide (8 < n)) 2 11]
    ++ tgt ++ (match rsvdAt r [(0x08 + 16 * n, 0x100)] with | some o => [bad true o 0] | none => []))

/-- Step 8 of R201: the layer records in order. -/
def State.layersCheck (s : State) (img nl : Nat) (plain : List Byte) (fbytes : Nat) : Option Fail × List PodLayer :=
  (List.range nl).foldl (fun (acc : Option Fail × List PodLayer) i =>
    match acc.1 with
    | some f => (some f, acc.2)
    | none =>
      let r := slice plain (256 * i) 256
      match s.layerCheck img fbytes (i + 1 == nl) acc.2 r with
      | some f => (some { f with detail := f.detail + 2 ^ 16 * i }, acc.2)
      | none => (none, acc.2 ++ [layerAt r])) (none, [])

/-- 16-bit and 32-bit little-endian words of a byte list. -/
def words (n : Nat) (bs : List Byte) : List Nat := (List.range (bs.length / n)).map (fun i => fieldAt bs (n * i) n)

/-- The bytes of a layer record (R191). -/
def PodLayer.encode (l : PodLayer) : List Byte :=
  slice (leBytes 2 l.layerNo ++ leBytes 2 (l.rank + 2 ^ 11 * l.targets.length + (if l.xexp then 2 ^ 15 else 0)) ++ leBytes 4 l.alpha
    ++ l.targets.flatMap (fun t => leBytes 4 t.firstTix ++ leBytes 2 t.trows ++ leBytes 2 t.tcols ++ leBytes 4 t.foff ++ leBytes 4 0)) 0 256

/-- The plaintexts of a pod's two sections (R191, R193). -/
def Pod.plainF (p : Pod) : List Byte := p.layers.flatMap PodLayer.encode ++ p.factors.flatMap (leBytes 2)
def Pod.plainT (p : Pod) : List Byte :=
  if p.opt = 0 then [] else
  leBytes 4 p.p1 ++ leBytes 4 p.p2 ++ leBytes 8 0 ++ (p.theta ++ p.mom ++ (if p.opt = 2 then p.var else [])).flatMap (leBytes 4)

/-- A section as it leaves: ciphertext and tag, sealed under its own key with the header as additional data (R200). -/
def sealSection (root : List Byte) (pid gen salt : Nat) (secT : Bool) (hd plain : List Byte) : List Byte :=
  let c := gcmSeal (sectionKey root pid secT) (sectionIv gen salt) hd plain
  c.1 ++ c.2

/-- A complete husk of a pod with a fresh SALT (R190, R200, R205). -/
def Pod.husk (p : Pod) (root : List Byte) (salt : Nat) : List Byte :=
  let f := p.plainF
  let t := p.plainT
  let hd := leBytes 4 0x4B48594C ++ leBytes 1 1 ++ leBytes 1 (p.opt + 4 * p.layers.length) ++ leBytes 2 0 ++ leBytes 8 p.pid ++ leBytes 4 p.gen
    ++ leBytes 4 f.length ++ leBytes 4 t.length ++ leBytes 4 0 ++ leBytes 8 p.baseId ++ rootFp root ++ leBytes 8 salt ++ List.replicate 64 0
  hd ++ sealSection root p.pid p.gen salt false hd f ++ (if t.isEmpty then [] else sealSection root p.pid p.gen salt true hd t)

/-- The head of a slice's unstarted fetches reads its husk header as the slice's VF (R203). -/
def State.startHeads (s : State) : State :=
  (uniq (s.pcm.fetches.map Fetch.sl)).foldl (fun s sl =>
    match s.pcm.fetches.find? (fun f => f.sl == sl && f.stage < 2), s.vfOf sl with
    | some f, some v =>
      let use := if f.secT then HostUse.huskT else HostUse.huskF
      if f.stage = 0 && f.header.isEmpty && !s.tpl.accs.any (fun a => a.use == use && a.sl == sl && a.a == f.pod) then
        match s.pod sl f.pod with
        | some p => s.hostRead use sl f.pod 0 v (s.fn v).gen p.huskAddr 128
        | none => s
      else s
    | _, _ => s) s

/-- A fetch changed. -/
def State.modFetch (s : State) (sl h : Nat) (secT : Bool) (f : Fetch → Fetch) : State :=
  { s with pcm := { s.pcm with fetches := lmod s.pcm.fetches (fun x => x.sl == sl && x.pod == h && x.secT == secT) f } }

/-- A fetch leaves its queue. -/
def State.dropFetch (s : State) (sl h : Nat) (secT : Bool) : State :=
  ({ s with pcm := { s.pcm with fetches := s.pcm.fetches.filter (fun x => !(x.sl == sl && x.pod == h && x.secT == secT)) } }
    |>.dropAccs (fun a => a.use == (if secT then HostUse.huskT else HostUse.huskF) && a.sl == sl && a.a == h)).startHeads

/-- A fetch of a section enters the fetch queue, which holds 64 (R203). Answers whether it found room. -/
def State.addFetch (s : State) (sl h : Nat) (secT thenT : Bool) (cmd : Option CmdRef) : State × Bool :=
  if 64 ≤ (s.pcm.fetches.filter (fun f => f.sl == sl)).length then (s, false)
  else
    let f : Fetch := ⟨sl, h, secT, 0, 0, [], [], thenT, 0, cmd⟩
    let s := { s with pcm := { s.pcm with fetches := s.pcm.fetches ++ [f] } }
    let s := s.modPod sl h (fun p => if secT then { p with train := 1 } else { p with res := .fetching })
    (s.startHeads, true)

/-- A pod wanted resident: an ABSENT one is fetched by a class 8 event (R204). -/
def State.wantPod (s : State) (sl h : Nat) : State :=
  match s.pod sl h with
  | some p => if p.res == .absent && p.life != .retired
      && !(s.spn.queue ++ s.spn.effs.map Eff.ev).any (fun e => e.body == .pod sl h PodW.fetch [0] none)
      then s.podEv sl h PodW.fetch [0] none else s
  | none => s

/-- RES of POD_QUERY (R197, 20 R432). -/
def PodRes.code : PodRes → Nat
  | .absent => 0 | .fetching => 1 | .t1 => 2 | .t0 => 3 | .pinned => 4

def PodLife.code : PodLife → Nat
  | .none => 0 | .stepping => 1 | .frozen => 2 | .retired => 3

/-- A pod's entry freed with its units and shelf copy (R211). -/
def State.freePod (s : State) (sl h : Nat) : State :=
  (((s.dropPromo sl h).dropFetch sl h false).dropFetch sl h true).setPod sl h none |>.syncPodUse sl

/-- A pod's bindings released (R211, R215). -/
def State.unbindPod (s : State) (sl h : Nat) : State :=
  { s with pcm := { s.pcm with
    slots := s.pcm.slots.filter (fun e => !(e.1 / 256 == sl && e.2 == some h)),
    experts := s.pcm.experts.filter (fun e => !(e.1 / 16 / 65536 == sl && e.2 == some h)) } }

/-- A pod leaves T1 for ABSENT: its runs and shelf copy go, and GEN falls back to SAVED_GEN; an interrupted STEP or REBASE ends, and a FROZEN or RETIRED pod stays
so (R198, R208, R220). -/
def Pod.absent (p : Pod) : Pod :=
  { p with res := .absent, train := 0, unsaved := false, gen := p.savedGen, run := (0, 0), runT := (0, 0), shelf := [],
           factors := [], theta := [], mom := [], var := [], life := if p.life == .stepping then .none else p.life }

/-- A pod evicted from T1 (R208). -/
def State.toAbsent (s : State) (sl h : Nat) : State := ((s.dropPromo sl h).modPod sl h Pod.absent).syncPodUse sl

/-- What waits for a hold or a fetch to end goes on: evictions, and entries of RETIRED pods (R208, R211). -/
def State.settlePods (s : State) (sl : Nat) : State :=
  let ready := s.pcm.waits.filter (fun w => w.sl == sl && w.what == 0 && !s.podHeld sl w.pod && !s.pcm.fetches.any (fun f => f.sl == sl && f.pod == w.pod))
  let s := { s with pcm := { s.pcm with waits := s.pcm.waits.filter (fun w => !ready.contains w) } }
  let s := ready.foldl (fun s w => s.podEv sl w.pod PodW.evict [w.layer] w.cmd) s
  ((s.podsOf sl).filter (fun e => e.2.life == .retired && !s.podHeld sl e.1 && !s.pcm.fetches.any (fun f => f.sl == sl && f.pod == e.1))).foldl
    (fun s e => s.freePod sl e.1) s

/-- Those that wait for a pod's fetch end: commands with `status`, a fold descriptor at its turn with `fold` (08 R175). -/
def State.failWaits (s : State) (sl h status detail fold : Nat) : State :=
  let ws := s.pcm.waits.filter (fun w => w.sl == sl && w.pod == h && (w.what == 1 || w.what == 2))
  let s := { s with pcm := { s.pcm with waits := s.pcm.waits.filter (fun w => !ws.contains w) } }
  let s := ws.foldl (fun s w => s.finish w.cmd status detail []) s
  { s with dpa := { s.dpa with queues := tmap (dflt none) s.dpa.queues (fun k q => if k / 4096 = sl then
      q.map (fun x => if x.waitPods.contains h then { x with podFail := fold } else x) else q) } }

/-- Section T wanted (R204): fetched where TRAIN = 0; a full fetch queue ends what waits for it with QUEUE_FULL (R203). -/
def State.wantTrain (s : State) (sl h : Nat) : State :=
  match s.pod sl h with
  | some p =>
    if p.train = 0 then
      let r := s.addFetch sl h true false none
      if r.2 then r.1 else s.failWaits sl h Status.queueFull 0 Status.queueFull
    else s
  | none => s

/-- RESULT of POD_OPEN (20 R430). -/
def Pod.openResult (p : Pod) : List Byte := leBytes 8 p.pid ++ leBytes 4 p.gen ++ leBytes 1 p.res.code

/-- The contents a verified section F gives a pod (R201 steps 7 and 8, R212). -/
def State.contentF (s : State) (p : Pod) (h : List Byte) (root : Nat) (plain : List Byte) : Pod :=
  let nl := huskLayers h
  { p with pid := huskPid h, gen := huskGen h, savedGen := huskGen h, res := .t1, fetched := true, unsaved := false, rebased := false,
           opt := huskOpt h, baseId := huskBase h, rootNo := root,
           layers := (List.range nl).map (fun i => layerAt (slice plain (256 * i) 256)),
           factors := words 2 (slice plain (256 * nl) (huskFlen h - 256 * nl)), used := s.pcm.clock,
           life := if p.life == .retired then .retired else if huskGen h = 0xFFFFFFFF then .frozen else p.life }

/-- The contents a verified section T gives (R193). -/
def Pod.contentT (p : Pod) (h plain : List Byte) : Pod :=
  let n := huskElems h
  { p with train := 2, p1 := fieldAt plain 0 4, p2 := fieldAt plain 4 4,
           theta := words 4 (slice plain 16 (4 * n)), mom := words 4 (slice plain (16 + 4 * n) (4 * n)),
           var := if p.opt = 2 then words 4 (slice plain (16 + 8 * n) (4 * n)) else List.replicate n 0 }

/-- The key and IV a section opens with, under the root its header names (R200). -/
def State.sectionSeal (s : State) (sl : Nat) (h : List Byte) (secT : Bool) : Option (List Byte × List Byte) :=
  match s.rootFor sl h with
  | some k => (s.rootOf sl k).map (fun d => (sectionKey d (huskPid h) secT, sectionIv (huskGen h) (huskSalt h)))
  | none => none

/-- The `n` bytes of a section as decrypted, whether or not its tag verifies (R201 step 7). -/
def State.openSection (s : State) (sl : Nat) (h sealed : List Byte) (secT : Bool) (n : Nat) : List Byte :=
  match s.sectionSeal sl h secT with
  | some (key, iv) => slice (gcmCtr (aesWords sboxWord key) iv (slice sealed 0 n)) 0 n
  | none => []

/-- Whether a section's tag verifies (R200, R201 step 7). -/
def State.sectionOk (s : State) (sl : Nat) (h sealed : List Byte) (secT : Bool) : Bool :=
  let n := if secT then huskTlen h else huskFlen h
  match s.sectionSeal sl h secT with
  | some (key, iv) => (gcmOpen key iv h (slice sealed 0 n) (slice sealed n 16)).isSome
  | none => false

/-- The decrypted bytes of a section in the pod's run, PF-class writes: the layer records at the start of the header unit and P1 and P2 behind them, the factors in the
units after it, and θ and the moments in the section T run (R197, R201 step 7; the places within the header unit are a DESIGN CHOICE, log 75). -/
def State.fillRun (s : State) (sl : Nat) (p : Pod) (h plain : List Byte) (secT : Bool) : State :=
  let port := s.pfPort sl
  let put := fun (s : State) (u off : Nat) (bs : List Byte) =>
    if bs.isEmpty then s
    else
      let r := s.writeSpans .pf sl port (s.podSpan sl u off bs.length) bs
      r.1.dropColls r.2
  if secT then put (put s p.run.1 4096 (plain.take 16)) p.runT.1 0 (plain.drop 16)
  else put (put s p.run.1 0 (plain.take (256 * huskLayers h))) p.run.1 65536 (plain.drop (256 * huskLayers h))

/-- A STEP or REBASE of a pod ends without completing: the pod falls back to its husk (R220). -/
def State.abortStep (s : State) (sl h : Nat) : State :=
  let fs := s.pcm.fetches.filter (fun f => f.sl == sl && f.pod == h)
  ((fs.foldl (fun s f => s.dropFetch sl h f.secT) s).toAbsent sl h).settlePods sl

/-! ## Effects of the transitions -/

/-- POD_OPEN at its stamp (R194, R198, 20 R430). -/
def State.podOpen (s : State) (sl h : Nat) (args : List Nat) (cmd : Option CmdRef) : State :=
  let fetch := args.getD 3 0 == 1
  let thenT := args.getD 4 0 == 1
  if (s.pod sl h).isSome then s.finish cmd Status.badField (dtl 0x0C 0) []
  else if 4 * (s.ownedOf sl .pod).length / 3 ≤ (s.podsOf sl).length then s.finish cmd Status.queueFull 0 []
  else if fetch && 64 ≤ (s.pcm.fetches.filter (fun f => f.sl == sl)).length then s.finish cmd Status.queueFull 0 []
  else
    let p : Pod := {
      pid := 0, gen := 0, savedGen := 0, res := .absent, life := .none, train := 0, unsaved := false, rebased := false, fmode := 0, modes := [],
      huskAddr := args.getD 0 0, huskLen := args.getD 1 0, minGen := args.getD 2 0, fetched := false, opt := 0, baseId := 0, rootNo := 0,
      layers := [], factors := [], theta := [], mom := [], var := [], p1 := 0, p2 := 0, run := (0, 0), runT := (0, 0), shelf := [],
      used := s.pcm.clock, pinWant := false }
    let s := s.setPod sl h (some p)
    if fetch then (s.addFetch sl h false thenT cmd).1 else s.finish cmd Status.ok 0 p.openResult

/-- A verified section F in effect (R198, R201): whoever waits for it goes on. -/
def State.podFetched (s : State) (sl h : Nat) : State :=
  match s.pcm.fetches.find? (fun f => f.sl == sl && f.pod == h && !f.secT), s.pod sl h with
  | some f, some p =>
    let plain := s.openSection sl f.header f.bytes false (huskFlen f.header)
    let p := s.contentF p f.header ((s.rootFor sl f.header).getD 0) plain
    let s := (s.setPod sl h (some p)).dropFetch sl h false
    let s := if p.life == .retired then s.settlePods sl else s
    let s := if f.thenT && p.opt != 0 then (s.addFetch sl h true false f.cmd).1 else s.finish f.cmd Status.ok 0 p.openResult
    let ws := s.pcm.waits.filter (fun w => w.sl == sl && w.pod == h && w.what != 0)
    let s := { s with pcm := { s.pcm with waits := s.pcm.waits.filter (fun w => !ws.contains w) } }
    ws.foldl (fun s w => if w.what = 1 then s.podEv sl h PodW.pin [] w.cmd
      else s.raise ⟨9, some sl, Sub.pcm, .claim sl true w.layer w.spare h w.prio w.seq w.cmd⟩) s
  | _, _ => s

/-- A fetch that failed (R198, R201, R431): section F returns the pod to ABSENT. A fetch that a POD_OPEN started leaves no entry behind, whichever section
failed: one that a pass holds meanwhile goes when nothing holds it. -/
def State.podFailed (s : State) (sl h : Nat) (secT : Bool) (status detail : Nat) : State :=
  match s.pcm.fetches.find? (fun f => f.sl == sl && f.pod == h && f.secT == secT), s.pod sl h with
  | some f, some p =>
    let s := s.dropFetch sl h secT
    let s := if f.cmd.isSome && p.life != .retired then
        (if s.podHeld sl h then (s.unbindPod sl h).modPod sl h (fun p => { p with life := .retired }) else (s.unbindPod sl h).freePod sl h)
      else if secT then (s.modPod sl h (fun p => { p with train := 0, runT := (0, 0) })).syncPodUse sl
      else s.toAbsent sl h
    ((s.finish f.cmd status detail []).failWaits sl h status detail (if status = Status.queueFull then status else Status.checkFailed)).settlePods sl
  | _, _ => s

/-- A POD_PIN at its stamp, or again once its pod is resident or promoted (R209, 20 R434). -/
def State.podPin (s : State) (sl h : Nat) (cmd : Option CmdRef) : State :=
  match s.pod sl h with
  | none => s.finish cmd Status.badField (dtl 0x0C 0) []
  | some p =>
    let wait : PodWait := ⟨sl, h, 1, 0, 0, 0, 0, cmd⟩
    let later := fun (s : State) => { s with pcm := { s.pcm with waits := s.pcm.waits ++ [wait] } }
    if p.life == .retired then s.finish cmd Status.badField (dtl 0x0C 0) []
    else match p.res with
      | .pinned => s.finish cmd Status.okEmpty 0 []
      | .t0 => (s.modPod sl h (fun p => { p with res := .pinned })).finish cmd Status.ok 0 []
      | .fetching => later s
      | .absent =>
        let r := s.addFetch sl h false false none
        if r.2 then later r.1 else s.finish cmd Status.queueFull 0 []
      | .t1 =>
        if s.pcm.promos.contains (sl, h) then later (s.modPod sl h (fun p => { p with pinWant := true }))
        else
          let r := s.promote sl h
          if r.2 then later (r.1.modPod sl h (fun p => { p with pinWant := true })) else s.finish cmd Status.badField (dtl 0x0C 0) []

/-- A promotion in effect (R198): RESIDENT_T0, or PINNED where a pin asked for it or the pod stays pinned. -/
def State.podPromoted (s : State) (sl h : Nat) : State :=
  let s := { s with pcm := { s.pcm with promos := s.pcm.promos.filter (· != (sl, h)), xfer := tset (dflt []) s.pcm.xfer (podKey sl h) [] } }
  match s.pod sl h with
  | none => s
  | some p =>
    if p.shelf.isEmpty || p.res == .pinned then s
    else if p.res != .t1 then s.dropShelf sl h
    else
      let ws := s.pcm.waits.filter (fun w => w.sl == sl && w.pod == h && w.what == 1)
      let pin := p.pinWant || !ws.isEmpty
      let s := s.modPod sl h (fun p => { p with res := if pin then .pinned else .t0, pinWant := false })
      let s := { s with pcm := { s.pcm with waits := s.pcm.waits.filter (fun w => !ws.contains w) } }
      ws.foldl (fun s w => s.finish w.cmd Status.ok 0 []) s

/-- POD_CLOSE at its stamp (R211). -/
def State.podClose (s : State) (sl h : Nat) (discard : Bool) (cmd : Option CmdRef) : State :=
  match s.pod sl h with
  | none => s.finish cmd Status.badField (dtl 0x0C 0) []
  | some p =>
    if p.life == .retired then s.finish cmd Status.badField (dtl 0x0C 0) []
    else if p.unsaved && !discard then s.finish cmd Status.badField (dtl 0x10 0) []
    else
      let waiting := s.pcm.fetches.filter (fun f => f.sl == sl && f.pod == h && f.stage < 2)
      let s := waiting.foldl (fun s f => (s.finish f.cmd Status.badField (dtl 0x0C 0) []).dropFetch sl h f.secT) s
      let s := (s.failWaits sl h Status.badField (dtl 0x0C 0) Status.badField).unbindPod sl h
      ((s.modPod sl h (fun p => { p with life := .retired })).settlePods sl).finish cmd Status.ok 0 []

/-- POD_EVICT, or an eviction to make room (no command), at its stamp (R198, R208). A RESIDENT_T0 pod leaves the shelf first; a PINNED one never leaves T0 so, and its
POD_EVICT ends with BAD_FIELD (DEDUCED, log 76). -/
def State.podEvict (s : State) (sl h : Nat) (discard : Bool) (cmd : Option CmdRef) : State :=
  match s.pod sl h with
  | none => s.finish cmd Status.badField (dtl 0x0C 0) []
  | some p =>
    let fetching := s.pcm.fetches.any (fun f => f.sl == sl && f.pod == h)
    if p.life == .retired then s.finish cmd Status.badField (dtl 0x0C 0) []
    else if p.res == .absent then s.finish cmd Status.okEmpty 0 []
    else if cmd.isNone && (p.res != .t1 || p.unsaved || s.bindings sl h != 0 || p.life == .stepping || s.podHeld sl h || fetching) then s
    else if p.res == .pinned then s.finish cmd Status.badField (dtl 0x0C 0) []
    else if p.unsaved && !discard then s.finish cmd Status.badField (dtl 0x10 0) []
    else if p.rebased then s.podClose sl h true cmd
    else if s.podHeld sl h || fetching then
      let w : PodWait := ⟨sl, h, 0, if discard then 1 else 0, 0, 0, 0, cmd⟩
      { s with pcm := { s.pcm with waits := s.pcm.waits ++ [w] } }
    else if p.res == .t0 then ((s.dropShelf sl h).podEv sl h PodW.evict [if discard then 1 else 0] cmd).retryPromos sl
    else ((s.toAbsent sl h).finish cmd Status.ok 0 []).startHeads

/-- Whether a STEP of a pod runs, or a REBASE of it has started. -/
def State.stepsNow (s : State) (sl h : Nat) : Bool :=
  s.fld.passes.any (fun p => p.sl == sl && p.kind == .step && p.st == .running && p.pods.contains h)
    || s.pcm.jobs.any (fun j => j.sl == sl && j.pod == h && j.rebase && j.started)

/-- A transition of R198 takes effect; those of STEP and REBASE are in FoldOps. -/
def State.podEffect (s : State) (sl h what : Nat) (args : List Nat) (cmd : Option CmdRef) : State :=
  if what = PodW.opened then s.podOpen sl h args cmd
  else if what = PodW.fetch then
    (match s.pod sl h with
      | some p =>
        if p.res == .absent && p.life != .retired then
          let r := s.addFetch sl h false false cmd
          if r.2 then r.1 else (s.finish cmd Status.queueFull 0 []).failWaits sl h Status.queueFull 0 Status.queueFull
        else s
      | none => s)
  else if what = PodW.fetched then s.podFetched sl h
  else if what = PodW.promoted then s.podPromoted sl h
  else if what = PodW.pin then s.podPin sl h cmd
  else if what = PodW.stepping then
    (if s.stepsNow sl h then s.modPod sl h (fun p => if p.life == .retired || p.life == .frozen then p else { p with life := .stepping }) else s)
  else if what = PodW.trained then
    (match s.pcm.fetches.find? (fun f => f.sl == sl && f.pod == h && f.secT), s.pod sl h with
      | some f, some p =>
        let plain := s.openSection sl f.header f.bytes true (huskTlen f.header)
        let p := p.contentT f.header plain
        (((s.setPod sl h (some p)).dropFetch sl h true).finish f.cmd Status.ok 0 p.openResult).settlePods sl
      | _, _ => s)
  else if what = PodW.failed then s.podFailed sl h (args.getD 2 0 == 1) (args.getD 0 0) (args.getD 1 0)
  else if what = PodW.unshelved then
    (match s.pod sl h with
      | some p =>
        -- an eviction to make room (argument 1) spares a pod that something has come to hold (R208)
        if p.res == .t0 then (if args.getD 0 0 == 1 && s.podHeld sl h then s.retryPromos sl else (s.dropShelf sl h).retryPromos sl)
        else if p.res == .pinned && args.getD 0 0 != 1 then
          -- a pinned pod whose shelf copy is gone is RESIDENT_T1 and promoted again where it fits
          ((s.modPod sl h (fun p => { p with shelf := [], res := .t1, pinWant := true })).promote sl h).1
        else s.retryPromos sl
      | none => s.retryPromos sl)
  else if what = PodW.unpin then
    (match s.pod sl h with
      | none => s.finish cmd Status.badField (dtl 0x0C 0) []
      | some p => if p.life == .retired then s.finish cmd Status.badField (dtl 0x0C 0) []
          else if p.res != .pinned then s.finish cmd Status.okEmpty 0 []
          else (s.modPod sl h (fun p => { p with res := if p.shelf.isEmpty then .t1 else .t0, pinWant := false })).finish cmd Status.ok 0 [])
  else if what = PodW.evict then s.podEvict sl h (args.getD 0 0 == 1) cmd
  else if what = PodW.close then s.podClose sl h (args.getD 0 0 == 1) cmd
  else s

/-! ## Slots and experts (R215–R217) -/

def slotKey (sl slot : Nat) : Nat := sl * 256 + slot
def expertKey (sl layer spare : Nat) : Nat := (sl * 65536 + layer) * 16 + spare

/-- A claim taken in its place (R216); slot 256 names any free slot. -/
def State.claimEffect (s : State) (sl : Nat) (expert : Bool) (layer slot h : Nat) (cmd : Option CmdRef) : State :=
  match s.pod sl h with
  | none => s.finish cmd Status.badField (dtl 0x0C 0) []
  | some p =>
    if p.life == .retired then s.finish cmd Status.badField (dtl 0x0C 0) []
    else if expert then
      let k := expertKey sl layer slot
      if (tget (dflt none) s.pcm.experts k).isSome then s.finish cmd Status.slotBusy slot []
      else
        let img := (s.baseOf sl p.baseId).getD 0
        match (s.image img).spares.find? (fun e => e.layer == layer && e.spare == slot), p.layers.find? (fun l => l.layerNo == layer) with
        | some sp, some l =>
          if !l.xexp || !l.targets.all (fun t => decide (sp.first ≤ t.firstTix) && decide (t.firstTix + t.tiles ≤ sp.first + sp.tiles)) then s.finish cmd Status.badField (dtl 0x10 0) []
          else ({ s with pcm := { s.pcm with experts := tset (dflt none) s.pcm.experts k (some h) } }).finish cmd Status.ok 0 (leBytes 1 slot)
        | none, _ => s.finish cmd Status.badField (dtl 0x12 0) []
        | _, _ => s.finish cmd Status.badField (dtl 0x10 0) []
    else
      let free := (List.range 256).find? (fun i => (tget (dflt none) s.pcm.slots (slotKey sl i)).isNone)
      match (if slot = 256 then free else if (tget (dflt none) s.pcm.slots (slotKey sl slot)).isNone then some slot else none) with
      | none => s.finish cmd Status.slotBusy (if slot = 256 then 0x100 else slot) []
      | some i =>
        let s := { s with pcm := { s.pcm with slots := tset (dflt none) s.pcm.slots (slotKey sl i) (some h) } }
        (s.finish cmd Status.ok 0 (leBytes 1 i)).wantPod sl h

/-- A release in its place (R215, 20 R439). -/
def State.releaseEffect (s : State) (sl : Nat) (expert : Bool) (layer slot : Nat) (cmd : Option CmdRef) : State :=
  if expert then
    let k := expertKey sl layer slot
    if (tget (dflt none) s.pcm.experts k).isNone then s.finish cmd Status.okEmpty 0 []
    else ({ s with pcm := { s.pcm with experts := tset (dflt none) s.pcm.experts k none } }).finish cmd Status.ok 0 []
  else
    let k := slotKey sl slot
    if (tget (dflt none) s.pcm.slots k).isNone then s.finish cmd Status.okEmpty 0 []
    else ({ s with pcm := { s.pcm with slots := tset (dflt none) s.pcm.slots k none } }).finish cmd Status.ok 0 []

/-! ## Commits and slices (R210, R221) -/

/-- Live passes take their remaining windows of a pod from T1 (R210). -/
def State.modPass' (s : State) (sl h : Nat) : State :=
  { s with fld := { s.fld with passes := lmod s.fld.passes (fun p => p.sl == sl && p.shelfSrc.contains h) (fun p => { p with shelfSrc := p.shelfSrc.filter (· != h) }) } }

/-- The shelf units of departing positions are left: pods return to RESIDENT_T1, pinned ones stay pinned and are promoted again into what
remains, and live passes take the rest of their windows from T1 (R210). -/
def State.departShelf (s : State) (ps : List Nat) : State :=
  let gone := ps.flatMap (fun p => (List.range 28).map (fun i => 28 * p + i))
  let hit := s.pcm.pods.filterMap (fun e => e.2.bind (fun p => if p.shelf.any (fun u => gone.contains u) then some (e.1 / 2 ^ 32, e.1 % 2 ^ 32, p.res) else none))
  hit.foldl (fun s e =>
    let (sl, h, r) := e
    let s := (s.dropPromo sl h).modPass' sl h
    if r == .pinned then ((s.modPod sl h (fun p => { p with shelf := [] })).promote sl h).1
    else if r == .t0 then s.podEv sl h PodW.unshelved [] none
    else (s.modPod sl h (fun p => { p with shelf := [] })).promote sl h |>.1) s

/-- A destroyed slice's pods, bindings, roots and fetches are gone (R221). -/
def State.dropPods (s : State) (sl : Nat) : State :=
  let cmds := (s.pcm.fetches.filter (fun f => f.sl == sl)).map Fetch.cmd ++ (s.pcm.jobs.filter (fun j => j.sl == sl)).map PodJob.cmd
    ++ (s.pcm.waits.filter (fun w => w.sl == sl)).map PodWait.cmd
  let s := cmds.foldl (fun s c => s.finish c Status.faulted sl []) s
  let s := s.dropAccs (fun a => a.sl == sl && (a.use == .huskF || a.use == .huskT || a.use == .huskPut))
  { s with pcm := { s.pcm with
    pods := s.pcm.pods.filter (fun e => e.1 / 2 ^ 32 != sl), fetches := s.pcm.fetches.filter (fun f => f.sl != sl),
    jobs := s.pcm.jobs.filter (fun j => j.sl != sl), waits := s.pcm.waits.filter (fun w => w.sl != sl),
    promos := s.pcm.promos.filter (fun p => p.1 != sl), xfer := s.pcm.xfer.filter (fun e => e.1 / 2 ^ 32 != sl), slots := s.pcm.slots.filter (fun e => e.1 / 256 != sl),
    experts := s.pcm.experts.filter (fun e => e.1 / 16 / 65536 != sl), roots := s.pcm.roots.filter (fun e => e.1 / 2 != sl) } }

/-! ## The rows -/

/-- Units a fetch's section needs. -/
def Fetch.units (f : Fetch) : Nat :=
  if f.secT then unitsT (huskTlen f.header) else unitsF (huskFlen f.header - 256 * huskLayers f.header)

/-- Whether a STEP or a POD_PUT, or a REBASE that has started, holds a pod's section T (R208). -/
def State.trainHeld (s : State) (sl h : Nat) : Bool :=
  s.fld.passes.any (fun p => p.sl == sl && p.kind == .step && p.pods.contains h)
    || s.pcm.jobs.any (fun j => j.sl == sl && j.pod == h && (!j.rebase || j.started))

/-- Room made for a fetch (R208): section T runs of saved pods that no STEP or put holds are released; the rest of the room is made by evicting saved,
unbound, unheld RESIDENT_T1 pods, least recently used first, in class 6. -/
def State.makeRoom (s : State) (sl n : Nat) : State :=
  let s := ((s.podsOf sl).filter (fun e => !e.2.unsaved && e.2.train == 2 && !s.trainHeld sl e.1)).foldl (fun s e =>
    if n ≤ s.freeUnits sl then s
    else s.modPod sl e.1 (fun p => { p with train := 0, runT := (0, 0), theta := [], mom := [], var := [] })) s
  let vs := sortBy (fun a b => decide (a.2.used ≤ b.2.used)) ((s.podsOf sl).filter (fun e => e.2.res == .t1 && !e.2.unsaved
    && s.bindings sl e.1 == 0 && e.2.life != .stepping && !s.podHeld sl e.1 && !s.pcm.fetches.any (fun f => f.sl == sl && f.pod == e.1)))
  ((vs.foldl (fun (acc : State × Nat) e =>
    if n ≤ acc.2 then acc else (acc.1.podEv sl e.1 PodW.evict [0] none, acc.2 + e.2.run.2 + e.2.runT.2)) (s, s.freeUnits sl)).1).syncPodUse sl

/-! ## Husk transfer (R194, R203, 11 R266) -/

/-- Husk bytes of a fetch's present transfer: its header, then its section and tag. -/
def Fetch.total (f : Fetch) : Nat :=
  if f.stage < 2 then 128 else if f.stage = 3 then (if f.secT then huskTlen f.header else huskFlen f.header) + 16 else 0

/-- Bytes shared among transfers in their order: what each still wants, as far as they go. -/
def shareOut : Nat → List Nat → List Nat
  | _, [] => []
  | n, w :: r => min n w :: shareOut (n - min n w) r

/-- One tick of a slice's husk grants in each direction, `n` bytes each: its fetches take theirs in queue order, its puts in admission order. Answers the bytes
moved, the greater of both directions, and whether a transfer still waits. -/
def State.huskMove (s : State) (sl n : Nat) : State × Nat × Bool :=
  let head := (s.pcm.fetches.find? (fun f => f.sl == sl && f.stage < 2)).map (fun f => (f.pod, f.secT))
  let ins := s.pcm.fetches.filter (fun f => f.sl == sl && (f.stage == 3 || (decide (f.stage < 2) && head == some (f.pod, f.secT))) && decide (f.moved < f.total))
  let outs := s.pcm.jobs.filter (fun j => j.sl == sl && !j.rebase && j.started && decide (j.moved < j.len))
  let gi := shareOut n (ins.map (fun f => f.total - f.moved))
  let go := shareOut n (outs.map (fun j => j.len - j.moved))
  let s := (List.zip ins gi).foldl (fun s e => s.modFetch sl e.1.pod e.1.secT (fun f => { f with moved := f.moved + e.2 })) s
  let s := (List.zip outs go).foldl (fun s e => { s with pcm := { s.pcm with jobs := lmod s.pcm.jobs (· == e.1) (fun j => { j with moved := j.moved + e.2 }) } }) s
  (s, max (lsum gi) (lsum go), decide (lsum gi < lsum (ins.map (fun f => f.total - f.moved))) || decide (lsum go < lsum (outs.map (fun j => j.len - j.moved))))

/-- One tick of the husk transfer: the grants of a slice's own positions but those it has lent for the epoch, and the idle grants it is offered (R203, 11 R265,
R266). -/
def State.huskTick (s : State) : State :=
  if s.pcm.fetches.isEmpty && s.pcm.jobs.isEmpty && s.bwr.idleGrant.isEmpty then s
  else
    let per := s.grantBytes
    let r := s.offers 24 0 256 per s.bwr.idleGrant
    s.slices.foldl (fun s d =>
      let own := (List.range 256).filter (fun p => s.posOwner p == d.slice && !s.bwr.idleGrant.contains p)
      let m := s.huskMove d.slice (per * own.length + tget (dflt 0) r.2 d.slice)
      let s := m.1
      let s := { s with bwr := { s.bwr with usedGrant := uniq (s.bwr.usedGrant ++ own.take (ceilDiv m.2.1 (max 1 per))) } }
      if m.2.2 then s.modAcc d.slice (fun a => a.claim 24) else s) r.1

/-- FETCH_START (R203): slice `sl`'s first unstarted fetch, its header here, passes steps 1–6 of R201 and starts: it takes its run and its
section key is asked of the vault. Where its run does not fit, room is made and it waits, its POD_OPEN given DEFER_MEM. -/
def execFetchStart (sl : Nat) (s : State) : Host.Outcome State Fault Refusal :=
  match s.pcm.fetches.find? (fun f => f.sl == sl && f.stage < 2) with
  | none => .next s
  | some f =>
    if f.header.isEmpty || decide (f.moved < 128) then .next s.startHeads
    else match s.pod sl f.pod with
      | none => .next (s.dropFetch sl f.pod f.secT)
      | some p =>
        match s.fetchChecks sl p f.secT f.header with
        | some e =>
          let s := s.modFetch sl f.pod f.secT (fun f => { f with stage := 4 })
          let s := if e.status = Status.checkFailed then (s.bump R.pcmHuskFail 1).offer 0 0x40 s.spn.tick sl e.detail 0 [f.pod] else s
          .next (s.podEv sl f.pod PodW.failed [e.status, e.detail, if f.secT then 1 else 0] none)
        | none =>
          match s.takeRun sl f.units with
          | some (s, u) =>
            let s := s.modPod sl f.pod (fun p => if f.secT then { p with runT := (u, f.units) } else { p with run := (u, f.units) })
            let s := (s.modFetch sl f.pod f.secT (fun f => { f with stage := 2, keyAsked := s.spn.tick })).syncPodUse sl
            .next s.startHeads
          | none =>
            let s := s.makeRoom sl f.units
            let lack := f.units - min f.units (s.freeUnits sl)
            let s := (s.modFetch sl f.pod f.secT (fun f => { f with stage := 1 })).deferCmd f.cmd lack
            let ws := s.pcm.waits.filter (fun w => w.sl == sl && w.pod == f.pod && w.what != 0)
            .next (ws.foldl (fun s w => s.deferCmd w.cmd lack) s)

/-- HUSK_KEY_READY (15 R331): the vault delivers the section key of a fetch exactly 260 tk after the request, and the section's transfer
starts (R203). -/
def execHuskKeyReady (sl h : Nat) (secT : Bool) (s : State) : Host.Outcome State Fault Refusal :=
  match s.pcm.fetches.find? (fun f => f.sl == sl && f.pod == h && f.secT == secT && f.stage == 2), s.pod sl h, s.vfOf sl with
  | some f, some p, some v =>
    if s.spn.tick < f.keyAsked + 260 then .next s
    else
      let s := s.modFetch sl h secT (fun f => { f with stage := 3, moved := 0 })
      let flen := huskFlen f.header
      .next (if secT then s.hostRead .huskT sl h 1 v (s.fn v).gen (p.huskAddr + 0x90 + flen) (huskTlen f.header + 16)
        else s.hostRead .huskF sl h 1 v (s.fn v).gen (p.huskAddr + 0x80) (flen + 16))
  | _, _, _ => .next s

/-- FETCH_DONE (R201): a section has arrived within its husk grants (R203): it is decrypted into its run, its tag is verified, and for section F its layer records are checked; the pod becomes
RESIDENT_T1 in class 8 (TRAIN 2 for section T) or returns to ABSENT in class 6. -/
def execFetchDone (sl h : Nat) (secT : Bool) (s : State) : Host.Outcome State Fault Refusal :=
  match s.pcm.fetches.find? (fun f => f.sl == sl && f.pod == h && f.secT == secT && f.stage == 3) with
  | none => .next s
  | some f =>
    if f.bytes.isEmpty || decide (f.moved < f.total) then .next s
    else
      let nl := huskLayers f.header
      let plain := s.openSection sl f.header f.bytes secT (if secT then huskTlen f.header else huskFlen f.header)
      let s1 := s.modFetch sl h secT (fun f => { f with stage := 4 })
      let s1 := match s.pod sl h with | some p => s1.fillRun sl p f.header plain secT | none => s1
      if !s.sectionOk sl f.header f.bytes secT then
        .next (((s1.bump R.pcmHuskFail 1).offer 0 0x40 s.spn.tick sl 7 0 [h]).podEv sl h PodW.failed [Status.checkFailed, 7, if secT then 1 else 0] none)
      else if secT then .next (s1.podEv sl h PodW.trained [] none)
      else
        match (s.layersCheck ((s.baseOf sl (huskBase f.header)).getD 0) nl plain (huskFlen f.header - 256 * nl)).1 with
        | some e => .next (s1.podEv sl h PodW.failed [e.status, e.detail, 0] none)
        | none => .next (s1.podEv sl h PodW.fetched [] none)

/-- PROMOTION_DONE (R207): the reads that copy a pod's run to the shelf have ended; RESIDENT_T0 in class 8. Where a line of the run came back bad there is no copy,
and the pod stays in T1 (a pin then ends with BAD_FIELD; DESIGN CHOICE, log 77). -/
def execPromotionDone (sl h : Nat) (s : State) : Host.Outcome State Fault Refusal :=
  let ids := tget (dflt []) s.pcm.xfer (podKey sl h)
  if !s.pcm.promos.contains (sl, h) || ids.any (fun i => !s.collDone i) then .next s
  else if ids.any (fun i => s.collBad i != 0) then
    let pins := s.pcm.waits.filter (fun x => x.sl == sl && x.pod == h && x.what == 1)
    let s := (s.dropPromo sl h).modPod sl h (fun p => { p with pinWant := false })
    let s := { s with pcm := { s.pcm with waits := s.pcm.waits.filter (fun x => !pins.contains x) } }
    .next (pins.foldl (fun s x => s.finish x.cmd Status.badField (dtl 0x0C 0) []) s)
  else .next ((s.dropColls ids).podEv sl h PodW.promoted [] none)

/-- SHELF_UE (R219): an uncorrectable error in shelf unit `u`: counted, and the pod there loses its T0 copy. -/
def execShelfUe (u : Nat) (s : State) : Host.Outcome State Fault Refusal :=
  let s := s.bump R.pcmFactorUe 1
  match s.pcm.pods.find? (fun e => match e.2 with | some p => p.shelf.contains u | none => false) with
  | some e => .next (s.podEv (e.1 / 2 ^ 32) (e.1 % 2 ^ 32) PodW.unshelved [] none)
  | none => .next s

/-- FACTOR_ECC (R219): an uncorrectable error in the factor buffer bytes of pod `h` of a pass: counted, and a fault of the pass's slice. -/
def execFactorEcc (sl q entry h : Nat) (s : State) : Host.Outcome State Fault Refusal :=
  let s := s.bump R.pcmFactorUe 1
  match s.fld.passes.find? (fun p => p.sl == sl && p.queue == q && p.entry == entry) with
  | none => .next s
  | some p =>
    .next (s.raiseFault Sub.pcm (some sl) { FaultEv.base 0x04 2 [sl] with
      queue := q, jgen := p.jgen, taskId := fieldAt p.desc 8 8, aux := fieldAt p.desc 2 2, da := p.unit, addr := h })

end Sys2Proof.Machine
end

