-- ==== Sys2Proof/Machine/FoldOps.lean ====
section
/-! DEFINITION. The fold engine (08): descriptors and their checks, placement on units, ordering, gathers, in-flight folding, COPY, STEP,
REDUCE, position moves, and fold completions; and the tile checks at the fold input (06). -/

namespace Sys2Proof.Machine

/-! ## Descriptor fields (R166–R169) -/

def fdKind (d : List Byte) : Nat := fieldAt d 0 1
def fdId (d : List Byte) : Nat := fieldAt d 2 2
def fdMask (d : List Byte) : Nat := fieldAt d 4 2
def fdAcc (d : List Byte) : Nat := bits (fieldAt d 6 1) 5 0
def fdFast (d : List Byte) : Bool := bit (fieldAt d 6 1) 6
def fdRescale (d : List Byte) : Bool := bit (fieldAt d 6 1) 7
def fdTask (d : List Byte) : Nat := fieldAt d 8 8
def fdInFmt (d : List Byte) : Nat := fieldAt d 0x10 1 % 16
def fdOutFmt (d : List Byte) : Nat := fieldAt d 0x10 1 / 16
def fdNvar (d : List Byte) : Nat := fieldAt d 0x11 1 % 32
def fdGather (d : List Byte) : Nat := fieldAt d 0x12 2
def fdRank (d : List Byte) : Nat := bits (fieldAt d 0x14 2) 10 0
def fdImage (d : List Byte) : Nat := bits (fieldAt d 0x14 2) 12 11
def fdFirst (d : List Byte) : Nat := fieldAt d 0x18 4
def fdTiles (d : List Byte) : Nat := fieldAt d 0x1C 4
def fdReads (d : List Byte) : Nat := fieldAt d 0x20 4
def fdPod (d : List Byte) (v : Nat) : Nat := fieldAt d (0x28 + 4 * v) 4
def fdLayer (d : List Byte) (v : Nat) : Nat := bits (fieldAt d 0x68 8) (4 * v + 3) (4 * v)

/-- The kind of a descriptor, where it is one of 1–4. -/
def fdKindOf (d : List Byte) : Option FoldKind :=
  match fdKind d with
  | 1 => some .inFlight
  | 2 => some .copy
  | 3 => some .step
  | 4 => some .reduce
  | _ => none

/-- The first reserved byte that is not zero (R12, R165). Bytes 0x78–0x7F of an IN_FLIGHT descriptor, which no table lists, are taken as reserved (DESIGN CHOICE,
log 81). -/
def fdRsvd (d : List Byte) : Option Nat :=
  let part := fun (o m : Nat) => if fieldAt d o 1 / m != 0 then [(o, o + 1)] else []
  let common := part 1 16 ++ [(7, 8)]
  let more := match fdKindOf d with
    | none => [(0x10, 0x80)]
    | some .inFlight => part 0x11 32 ++ part 0x15 32 ++ [(0x16, 0x18), (0x24, 0x28), (0x70, 0x80)]
    | some .copy => part 0x11 32 ++ part 0x15 32 ++ [(0x16, 0x18), (0x24, 0x28), (0x2C, 0x30), (0x36, 0x38), (0x3E, 0x40), (0x46, 0x68), (0x76, 0x80)]
    | some .step => part 0x14 8 ++ [(0x15, 0x18), (0x1E, 0x20), (0x38, 0x80)]
    | some .reduce => part 0x10 4 ++ [(0x11, 0x12), (0x1E, 0x20), (0x26, 0x28), (0x2E, 0x80)]
  rsvdAt d (common ++ more)

/-- Positions a slice holds on a unit (R162). -/
def State.posOn (s : State) (sl u : Nat) : Nat := ((List.range 16).filter (fun j => s.posOwner (16 * u + j) == sl)).length

/-- The most variants a pass of rank `r` may form with `p` positions (R170). -/
def maxVariants (p r : Nat) : Nat :=
  if r = 0 then min 16 (4 * p) else min (min 16 (4 * p)) (128 * p / min r 256)

/-- Variants of a descriptor: STEP and REDUCE use one accumulator tile. -/
def fdVars (d : List Byte) : Nat := match fdKindOf d with | some .inFlight | some .copy => fdNvar d | _ => 1
def fdRankOf (d : List Byte) : Nat := match fdKindOf d with | some .inFlight | some .copy => fdRank d | _ => 1

/-- Whether a descriptor uses accumulator tiles (R143): not at rank 0. -/
def fdUsesAcc (d : List Byte) : Bool := fdRankOf d != 0

/-- Whether a pass fits a unit's allotment (R158, R170). -/
def State.fitsUnit (s : State) (sl : Nat) (d : List Byte) (u : Nat) : Bool :=
  let p := s.posOn sl u
  bit (fdMask d) u && p != 0 && decide (fdVars d ≤ (match fdKindOf d with | some .inFlight | some .copy => maxVariants p (fdRankOf d) | _ => 4 * p))
    && (!fdUsesAcc d || decide (fdAcc d + fdVars d ≤ 4 * p))

/-- FP32 fields that must be finite, and their ranges: an infinite, NaN or negative value (R169). -/
def f32bad (b : Nat) : Bool := !(unpack32 b).finite
def f32neg (b : Nat) : Bool := match unpack32 b with | .fin n m _ => n && m != 0 | _ => true
/-- At least 1. -/
def f32ge1 (b : Nat) : Bool := match unpack32 b with | .fin n m e => !n && m != 0 && decide (0 ≤ flog2 m e) | _ => true

/-- IN_FMT, OUT_FMT and SCALE against R143 and R144. -/
def fmtBad (d : List Byte) (copy : Bool) : Bool :=
  let i := fdInFmt d
  let o := fdOutFmt d
  if fdRank d = 0 then false
  else if !(o == 1 || o == 2 || o == 4) then true
  else if fdRescale d then !(copy && (o == 1 || o == 2))
  else !(o == 4 || ((o == 1 || o == 2) && decide (i ≤ 3)))

/-- Bytes from NVAR's entries on that must be zero. -/
def tailZero (d : List Byte) : Bool :=
  zeroIn d (0x28 + 4 * fdNvar d) 0x68 && fieldAt d 0x68 8 / 2 ^ (4 * fdNvar d) == 0

/-- The static checks of a descriptor in field order (R165–R169, 00 R559): the first that applies gives the status. -/
def State.fdCheck (s : State) (sl : Nat) (d : List Byte) : Option Fail :=
  if fieldAt d 1 1 % 16 != 1 then some ⟨Status.badVersion, 0⟩
  else match fdRsvd d with
  | some o => some ⟨Status.rsvd, o⟩
  | none =>
    let bad := fun (b : Bool) (o : Nat) => (b, Status.badField, o)
    let emp := fun (b : Bool) => (b, Status.okEmpty, 0)
    let align := fun (o : Nat) => fieldAt d o 6 % 256 != 0 || bit (fieldAt d o 6) 47
    let head (live : Bool) := [
      bad (live && (fdId d == 0 || s.fld.passes.any (fun p => p.sl == sl && p.kind == .inFlight && fdId p.desc == fdId d))) 2,
      bad (fdMask d == 0 || (maskList (fdMask d) 16).any (fun u => s.posOn sl u == 0)) 4]
    let fold (copy : Bool) := [
      bad (fdInFmt d == 0 || decide (6 < fdInFmt d)) 0x10,
      emp (fdNvar d == 0), bad (decide (16 < fdNvar d) || (copy && fdNvar d != 1)) 0x11,
      bad (copy && fdGather d != 0) 0x12, bad (decide (1024 < fdRank d)) 0x14, bad (fmtBad d copy) 0x14,
      bad (!(List.range 16).any (s.fitsUnit sl d)) 0x14,
      bad (!(s.image (fdImage d)).bound || !(match s.sdef sl with | some x => bit x.imageGrant (fdImage d) | none => false)) 0x14,
      emp (fdTiles d == 0), bad (decide (2 ^ 32 < fdFirst d + fdTiles d)) 0x1C,
      if copy then bad (fdReads d != 0) 0x20 else emp (fdReads d == 0)]
    match fdKindOf d with
    | none => some ⟨Status.badField, 0⟩
    | some .inFlight => firstOf (head true ++ fold false ++ [
        bad ((List.range (fdNvar d)).any (fun v => (List.range v).any (fun w => fdPod d v == fdPod d w))) 0x28, bad (!tailZero d) 0x28])
    | some .copy => firstOf (head false ++ fold true ++ [
        bad (align 0x30) 0x30,
        bad (fieldAt d 0x68 8 / 16 != 0) 0x68, bad (!bit (fieldAt d 0x70 6) 47) 0x70])
    | some .step =>
        let opt := bits (fieldAt d 0x14 1) 1 0
        firstOf (head false ++ [bad (fdFast d || fdRescale d) 6, bad (!(List.range 16).any (s.fitsUnit sl d)) 6,
          bad (opt == 0 || opt == 3) 0x14, bad (align 0x18) 0x18,
          bad (f32bad (fieldAt d 0x20 4) || f32neg (fieldAt d 0x20 4)) 0x20, bad (f32bad (fieldAt d 0x24 4) || f32neg (fieldAt d 0x24 4)) 0x24,
          bad (f32bad (fieldAt d 0x28 4) || f32neg (fieldAt d 0x28 4) || f32ge1 (fieldAt d 0x28 4)) 0x28,
          bad (if opt = 1 then fieldAt d 0x2C 4 != 0 else (f32bad (fieldAt d 0x2C 4) || f32neg (fieldAt d 0x2C 4) || f32ge1 (fieldAt d 0x2C 4))) 0x2C,
          bad (opt == 2 && (f32bad (fieldAt d 0x30 4) || f32neg (fieldAt d 0x30 4))) 0x30, bad (f32bad (fieldAt d 0x34 4)) 0x34])
    | some .reduce =>
        let fmt := bits (fieldAt d 0x10 1) 1 0
        let n := fieldAt d 0x12 2
        let len := fieldAt d 0x14 4
        let sb := len * (if fmt = 2 then 2 else 4)
        let stride := fieldAt d 0x20 6
        let dst := fieldAt d 0x28 6
        let src := fieldAt d 0x18 6
        firstOf (head false ++ [bad (fdRescale d) 6, bad (!(List.range 16).any (s.fitsUnit sl d)) 6,
          bad (fmt == 0 || fmt == 3) 0x10, emp (n == 0), bad (decide (1024 < n)) 0x12, emp (len == 0), bad (align 0x18) 0x18,
          bad (n != 1 && (stride == 0 || stride % 256 != 0 || decide (stride < sb))) 0x20,
          bad (align 0x28 || (List.range n).any (fun k => meets dst (4 * len) (src + k * stride) sb)) 0x28])

/-- Tiles of a range that lie in a layer's targets. -/
def PodLayer.covers (l : PodLayer) (first n : Nat) : Bool :=
  lsum (l.targets.map (fun t => min (first + n) (t.firstTix + t.tiles) - max first t.firstTix)) == n

/-- The FMODE a descriptor admitted at a place of the admission order has (R22 of 01, 09 R214). -/
def Pod.fmodeAt (p : Pod) (order : Nat) : Nat := ((p.modes.find? (fun m => decide (order < m.1))).map Prod.snd).getD p.fmode

/-- The checks against the pods a descriptor admitted at `order` names, once they are resident (R167, R169, R192, R214). -/
def State.fdPodCheck (s : State) (sl order : Nat) (d : List Byte) : Option Fail :=
  let bad := some (⟨Status.badField, 0x28⟩ : Fail)
  match fdKindOf d with
  | some .step =>
    match s.pod sl (fieldAt d 0x10 4) with
    | none => bad
    | some p => if p.opt != bits (fieldAt d 0x14 1) 1 0 then bad else if p.life == .frozen then some ⟨Status.podFrozen, 0⟩ else none
  | some .inFlight | some .copy =>
    (List.range (fdNvar d)).findSome? (fun v =>
      match s.pod sl (fdPod d v) with
      | none => bad
      | some p => match p.layers[fdLayer d v]? with
        | none => bad
        | some l => if l.rank != fdRank d || (fdRank d != 0 && f32bad l.alpha) || !l.covers (fdFirst d) (fdTiles d)
            || (fdKindOf d == some .inFlight && bit (p.fmodeAt order) (fdLayer d v)) then bad else none)
  | _ => none

/-- Handles a descriptor names. -/
def fdPods (d : List Byte) : List Nat :=
  match fdKindOf d with
  | some .inFlight | some .copy => (List.range (fdNvar d)).map (fdPod d)
  | some .step => [fieldAt d 0x10 4]
  | _ => []

/-! ## Completions (R187) -/

/-- The 32-byte fold completion of a pass. -/
def Pass.cpl (p : Pass) (status : Nat) (skipped : Bool) (gen : Nat) : List Byte :=
  leBytes 1 status ++ leBytes 1 (1 + 16 * (fdKind p.desc % 8) + (if skipped then 128 else 0)) ++ leBytes 2 (fdId p.desc) ++ leBytes 4 p.tiles
    ++ leBytes 8 (fdTask p.desc) ++ leBytes 4 (min 0xFFFFFFFF p.rereads) ++ leBytes 4 (min 0xFFFFFFFF p.satNf)
    ++ leBytes 2 (min 0xFFFF p.nanElem) ++ leBytes 2 (min 0xFFFF p.nanBlock) ++ leBytes 4 gen

/-! ## Ordering and starting (R159, R175) -/

/-- A pass changed. -/
def State.modPass (s : State) (p : Pass) (f : Pass → Pass) : State :=
  { s with fld := { s.fld with passes := lmod s.fld.passes (fun x => x.sl == p.sl && x.queue == p.queue && x.entry == p.entry) f } }

/-- A pass by its place. -/
def State.passAt (s : State) (sl q entry : Nat) : Option Pass :=
  s.fld.passes.find? (fun p => p.sl == sl && p.queue == q && p.entry == entry)

/-- Whether a descriptor at its turn that waits for a pod's fetch, decided in class 11 before `order`, stands in the way (R175). -/
def State.turnAhead (s : State) (sl order : Nat) (pods : List Nat) (isStep : Bool) : Bool :=
  (s.queuesOf sl).any (fun e => !e.2.waitPods.isEmpty && decide (e.2.orderOf e.2.turn < order) && (match e.2.fetched with
    | some d => (isStep || fdKindOf d == some .step) && (fdPods d).any (fun h => pods.contains h)
    | none => false))

/-- Whether earlier work on a pod stands in the way: a STEP or REBASE, or anything at all when this is one (R175, R199). -/
def State.blocked (s : State) (sl order : Nat) (pods : List Nat) (isStep : Bool) : Bool :=
  s.fld.passes.any (fun y => y.sl == sl && decide (y.order < order) && (isStep || y.kind == .step) && y.pods.any (fun h => pods.contains h))
    || s.pcm.jobs.any (fun j => j.sl == sl && decide (j.order < order) && (isStep || j.rebase) && pods.contains j.pod)
    || s.turnAhead sl order pods isStep

/-- Whether a pass's accumulator tiles are held by another pass of its slice, or a pass admitted before it waits for the unit (R159). -/
def State.accBusy (s : State) (p : Pass) : Bool :=
  s.fld.passes.any (fun y => y.sl == p.sl && y.unit == p.unit && !(y.queue == p.queue && y.entry == p.entry)
    && ((y.st == .waiting && decide (y.order < p.order))
      || (y.st != .waiting && fdUsesAcc p.desc && fdUsesAcc y.desc && meets (fdAcc p.desc) (fdVars p.desc) (fdAcc y.desc) (fdVars y.desc))))

/-! ## Accesses of a pass (09 R206, 11) -/

/-- The lowest position a slice holds on a unit: where a pass's accesses come from (03 R59). -/
def State.portOn (s : State) (sl u : Nat) : Nat := 16 * u + (((List.range 16).find? (fun j => s.posOwner (16 * u + j) == sl)).getD 0)

/-- An address of an image's space (03 R49). -/
def imgAddr (img off : Nat) : Nat := 2 ^ 47 + img * 2 ^ 45 + off

/-- The FLD-class reads of a variant's factor windows for a tile, where the pass takes them from T1 (R170, 09 R192, R206): its B block and its A block. -/
def State.windowSpans (s : State) (p : Pass) (tix v : Nat) : List (Nat × Nat) :=
  let h := fdPod p.desc v
  if fdRank p.desc = 0 || p.shelfSrc.contains h then []
  else match s.pod p.sl h with
  | none => []
  | some pod => match pod.layers[fdLayer p.desc v]? with
    | none => []
    | some l => match l.targets.findSome? (fun t => (t.place tix).map (fun ab => (t, ab))) with
      | none => []
      | some (t, a, b) =>
        let n := 256 * l.rank
        s.podSpan p.sl pod.run.1 (65536 + t.foff + n * a) n ++ s.podSpan p.sl pod.run.1 (65536 + t.foff + n * t.trows + n * b) n

/-- Whether the fold of a tile uses the base tile's scale byte (07 R142): FP8 tiles, and not at rank 0. -/
def fdNeedsScale (d : List Byte) : Bool := fdRank d != 0 && decide (fdInFmt d ≤ 2)

/-- The reads of a base tile, its entry, its scale byte in the image's table, and the windows of the variants `vs` that lie in T1: each passes the Binder and is
regulated as the slice's own (R165). Answers their numbers, in that order. -/
def State.baseReads (s : State) (p : Pass) (tix taddr caddr : Nat) (vs : List Nat) : State × List Nat :=
  let d := p.desc
  let img := fdImage d
  s.readSpans .fld p.sl (s.portOn p.sl p.unit) ([(taddr, tileBytes (fdInFmt d)), (caddr, 8)]
    ++ (if fdNeedsScale d then [(imgAddr img ((s.image img).scaleBase + tix), 1)] else []) ++ vs.flatMap (s.windowSpans p tix))

/-- The variants of a gather whose read has arrived, ascending (R172, R173). -/
def Gather.variants (g : Gather) : List Nat := ascending (uniq (g.reads.map GatherRead.variant))

/-- The base tile of the first gather that has ended is read, once the variants of the one before it have left (R172, R173). A TIX read before counts in REREADS: that
one abandoned by R164 does too is a DESIGN CHOICE, log 82. -/
def State.startGather (s : State) (p : Pass) : State :=
  match s.passAt p.sl p.queue p.entry with
  | none => s
  | some p => match p.gathers.find? (fun g => g.ended) with
    | none => s
    | some g =>
      if !g.ids.isEmpty || p.st != .running then s
      else
        let r := s.baseReads p g.tix g.taddr g.caddr g.variants
        let again := p.baseRead.contains g.tix
        r.1.modPass p (fun x => { x with
          gathers := lmod x.gathers (· == g) (fun g => { g with ids := r.2 }),
          rereads := if again then x.rereads + 1 else x.rereads, baseRead := if again then x.baseRead else x.baseRead ++ [g.tix] })

/-- A COPY pass reads the next tile of its range (R168). -/
def State.copyRead (s : State) (p : Pass) : State :=
  match s.passAt p.sl p.queue p.entry with
  | none => s
  | some p =>
    let d := p.desc
    if p.st != .running || !p.ids.isEmpty || !p.out.isEmpty || fdTiles d ≤ p.tiles then s
    else
      let tix := fdFirst d + p.tiles
      let r := s.baseReads p tix (fieldAt d 0x70 6 + p.tiles * tileBytes (fdInFmt d)) (imgAddr (fdImage d) ((s.image (fdImage d)).crcBase + 8 * tix)) [0]
      r.1.modPass p (fun x => { x with ids := r.2 })

/-- Elements of REDUCE's present block, and the bytes of a source element (R184). -/
def Pass.block (p : Pass) : Nat := min 16384 (fieldAt p.desc 0x14 4 - 16384 * p.tiles)
def redBytes (d : List Byte) : Nat := if bits (fieldAt d 0x10 1) 1 0 = 2 then 2 else 4

/-- A REDUCE pass reads its next block of every source k = 0 … NSRC − 1 (R169, R184). -/
def State.reduceRead (s : State) (p : Pass) : State :=
  match s.passAt p.sl p.queue p.entry with
  | none => s
  | some p =>
    let d := p.desc
    let eb := redBytes d
    if p.st != .running || !p.ids.isEmpty || p.block = 0 then s
    else
      let r := s.readSpans .fld p.sl (s.portOn p.sl p.unit) ((List.range (fieldAt d 0x12 2)).map (fun k =>
        (fieldAt d 0x18 6 + k * fieldAt d 0x20 6 + eb * 16384 * p.tiles, eb * p.block)))
      r.1.modPass p (fun x => { x with ids := r.2 })

/-- A STEP reads its gradient, twice with GCHECK, and the pod's θ and moments (R178, R181, R183, 09 R193). -/
def State.stepRead (s : State) (p : Pass) : State :=
  match s.passAt p.sl p.queue p.entry with
  | none => s
  | some p =>
    match s.pod p.sl (fieldAt p.desc 0x10 4) with
    | none => s
    | some pod =>
      let n := pod.factors.length
      if p.st != .running || !p.ids.isEmpty || !p.wids.isEmpty || n = 0 then s
      else
        let grad := (fieldAt p.desc 0x18 6, 4 * n)
        let r := s.readSpans .fld p.sl (s.portOn p.sl p.unit) ((if bit (fieldAt p.desc 0x14 1) 2 then [grad, grad] else [grad])
          ++ s.podSpan p.sl pod.runT.1 0 (if pod.opt = 2 then 12 * n else 8 * n))
        r.1.modPass p (fun x => { x with ids := r.2 })

/-- What a running pass reads next. -/
def State.startReads (s : State) (p : Pass) : State :=
  match p.kind with
  | .inFlight => s.startGather p
  | .copy => s.copyRead p
  | .reduce => s.reduceRead p
  | .step => s.stepRead p

/-- Pods whose windows a pass that starts now takes from the shelf (09 R206). -/
def State.shelfOf (s : State) (p : Pass) : List Nat :=
  p.pods.filter (fun h => match s.pod p.sl h with | some x => x.res == .t0 || (x.res == .pinned && !x.shelf.isEmpty) | none => false)

/-- A waiting pass starts where nothing stands in its way; a STEP's start raises STEPPING, unless the pod is FROZEN: then it ends with POD_FROZEN and no effect
(R175, R182, 09 R198, R206, R212). -/
def State.tryStart (s : State) (p : Pass) : State :=
  match s.passAt p.sl p.queue p.entry with
  | none => s
  | some p =>
    if p.st != .waiting || s.contained p.sl || s.blocked p.sl p.order p.pods (p.kind == .step) || s.accBusy p then s
    else
      let pod := match p.pods with | h :: _ => s.pod p.sl h | [] => none
      let gen := (pod.map Pod.gen).getD 0
      if p.kind == .step && (pod.map Pod.life) == some .frozen then s.modPass p (fun x => { x with st := .running, ended := some Status.podFrozen })
      else
        let s := (s.modPass p (fun x => { x with st := .running, podGen := if p.kind == .copy then gen else 0, shelfSrc := s.shelfOf p })).startReads p
        if p.kind == .step then s.podEv p.sl (fieldAt p.desc 0x10 4) PodW.stepping [] none else s

/-- A waiting put or rebase starts (R199, R205, R213), its pod judged again: a put of a pod that is no longer resident, or a rebase of one whose section T
is gone, ends with BAD_FIELD. A put's husk, with a fresh SALT, goes to the host, once the DRBG gives one (15 R324); a rebase raises
STEPPING. -/
def State.tryJob (s : State) (j : PodJob) : State :=
  if j.started || s.contained j.sl || s.blocked j.sl j.order [j.pod] j.rebase || ((!j.rebase || j.gen = 0) && s.vlt.drbgStopped) then s
  else
    let mark := fun (f : PodJob → PodJob) (s : State) => { s with pcm := { s.pcm with jobs := lmod s.pcm.jobs (· == j) f } }
    let drop := fun (s : State) => ({ s with pcm := { s.pcm with jobs := s.pcm.jobs.erase j } }.finish j.cmd Status.badField (dtl 0x0C 0) []).settlePods j.sl
    match s.pod j.sl j.pod, s.vfOf j.sl with
    | some p, some v =>
      if j.rebase then (if p.train != 2 then drop s else (mark (fun x => { x with started := true }) s).podEv j.sl j.pod PodW.stepping [] none)
      else if p.res == .absent || p.res == .fetching then drop s
      else
        let salt := leNat (slice (Config.random s.draws 8) 0 8)
        let bytes := p.husk ((s.rootOf j.sl p.rootNo).getD []) salt
        let s := mark (fun x => { x with started := true, gen := p.gen, len := bytes.length }) s.drawn
        s.hostWrite .huskPut j.sl j.pod 0 v (s.fn v).gen j.addr bytes
    | _, _ => drop s

/-- FOLD_START: everything that waits and may start does, in admission order (R159, R175). -/
def State.startWork (s : State) : State :=
  let s := (sortBy (fun a b => decide (a.order ≤ b.order)) s.fld.passes).foldl (fun s p => s.tryStart p) s
  s.pcm.jobs.foldl (fun s j => s.tryJob j) s

/-! ## Adapted tile reads (R171, R172) -/

/-- An error response to a tile read. -/
def State.tileError (s : State) (rid cluster : Nat) : State := s.emit .tile [rid, cluster, 1] []

/-- FOLD_REQUEST (R171): a tile read that breaks the conditions of its FDID is answered with an error and faults its slice. -/
def State.foldRequest (s : State) (rid cluster sl fdid tix variant : Nat) : State :=
  (s.tileError rid cluster).raiseFault Sub.fld (some sl)
    { FaultEv.base 0x03 2 [sl] with cluster := cluster, aux := fdid, da := tix, addr := variant }

/-- Whether TIX lies in a spare expert range of an image whose expert binding a pod does not hold (09 R217). -/
def State.spareDenied (s : State) (sl img tix h : Nat) : Bool :=
  match (s.image img).spares.find? (fun e => e.first ≤ tix && tix < e.first + e.tiles) with
  | none => false
  | some e => tget (dflt none) s.pcm.experts (expertKey sl e.layer e.spare) != some h

/-- An adapted tile read joins the gather of its TIX; one whose FDID names a suspended pass is held; one whose FDID ended with CHECK_FAILED, or whose pass an error has
ended, is answered with an error; any other that breaks a condition is a FOLD_REQUEST (R171, R172, R174, R175). -/
def State.tileAsk (s : State) (h : TileHold) : State :=
  let sl := (s.cluster h.cluster).owner
  match s.fld.passes.find? (fun p => p.sl == sl && p.kind == .inFlight && fdId p.desc == h.fdid) with
  | none => if s.fld.failed.contains (sl, h.fdid) then s.tileError h.rid h.cluster else s.foldRequest h.rid h.cluster sl h.fdid h.tix h.variant
  | some p =>
    let d := p.desc
    let asked := p.served + lsum (p.gathers.map (fun g => g.reads.length))
    let sameAddr := match p.seen.find? (fun e => e.1 == h.tix) with
      | some e => e.2 == (h.taddr, h.caddr)
      | none => true
    if p.st == .suspended then { s with fld := { s.fld with held := s.fld.held ++ [h] } }
    else match (List.range (fdNvar d)).find? (fun v => fdPod d v == h.variant) with
    | none => s.foldRequest h.rid h.cluster sl h.fdid h.tix h.variant
    | some v =>
      if p.ended.isSome then s.tileError h.rid h.cluster
      else if !(fdFirst d ≤ h.tix && h.tix < fdFirst d + fdTiles d) || h.fmt != (if fdRank d = 0 then fdInFmt d else fdOutFmt d) || !sameAddr
          || fdReads d ≤ asked || s.spareDenied sl (fdImage d) h.tix h.variant then s.foldRequest h.rid h.cluster sl h.fdid h.tix h.variant
      else
        let rd : GatherRead := ⟨h.cluster, v, h.rid⟩
        let gs := if p.gathers.any (fun g => g.tix == h.tix && !g.ended)
          then lmod p.gathers (fun g => g.tix == h.tix && !g.ended) (fun g => { g with reads := g.reads ++ [rd] })
          else p.gathers ++ [⟨h.tix, s.spn.tick, h.taddr, h.caddr, [rd], false, [], []⟩]
        s.modPass p (fun x => { x with
          gathers := gs, seen := if x.seen.any (fun e => e.1 == h.tix) then x.seen else x.seen ++ [(h.tix, h.taddr, h.caddr)] })

/-- Tile reads held for a suspended pass are judged again once it has resumed or ended (R171). -/
def State.releaseTiles (s : State) (sl fdid : Nat) : State :=
  let mine := fun (h : TileHold) => (s.cluster h.cluster).owner == sl && h.fdid == fdid
  let hs := s.fld.held.filter mine
  hs.foldl (fun s h => s.tileAsk h) { s with fld := { s.fld with held := s.fld.held.filter (fun h => !mine h) } }

/-- The reads gathered by passes that end are answered with an error, and their accesses are no longer waited for. -/
def State.dropReads (s : State) (p : Pass) : State :=
  let s := p.gathers.foldl (fun s g => g.reads.foldl (fun s r => s.tileError r.rid r.cluster) s) s
  s.dropColls (p.ids ++ p.wids ++ p.gathers.flatMap Gather.ids)

/-- GEN of a fold completion (R187): the generation a COPY has folded, or a STEP's pod has now. -/
def State.genOf (s : State) (p : Pass) : Nat :=
  match p.kind with
  | .copy => p.podGen
  | .step => ((s.pod p.sl (fieldAt p.desc 0x10 4)).map Pod.gen).getD 0
  | _ => 0

/-- A pass ends: its completion waits to be written, its holds end, and what waited for it may start (R187). -/
def State.endPass (s : State) (p : Pass) (status : Nat) (skipped : Bool) : State :=
  let cpl := p.cpl status skipped (s.genOf p)
  let s := s.dropReads p
  let s := { s with fld := { s.fld with passes := s.fld.passes.filter (fun x => !(x.sl == p.sl && x.queue == p.queue && x.entry == p.entry)) } }
  let s := if p.kind == .inFlight then s.releaseTiles p.sl (fdId p.desc) else s
  ((s.queueCpl p.sl p.queue p.entry false (fdTask p.desc) cpl).settlePods p.sl).startWork

/-! ## Admission (R165, R170, R175, R204) -/

/-- The unit of its mask with the fewest admitted passes of the slice waiting that fits the pass; ties to the lower unit (R165). -/
def State.pickUnit (s : State) (sl : Nat) (d : List Byte) : Option Nat :=
  let load := fun u => (s.fld.passes.filter (fun p => p.sl == sl && p.unit == u && p.st == .waiting)).length
  ((List.range 16).filter (s.fitsUnit sl d)).foldl (fun m u => match m with
    | none => some u
    | some b => if load u < load b then some u else some b) none

/-- A fold descriptor at its turn: checked, kept waiting while its pods are fetched, or admitted on a unit (R165, R204, R207). -/
def State.foldTurn (s : State) (sl q : Nat) (k : FoldKind) : State :=
  match s.atTurn sl q .fold with
  | none => s
  | some (x, d) =>
    if (fdKindOf d).isSome && fdKindOf d != some k then s
    else match s.fdCheck sl d with
    | some f => s.foldFail sl q x d f.status
    | none =>
      let ps := fdPods d
      if x.podFail != 0 then
        let s := if k == FoldKind.inFlight && x.podFail = Status.checkFailed then { s with fld := { s.fld with failed := s.fld.failed ++ [(sl, fdId d)] } } else s
        let s := { s with dpa := { s.dpa with tasks := lmod s.dpa.tasks (fun t => t.sl == sl && k == FoldKind.inFlight && x.podFail = Status.checkFailed
            && (List.range 4).any (fun i => fieldAt t.desc (0x48 + 2 * i) 2 == fdId d)) (fun t => { t with failed := true }) } }
        s.foldFail sl q x d x.podFail
      else if ps.any (fun h => match s.pod sl h with | some p => p.life == .retired | none => true) then s.foldFail sl q x d Status.badField
      else if ps.any (fun h => match s.pod sl h with | some p => p.res == .absent || p.res == .fetching | none => true) then
        let s := ps.foldl (fun s h => s.wantPod sl h) s
        s.modQueue sl q (fun x => { x with waitPods := ps, waitFdid := if k == FoldKind.inFlight then some (fdId d) else none })
      else match s.fdPodCheck sl (x.orderOf x.turn) d with
      | some f => s.foldFail sl q x d f.status
      | none =>
        let needT := k == .step && ps.any (fun h => match s.pod sl h with | some p => p.train != 2 | none => true)
        if needT then
          let s := s.modQueue sl q (fun x => { x with waitPods := ps })
          ps.foldl (fun s h => s.wantTrain sl h) s
        else match s.pickUnit sl d with
        | none => s.foldFail sl q x d Status.badField
        | some u =>
          let p : Pass := {
            sl := sl, queue := q, jgen := x.jgenOf x.turn, entry := x.turn, kind := k, desc := d, order := x.orderOf x.turn, st := .waiting,
            unit := u, tiles := 0, served := 0, rereads := 0, satNf := 0, nanElem := 0, nanBlock := 0, podGen := 0, ended := none,
            gathers := [], baseRead := [], seen := [], shelfSrc := [], ids := [], wids := [], out := [] }
          let s := { s with fld := { s.fld with passes := s.fld.passes ++ [p],
                                                failed := s.fld.failed.filter (fun e => !(k == FoldKind.inFlight && e == (sl, fdId d))) } }
          let s := ps.foldl (fun s h =>
            let s := s.touchPod sl h
            match s.pod sl h with
            | some y => if y.res == PodRes.t1 && !s.pcm.promos.contains (sl, h) then (s.promote sl h).1 else s
            | none => s) s
          (s.nextTurn sl q).startWork

/-- IN_FLIGHT (R170): an IN_FLIGHT descriptor at the turn of fold queue `q` is checked and admitted. A descriptor of no kind fails here. -/
def execInFlight (sl q : Nat) (s : State) : Host.Outcome State Fault Refusal := .next (s.foldTurn sl q .inFlight)
/-- COPY (R176): a COPY descriptor at its turn is checked and admitted; its tiles are folded and written by TILE_FOLD_DONE. -/
def execCopy (sl q : Nat) (s : State) : Host.Outcome State Fault Refusal := .next (s.foldTurn sl q .copy)
/-- STEP (R178): a STEP descriptor at its turn is checked and admitted; it starts once every earlier pass naming its pod has completed. -/
def execStep (sl q : Nat) (s : State) : Host.Outcome State Fault Refusal := .next (s.foldTurn sl q .step)
/-- REDUCE (R184): a REDUCE descriptor at its turn is checked and admitted. -/
def execReduce (sl q : Nat) (s : State) : Host.Outcome State Fault Refusal := .next (s.foldTurn sl q .reduce)

/-! ## Tile checks at the fold input (06 R131, R135, R136) -/

/-- A tile's checksum (06 R127). -/
def tileCrc (tile : List Byte) (tix ver variant : Nat) : Nat := crc32c (tile ++ leBytes 4 tix ++ leBytes 4 ver ++ leBytes 4 variant)

/-- An armed injection at a site: bit 0 of the recomputed CRC is inverted once, at the next check there (06 R138). -/
def State.injected (s : State) (site crc : Nat) : State × Nat :=
  let r := s.rd R.tcuInject
  if bit r 2 && r % 4 == site then (s.wr R.tcuInject (r % 4), crc ^^^ 1) else (s, crc)

/-- TILE_CHECK (06 R136): a failed check is counted, shown in LLY_TCU_LAST, and a fault of the slice. -/
def State.tileFault (s : State) (site sl image tix fmt variant expected got : Nat) (f : FaultEv) : State :=
  let s := s.bump R.tcuMissCnt 1
  let s := (s.wr R.tcuLast (site + 4 * image + 16 * fmt + 256 * sl)).wr R.tcuLastTix tix
  s.raiseFault Sub.tcu (some sl) { f with
    kind := 0x01, scope := 2, slices := [sl], sub := site, aux := image + 4 * fmt, da := tix, addr := variant, db := expected, dc := got }

/-- The hub checker of a fold unit (06 R135): answers whether the base tile passed. -/
def State.hubCheck (s : State) (p : Pass) (tix : Nat) (tile ent : List Byte) : State × Bool :=
  let crc := fieldAt ent 0 4
  let fmt := fieldAt ent 4 4
  let img := fdImage p.desc
  let (s, got) := s.injected 1 (tileCrc tile tix (s.image img).ver 0)
  if fmt == fdInFmt p.desc && got == crc then (s, true)
  else (s.tileFault 1 p.sl img tix (fdInFmt p.desc) 0 crc got
    { FaultEv.base 1 2 [p.sl] with queue := p.queue, jgen := p.jgen, taskId := fdTask p.desc }, false)

/-- The factor windows of tile `tix` in a layer of a pod: B block and A block (09 R192). -/
def Pod.windows (p : Pod) (l : PodLayer) (tix : Nat) : List Nat × List Nat :=
  match l.targets.findSome? (fun t => (t.place tix).map (fun ab => (t, ab))) with
  | none => ([], [])
  | some (t, a, b) =>
    let base := t.foff / 2
    ((p.factors.drop (base + 128 * l.rank * a)).take (128 * l.rank),
     (p.factors.drop (base + 128 * l.rank * t.trows + 128 * l.rank * b)).take (128 * l.rank))

/-- One variant of a base tile as it leaves: bytes, CRC, recomputed scale and counts (06 R131, R132, 07). Rank 0 leaves the tile as it is: in flight with its stored
CRC, in a COPY with one over the pod's handle. -/
def State.foldVariant (s : State) (p : Pass) (v tix tscale : Nat) (tile ent : List Byte) (draw : Nat) : TileOut × Nat :=
  let d := p.desc
  let h := fdPod d v
  let ver := (s.image (fdImage d)).ver
  if fdRank d = 0 then (⟨tile, none, 0, 0, 0, []⟩, if p.kind == .copy then tileCrc tile tix ver h else fieldAt ent 0 4)
  else
    let out := match s.pod p.sl h with
      | none => ⟨[], none, 0, 0, 0, []⟩
      | some pod => match pod.layers[fdLayer d v]? with
        | none => ⟨[], none, 0, 0, 0, []⟩
        | some l =>
          let w := pod.windows l tix
          foldTile ⟨fdInFmt d, fdOutFmt d, fdRescale d, fdFast d, fdRank d, l.alpha⟩ draw tile tscale w.1 w.2
    (out, tileCrc out.bytes tix ver h)

/-! ## Accumulator tiles, factor buffers and cycles (R160–R163, R170, R177) -/

/-- The positions a slice holds on a unit, ascending (R162). -/
def State.posList (s : State) (sl u : Nat) : List Nat := (List.range 16).filter (fun j => s.posOwner (16 * u + j) == sl)

/-- Physical tile of allotment tile `i` of a slice on unit `u`, with the unit (R162). -/
def State.accPlace (s : State) (sl u i : Nat) : Nat := 64 * u + 4 * (s.posList sl u).getD (i / 4) 0 + i % 4

/-- What an allotment tile holds, as the arithmetic leaves it (R158, R160). -/
def State.setAcc (s : State) (sl u i : Nat) (vals : List Nat) : State :=
  { s with fld := { s.fld with acc := tset (dflt []) s.fld.acc (s.accPlace sl u i) vals } }

/-- BF16 words in a slice's factor-buffer allotment on a unit from word `off` on: 65,536 words in each of its positions (R160, R162). -/
def State.setFbuf (s : State) (sl u off : Nat) (ws : List Nat) : State :=
  let ps := s.posList sl u
  (List.range ps.length).foldl (fun s k =>
    let lo := max off (65536 * k)
    let part := (ws.drop (lo - off)).take (65536 * (k + 1) - lo)
    if part.isEmpty || 65536 * (k + 1) ≤ off then s
    else
      let key := 16 * u + ps.getD k 0
      let old := let o := tget (dflt []) s.fld.fbuf key; o ++ List.replicate (65536 - o.length) 0
      let a := lo - 65536 * k
      { s with fld := { s.fld with fbuf := tset (dflt []) s.fld.fbuf key (old.take a ++ part ++ old.drop (a + part.length)) } }) s

/-- The factor windows of a variant as loaded for its last pass of at most 256 ranks: 512 words of B and A for each rank, at variant v's place of the allotment
(R170; which half of the double buffer is a DESIGN CHOICE, log 79). -/
def State.loadWindows (s : State) (p : Pass) (v tix : Nat) : State :=
  match s.pod p.sl (fdPod p.desc v) with
  | none => s
  | some pod => match pod.layers[fdLayer p.desc v]? with
    | none => s
    | some l =>
      let w := pod.windows l tix
      let lo := 256 * (ceilDiv l.rank 256 - 1)
      let b := (List.range 128).flatMap (fun i => ((w.1.drop (l.rank * i)).take l.rank).drop lo)
      s.setFbuf p.sl p.unit (512 * min l.rank 256 * v) (b ++ w.2.drop (128 * lo))

/-- Cycles of the slice that a variant of a tile takes, and those of a base tile folded for `v` variants (R177). -/
def fdVarCost (d : List Byte) : Nat :=
  let li := tileBytes (fdInFmt d) / 256
  let lo := tileBytes (fdOutFmt d) / 256
  if fdRank d = 0 then li
  else if fdRescale d then 64 * ceilDiv (fdRank d) 16 + lo
  else max (64 * ceilDiv (fdRank d) 16) lo

def fdTileCost (d : List Byte) (v : Nat) : Nat := max (tileBytes (fdInFmt d) / 256) (v * fdVarCost d)

/-- Cycles of STEP over `n` elements (R183): a full unit steps 128 of them in a cycle for SGD and 32 for AdamW. -/
def stepCost (d : List Byte) (n : Nat) : Nat := ceilDiv n (if bits (fieldAt d 0x14 1) 1 0 = 2 then 32 else 128)

/-- Cycles of REDUCE's present block (R184): a full unit performs 256 additions in a cycle. -/
def Pass.redCost (p : Pass) : Nat := ceilDiv (fieldAt p.desc 0x12 2 * p.block) 256

/-- The cycles that a running pass's present tile or block still takes, once what it works on is here. -/
def State.wantCycles (s : State) (p : Pass) : Nat :=
  let here := fun (ids : List Nat) => !ids.isEmpty && ids.all s.collDone
  if p.st != .running || p.ended.isSome then 0
  else match p.kind with
  | .inFlight => match p.gathers.find? (fun g => g.ended) with
    | none => 0
    | some g => if !here g.ids then 0 else if g.out.isEmpty then fdTileCost p.desc g.variants.length else lsum (g.out.map GatherOut.cost)
  | .copy => if !p.out.isEmpty then lsum (p.out.map GatherOut.cost) else if here p.ids then fdTileCost p.desc 1 else 0
  | .reduce => if here p.ids then p.redCost else 0
  | .step => if here p.ids && p.wids.isEmpty then stepCost p.desc (((s.pod p.sl (fieldAt p.desc 0x10 4)).map (fun x => x.factors.length)).getD 0) else 0

/-- Cycles a slice has had of a unit and not yet used, by 64·unit + slice. -/
def cycKey (u sl : Nat) : Nat := 64 * u + sl

/-- The cycles of a pass taken, where it has had them (R163, R177). -/
def State.spend (s : State) (p : Pass) (c : Nat) : Option State :=
  let k := cycKey p.unit p.sl
  let n := tget (dflt 0) s.fld.cyc k
  if c ≤ n then some { s with fld := { s.fld with cyc := tset (dflt 0) s.fld.cyc k (n - c) } } else none

/-- One tick of a unit's cycles for a slice: those of its own positions but the ones it has lent for the epoch, and the lent ones it is offered. What its passes cannot
use passes idle (R163, 11 R265, R266). -/
def State.cycleMove (s : State) (u sl offered : Nat) : State :=
  let k := cycKey u sl
  let want := lsum ((s.fld.passes.filter (fun p => p.sl == sl && p.unit == u)).map s.wantCycles)
  let had := tget (dflt 0) s.fld.cyc k
  if want = 0 then (if had = 0 then s else { s with fld := { s.fld with cyc := tset (dflt 0) s.fld.cyc k 0 } })
  else
    let per := s.posCycles
    let own := (s.posList sl u).map (fun j => 16 * u + j) |>.filter (fun p => !s.bwr.idlePos.contains p)
    let now := had + per * own.length + offered
    let s := { s with fld := { s.fld with cyc := tset (dflt 0) s.fld.cyc k (min want now) },
                      bwr := { s.bwr with usedPos := uniq (s.bwr.usedPos ++ own.take (ceilDiv (want - had) (max 1 per))) } }
    if now < want then s.modAcc sl (fun a => a.claim (8 + u)) else s

/-- One tick of the fold units' cycles (R163, R177). -/
def State.foldTick (s : State) : State :=
  if s.fld.passes.isEmpty && s.bwr.idlePos.isEmpty then s
  else (List.range 16).foldl (fun s u =>
    let r := s.offers (8 + u) (16 * u) 16 s.posCycles s.bwr.idlePos
    s.slices.foldl (fun s d => s.cycleMove u d.slice (tget (dflt 0) r.2 d.slice)) r.1) s

/-- GATHER_END (R172): the gather of a TIX ends when reads of every variant have arrived or GATHER tk have passed; its base tile is then read, once the gathers that
ended before it have been folded and emitted (R173). -/
def execGatherEnd (sl q entry tix : Nat) (s : State) : Host.Outcome State Fault Refusal :=
  match s.passAt sl q entry with
  | none => .next s
  | some p =>
    match p.gathers.find? (fun g => g.tix == tix && !g.ended) with
    | none => .next s
    | some g =>
      if s.mce.fenced || p.st != .running || p.ended.isSome || s.contained sl
          || !(decide (fdNvar p.desc ≤ g.variants.length) || decide (g.since + fdGather p.desc ≤ s.spn.tick)) then .next s
      else
        let s := s.modPass p (fun x => { x with gathers := x.gathers.filter (fun y => y != g) ++ [{ g with ended := true }] })
        .next (s.startGather p)

/-- A base tile has come: it is checked at FOLD_IN and folded for the variants `vs`, whose bytes, CRC and cycles are answered; none where the check fails
(06 R131, R135, R177). -/
def State.foldBase (s : State) (p : Pass) (tix : Nat) (ids vs : List Nat) : State × Option (List GatherOut) :=
  let d := p.desc
  let tile := s.collBytes (ids.getD 0 0)
  let ent := s.collBytes (ids.getD 1 0)
  let tscale := if fdNeedsScale d then fieldAt (s.collBytes (ids.getD 2 0)) 0 1 else 0x7F
  let c := s.hubCheck p tix tile ent
  let s := c.1.dropColls ids
  if !c.2 then (s, none)
  else
    let r := (List.range vs.length).foldl (fun (acc : State × List GatherOut) i =>
      let v := vs.getD i 0
      let s := acc.1.loadWindows p v tix
      let o := s.foldVariant p v tix tscale tile ent s.draws
      let s := if fdRank d = 0 then s else s.setAcc p.sl p.unit (fdAcc d + v) o.1.acc
      let cost := if i = 0 then fdTileCost d vs.length - (vs.length - 1) * fdVarCost d else fdVarCost d
      ({ s with draws := s.draws + 131072 }, acc.2 ++ [⟨v, o.1.bytes, o.2, cost, o.1.scale, o.1.sat, o.1.nanE, o.1.nanB⟩])) (s, [])
    (r.1, some r.2)

/-- The counts of a tile that leaves (R157, R187). -/
def Pass.counted (p : Pass) (o : GatherOut) : Pass :=
  { p with tiles := p.tiles + 1, satNf := p.satNf + o.sat, nanElem := p.nanElem + o.nanE, nanBlock := p.nanBlock + o.nanB }

/-- The next folded variant leaves whole with its CRC to every cluster whose read was gathered, once its cycles have passed; after the last, the next gather's base tile
is read (R172, R173). -/
def State.emitVariant (s : State) (p : Pass) (g : Gather) : State :=
  match g.out with
  | [] => (s.modPass p (fun x => { x with gathers := x.gathers.filter (fun y => y != g) })).startGather p
  | o :: rest =>
    match s.spend p o.cost with
    | none => s
    | some s =>
      let rs := g.reads.filter (fun r => r.variant == o.v)
      let ident := if fdRank p.desc = 0 then 1 else 0
      let fmt := if fdRank p.desc = 0 then fdInFmt p.desc else fdOutFmt p.desc
      let s := rs.foldl (fun s r => s.emit .tile [r.rid, r.cluster, 0, o.crc, fmt, ident, fdImage p.desc, g.tix, fdPod p.desc o.v] o.bytes) s
      let g' : Gather := { g with out := rest, reads := g.reads.filter (fun r => r.variant != o.v) }
      let s := s.modPass p (fun x => { x.counted o with
        served := x.served + rs.length, gathers := x.gathers.flatMap (fun y => if y == g then (if rest.isEmpty then [] else [g']) else [y]) })
      if rest.isEmpty then s.startGather p else s

/-- A pass whose access came back bad, or whose tile failed its check, is discarded for every variant and ends with FAULTED; nothing is tried again (06 R135–R137,
22 R470). -/
def State.passBad (s : State) (p : Pass) : State :=
  (s.dropReads p).modPass p (fun x => { x with ended := some Status.faulted, gathers := [], ids := [], wids := [], out := [] })

/-- The first ended gather of an IN_FLIGHT pass goes on: its base tile is folded once its reads have come, and its variants are emitted (R172, R173). -/
def State.gatherStep (s : State) (p : Pass) : State :=
  match p.gathers.find? (fun g => g.ended) with
  | none => s
  | some g =>
    if g.reads.isEmpty then (s.dropColls g.ids).emitVariant p { g with out := [] }
    else if g.ids.isEmpty then s.startGather p
    else if !g.out.isEmpty then s.emitVariant p g
    else if g.ids.any (fun i => !s.collDone i) then s
    else if g.ids.any (fun i => s.collBad i != 0) then s.passBad p
    else match s.foldBase p g.tix g.ids g.variants with
      | (s, none) => s.passBad p
      | (s, some outs) =>
        let g' := { g with out := outs }
        (s.modPass p (fun x => { x with gathers := lmod x.gathers (· == g) (fun _ => g') })).emitVariant p g'

/-- What a COPY pass writes for one tile, under the slice's tag: the tile, its entry, and with RESCALE its scale byte (R168, R176). -/
def State.copyWrites (s : State) (p : Pass) (tix : Nat) (o : GatherOut) : State :=
  let d := p.desc
  let fmt := if fdRank d = 0 then fdInFmt d else fdOutFmt d
  let ps := [(fieldAt d 0x30 6 + (tix - fdFirst d) * tileBytes fmt, o.bytes.length), (fieldAt d 0x38 6 + 8 * tix, 8)]
    ++ (if o.scale.isSome then [(fieldAt d 0x40 6 + tix, 1)] else [])
  let r := s.writeSpans .fld p.sl (s.portOn p.sl p.unit) ps (o.bytes ++ leBytes 4 o.crc ++ leBytes 4 fmt ++ leBytes 1 (o.scale.getD 0))
  r.1.modPass p (fun x => { x with wids := x.wids ++ r.2 })

/-- Writes of a pass that have been accepted are forgotten; those on their way or refused are kept (R176). -/
def State.settleWrites (s : State) (p : Pass) : State :=
  let ok := p.wids.filter (fun i => s.collDone i && s.collBad i == 0)
  (s.dropColls ok).modPass p (fun x => { x with wids := x.wids.filter (fun i => !ok.contains i) })

/-- A COPY pass goes on: the tile read is checked and folded, and written once its cycles have passed; then the next is read (R176, R177). -/
def State.copyStep (s : State) (p : Pass) : State :=
  let s := s.settleWrites p
  let tix := fdFirst p.desc + p.tiles
  let put := fun (s : State) (o : GatherOut) => match s.spend p o.cost with
    | none => s
    | some s => ((s.copyWrites p tix o).modPass p (fun x => { x.counted o with out := [] })).copyRead p
  match p.out with
  | o :: _ => put s o
  | [] =>
    if p.ids.isEmpty then s.copyRead p
    else if p.ids.any (fun i => !s.collDone i) then s
    else if p.ids.any (fun i => s.collBad i != 0) then s.passBad p
    else match s.foldBase p tix p.ids [0] with
      | (s, none) => s.passBad p
      | (s, some outs) => match outs with
        | [] => s
        | o :: _ => put (s.modPass p (fun x => { x with ids := [], out := [o] })) o

/-- The sources of an element in the order REDUCE takes them (R184). -/
def reduceOrder (fast : Bool) (draw : Nat) (xs : List Nat) : List Nat := if fast then freeOrder draw xs xs.length else xs

/-- A REDUCE pass goes on: its block's sources have come and its cycles have passed: the sums are written to DST, and the next block is read (R184). -/
def State.reduceStep (s : State) (p : Pass) : State :=
  let s := s.settleWrites p
  let d := p.desc
  let eb := redBytes d
  if p.ids.isEmpty then s.reduceRead p
  else if p.ids.any (fun i => !s.collDone i) then s
  else if p.ids.any (fun i => s.collBad i != 0) then s.passBad p
  else match s.spend p p.redCost with
  | none => s
  | some s =>
    let n := p.block
    let srcs := p.ids.map (fun i => words eb (s.collBytes i))
    let out := (List.range n).map (fun e =>
      reduceElem (bits (fieldAt d 0x10 1) 1 0) (reduceOrder (fdFast d) (s.draws + e) (srcs.map (fun x => x.getD e 0))))
    let s := ({ s with draws := s.draws + n }.dropColls p.ids).setAcc p.sl p.unit (fdAcc d) out
    let r := s.writeSpans .fld p.sl (s.portOn p.sl p.unit) [(fieldAt d 0x28 6 + 65536 * p.tiles, 4 * n)] (out.flatMap (leBytes 4))
    (r.1.modPass p (fun x => { x with tiles := x.tiles + 1, ids := [], wids := x.wids ++ r.2 })).reduceRead p

/-- TILE_FOLD_DONE (R173, R176, R184): the work of a running pass goes on by one tile or block. Of an IN_FLIGHT pass, the next folded variant leaves whole with its CRC to
every cluster whose read for it was gathered; of a COPY pass, the next tile of the range is checked, folded and written; of a REDUCE, the next
block is summed and written. What has not yet been read, or has not had its cycles (R177), waits; behind the fence of a halt nothing moves
(05 R114). -/
def execTileFoldDone (sl q entry : Nat) (s : State) : Host.Outcome State Fault Refusal :=
  match s.passAt sl q entry with
  | none => .next s
  | some p =>
    if s.mce.fenced || p.st != .running || p.ended.isSome || s.contained sl then .next s
    else match p.kind with
    | .inFlight => .next (s.gatherStep p)
    | .copy => .next (s.copyStep p)
    | .reduce => .next (s.reduceStep p)
    | .step => .next s

/-- PASS_DONE (R187): a fold, copy or reduce pass ends. An IN_FLIGHT pass has served NREADS reads (R174); a COPY or REDUCE has done its range and
every write has been accepted (R176, R184), or one was refused; a pass an error has ended completes with its status (22 R470). -/
def execPassDone (sl q entry : Nat) (s : State) : Host.Outcome State Fault Refusal :=
  match s.passAt sl q entry with
  | none => .next s
  | some p =>
    if s.contained sl || s.mce.fenced then .next s
    else match p.ended with
    | some st => if p.kind == .step && st == Status.ok then .next s else .next (s.endPass p st false)
    | none =>
      let wrote := p.ids.isEmpty && p.out.isEmpty && p.wids.all s.collDone
      let st := if p.wids.any (fun i => s.collBad i != 0) then Status.faulted else Status.ok
      if p.st != .running then .next s
      else match p.kind with
      | .inFlight => if fdReads p.desc ≤ p.served then .next (s.endPass p Status.ok false) else .next s
      | .copy => if fdTiles p.desc ≤ p.tiles && wrote then .next (s.endPass p st false) else .next s
      | .reduce => if p.block = 0 && wrote then .next (s.endPass p st false) else .next s
      | .step => .next s

/-! ## STEP (R178–R182) -/

/-- The elements of a pod with its gradient. -/
def Pod.elems (p : Pod) : List Elem :=
  (List.range p.factors.length).map (fun i => ⟨p.theta.getD i 0, p.mom.getD i 0, p.var.getD i 0, p.factors.getD i 0⟩)

/-- A pod after a STEP with gradient `g` under a descriptor: the pod, whether it was skipped whole, and NF_SKIP (R179–R181). -/
def Pod.stepped (p : Pod) (d : List Byte) (g : List Nat) : Pod × Bool × Nat :=
  let f := fun o => unpack32 (fieldAt d o 4)
  let gamma := f 0x34
  let skip := bit (fieldAt d 0x14 1) 2 && (List.range p.factors.length).any (fun i => !(fmul gamma (unpack32 (g.getD i 0))).finite)
  if skip then (p, true, 0)
  else
    let adam := bits (fieldAt d 0x14 1) 1 0 == 2
    let c := adamConst p.p1 p.p2 (f 0x28) (f 0x2C) (f 0x20) (f 0x24)
    let xs := p.elems
    let rs := (List.range xs.length).map (fun i =>
      let x := xs.getD i ⟨0, 0, 0, 0⟩
      if adam then adamElem c gamma (f 0x28) (f 0x2C) (f 0x20) (f 0x30) (g.getD i 0) x
      else sgdElem gamma (f 0x24) (f 0x28) (f 0x20) (g.getD i 0) x)
    ({ p with theta := rs.map (fun r => r.1.th), mom := rs.map (fun r => r.1.m), var := if adam then rs.map (fun r => r.1.v) else p.var,
              factors := rs.map (fun r => r.1.fac), p1 := if adam then pack32 c.p1 else p.p1, p2 := if adam then pack32 c.p2 else p.p2 },
      false, (rs.filter Prod.snd).length)

/-- The writes of a STEP: the new factors, P1 and P2, θ and the moments in the pod's runs (R182, R183, 09 R193, R197). -/
def State.stepWrites (s : State) (p : Pass) (pod : Pod) : State × List Nat :=
  let n := pod.factors.length
  let port := s.portOn p.sl p.unit
  let put := fun (a : State × List Nat) (u off : Nat) (bs : List Byte) =>
    let r := a.1.writeSpans .fld p.sl port (s.podSpan p.sl u off bs.length) bs
    (r.1, a.2 ++ r.2)
  let a := put (s, []) pod.run.1 4096 (leBytes 4 pod.p1 ++ leBytes 4 pod.p2)
  let a := if n = 0 then a else put a pod.run.1 65536 (pod.factors.flatMap (leBytes 2))
  if n = 0 then a else put a pod.runT.1 0 ((pod.theta ++ pod.mom ++ (if pod.opt = 2 then pod.var else [])).flatMap (leBytes 4))

/-- STEP_DONE (R178–R182): the STEP's gradient and state have been read and its cycles have passed: the masters, moments and factors take their new values and are
written; once every write has been accepted, the end of STEPPING is raised in class 6, where the generation advances and the completion is made. A
read or write that came back bad ends it with FAULTED and the pod ABSENT (09 R220). -/
def execStepDone (sl q entry : Nat) (s : State) : Host.Outcome State Fault Refusal :=
  match s.passAt sl q entry with
  | none => .next s
  | some p =>
    let h := fieldAt p.desc 0x10 4
    if s.mce.fenced || p.kind != .step || p.st != .running || p.ended.isSome || s.contained sl then .next s
    else match s.pod sl h with
    | none => .next s
    | some pod =>
      if pod.life != .stepping then .next s
      else if (p.ids ++ p.wids).any (fun i => !s.collDone i) then .next s
      else if (p.ids ++ p.wids).any (fun i => s.collBad i != 0) then .next ((s.abortStep sl h).endPass p Status.faulted false)
      else if !p.wids.isEmpty then
        .next (((s.dropColls p.wids).modPass p (fun x => { x with wids := [], ended := some Status.ok })).podEv sl h PodW.stepEnd [q, entry, 0, p.tiles] none)
      else if p.ids.isEmpty && !pod.factors.isEmpty then .next (s.stepRead p)
      else match s.spend p (stepCost p.desc pod.factors.length) with
      | none => .next s
      | some s =>
        let (pod', skipped, nf) := pod.stepped p.desc (words 4 (s.collBytes (p.ids.getD 0 0)))
        let n := if skipped then 0 else ceilDiv pod.factors.length 16384
        let s := s.dropColls p.ids
        if n = 0 then
          .next ((s.modPass p (fun x => { x with tiles := 0, ids := [], ended := some Status.ok })).podEv sl h PodW.stepEnd [q, entry, if skipped then 1 else 0, 0] none)
        else
          let s := (s.setPod sl h (some pod')).setAcc sl p.unit (fdAcc p.desc) (pod'.theta.drop (16384 * (n - 1)))
          let r := s.stepWrites p pod'
          .next (r.1.modPass p (fun x => { x with tiles := n, satNf := nf, ids := [], wids := r.2 }))

/-- The end of a STEP in effect (R182, R198, R212): GEN advances if a block was written, LIFE leaves STEPPING or becomes FROZEN, and the
descriptor completes. One whose STEP has been ended meanwhile has no effect (09 R220). -/
def State.stepEnd (s : State) (sl h : Nat) (args : List Nat) : State :=
  let wrote := args.getD 3 0 != 0
  match s.passAt sl (args.getD 0 0) (args.getD 1 0) with
  | none => s
  | some p =>
  if p.kind != .step || p.ended != some Status.ok || !p.pods.contains h then s
  else
  let s := s.modPod sl h (fun p =>
    let g := if wrote then p.gen + 1 else p.gen
    { p with gen := g, unsaved := p.unsaved || wrote,
             life := if p.life == .retired then .retired else if g = 0xFFFFFFFF then .frozen else .none })
  s.endPass p Status.ok (args.getD 2 0 == 1)

/-- A POD_PUT has ended (R199): the works that waited for it start. -/
def State.putOver (s : State) (j : PodJob) (status detail : Nat) (result : List Byte) : State :=
  ((({ s with pcm := { s.pcm with jobs := s.pcm.jobs.erase j } }).finish j.cmd status detail result).settlePods j.sl).startWork

/-- HUSK_WRITE_DONE (R205): the last byte of a POD_PUT's husk has crossed the fetch channels (R203) and been accepted by the host interface: the entry takes the new
address and length, SAVED_GEN = GEN and UNSAVED = 0, and the command completes (20 R433). -/
def execHuskWriteDone (sl h : Nat) (s : State) : Host.Outcome State Fault Refusal :=
  match s.pcm.jobs.find? (fun j => j.sl == sl && j.pod == h && !j.rebase && j.started) with
  | none => .next s
  | some j =>
    if j.moved < j.len || s.tpl.accs.any (fun a => a.use == .huskPut && a.sl == sl && a.a == h && decide (a.sent < a.len)) then .next s
    else
      let s := s.modPod sl h (fun p => { p with huskAddr := j.addr, huskLen := j.len, savedGen := j.gen, unsaved := false, rebased := false })
      let pid := ((s.pod sl h).map Pod.pid).getD 0
      .next (s.putOver j Status.ok 0 (leBytes 4 j.gen ++ leBytes 4 j.len ++ leBytes 8 pid))

/-- The end of a REBASE in effect (R213). -/
def State.rebaseEnd (s : State) (sl h : Nat) : State :=
  match s.pcm.jobs.find? (fun j => j.sl == sl && j.pod == h && j.rebase && j.started) with
  | none => s
  | some j =>
    let s := { s with pcm := { s.pcm with jobs := s.pcm.jobs.erase j } }
    let pid := if j.gen = 0 then leNat (slice (Config.random s.draws 8) 0 8) else j.gen
    let s := s.drawn.modPod sl h (fun p => { p with
      pid := pid, gen := 0, mom := p.mom.map (fun _ => 0), var := p.var.map (fun _ => 0), p1 := 0x3F800000, p2 := 0x3F800000,
      life := if p.life == .retired then .retired else .none, unsaved := true, rebased := true })
    ((s.finish j.cmd Status.ok 0 (leBytes 8 pid)).settlePods sl).startWork

/-- A pod transition takes effect (R198), those of STEP and REBASE included. -/
def State.podApply (s : State) (sl h what : Nat) (args : List Nat) (cmd : Option CmdRef) : State :=
  if what = PodW.stepEnd then s.stepEnd sl h args
  else if what = PodW.rebaseEnd then s.rebaseEnd sl h
  else
    let s := s.podEffect sl h what args cmd
    if what = PodW.stepping && s.pcm.jobs.any (fun j => j.sl == sl && j.pod == h && j.rebase && j.started)
    then s.podEv sl h PodW.rebaseEnd [] none else s

/-! ## Position moves (R164) -/

/-- Positions stop: passes of their owners on their units are suspended at their next undone tile, or stopped by containment; tiles not yet emitted or written are
abandoned. At a position move (`moved`) they are counted, and the positions' accumulator tiles and factor-buffer bytes are written with zeros
(R164, R188). -/
def State.stopPositions (s : State) (ps : List Nat) (moved : Bool) : State :=
  let hit := s.fld.passes.filter (fun p => p.st == .running && ps.any (fun x => x / 16 == p.unit && s.posOwner x == p.sl))
  let s := hit.foldl (fun s p =>
    let lost := lsum (p.gathers.map (fun g => if g.ids.isEmpty then 0 else if g.out.isEmpty then g.variants.length else g.out.length))
      + (if p.kind == .copy && !(p.ids.isEmpty && p.out.isEmpty) then 1 else 0)
    let s := s.dropColls (p.ids ++ p.gathers.flatMap Gather.ids)
    (if moved then s.bump R.fldAbandon lost else s).modPass p (fun x => { x with
      st := if moved then .suspended else .stopped, ids := [], out := [],
      gathers := x.gathers.map (fun g => { g with ended := false, ids := [], out := [] }) })) s
  if moved then { s with fld := { s.fld with
    acc := s.fld.acc.filter (fun e => !ps.contains (16 * (e.1 / 64) + e.1 % 64 / 4)), fbuf := s.fld.fbuf.filter (fun e => !ps.contains e.1) } }
  else s

/-- Suspended and stopped passes resume on a unit of their mask that still fits them, the limit of R170 included (DEDUCED, log 78), or complete with BUSY_RETRY; a STEP that
does leaves its pod ABSENT (R164, 09 R220). A waiting pass keeps the unit it was given (DEDUCED, log 78). -/
def State.resumeSuspended (s : State) : State :=
  let back := s.fld.passes.filter (fun p => (p.st == .suspended || p.st == .stopped) && !s.contained p.sl)
  let s := back.foldl (fun s p =>
    let s := s.modPass p (fun x => { x with st := .waiting })
    match s.pickUnit p.sl p.desc with
    | some u => s.modPass p (fun x => { x with unit := u })
    | none =>
      let h := fieldAt p.desc 0x10 4
      let s := if p.kind == .step && ((s.pod p.sl h).map Pod.life) == some .stepping then s.abortStep p.sl h else s
      s.endPass p Status.busyRetry false) s
  let s := s.startWork
  back.foldl (fun s p => if p.kind == .inFlight then s.releaseTiles p.sl (fdId p.desc) else s) s

/-! ## Tile reads and die-side checks (06 R133–R138) -/

/-- TILE_READ (06 R134): cluster `cl` asks for a tile. Unadapted (FOLD 0), its lines and its entry pass the Binder as class CD, and when they have come the tile goes to the
die with its CRC and FMT, unless one came back bad (R137). Adapted, the read joins the gather of its TIX (R172), or is answered with an error and
faults the slice (R171). FMT 0, and unadapted one that is no format, is rejected with BAD_FIELD. -/
def execTileRead (rid cl taddr caddr img tix variant fmt fold : Nat) (s : State) : Host.Outcome State Fault Refusal :=
  let sl := (s.cluster cl).owner
  if s.mce.fenced then .next s
  else if sl < 64 && s.contained sl then .next (s.tileError rid cl)
  else if fmt = 0 || (fold = 0 && 7 ≤ fmt) then .next (s.emit .tile [rid, cl, Status.badField] [])
  else if fold = 0 then
    let a := s.memAccess .cd sl cl taddr (tileBytes fmt) false []
    let b := a.1.memAccess .cd sl cl caddr 8 false []
    let rd : TileRd := ⟨rid, cl, img, tix, variant, fmt, a.2, b.2⟩
    .next ({ b.1 with fld := { b.1.fld with reads := b.1.fld.reads ++ [rd] } }.serveTiles)
  else .next (s.tileAsk ⟨rid, cl, taddr, caddr, tix, variant, fmt, fold⟩)

/-- DIE_CHECK_REPORT (06 R133, R135, R136): a die-side checker has checked the tile `tile` at DIE_ARRIVE (2) or DIE_USE (3), against the CRC `crc` and FMT word `word`
supplied with it, the FMT, TIX and VARIANT of the tile read, and the image's VER as Llyna wrote it at the seal; VARIANT 0 when IDENT. A check
that fails is a fault of the cluster's slice; one that passes shows nothing. Behind the fence of a halt no check runs (R137). -/
def execDieCheckReport (site cl engine q jgen taskId instr img tix variant fmt crc word : Nat) (ident : Bool) (tile : List Byte) (module' : Nat)
    (s : State) : Host.Outcome State Fault Refusal :=
  let sl := (s.cluster cl).owner
  if (site != 2 && site != 3) || 64 ≤ sl || s.mce.fenced then .next s
  else
    let v := if ident then 0 else variant
    let (s, got) := s.injected site (tileCrc tile tix (tget (dflt 0) s.tcu.dieVer img) v)
    if word = fmt && got = crc then .next s
    else .next (s.tileFault site sl img tix fmt v crc got { FaultEv.base 1 2 [sl] with
      cluster := cl, engine := if engine < 4 then some engine else none, queue := q, jgen := jgen, taskId := taskId, instr := instr, module := module' })

end Sys2Proof.Machine
end

