-- ==== Sys2Proof/Machine/Queues.lean ====
section
/-! DEFINITION. RUN, JOIN, LEAVE and DMA descriptors, placement, time slices, pre-emption, saves and restores, and the admission queue
(10 R227–R249). -/

namespace Sys2Proof.Machine

/-! ## Tasks -/

/-- The same task: one descriptor of one queue. -/
def Task.same (a b : Task) : Bool := a.sl == b.sl && a.queue == b.queue && a.entry == b.entry && a.jgen == b.jgen

/-- A task changed. -/
def State.modTask (s : State) (t : Task) (f : Task → Task) : State :=
  { s with dpa := { s.dpa with tasks := lmod s.dpa.tasks (fun x => x.same t) f } }

/-- A task gone. -/
def State.dropTask (s : State) (t : Task) : State :=
  { s with dpa := { s.dpa with tasks := s.dpa.tasks.filter (fun x => !x.same t) } }

/-- Whether a task occupies its cluster. -/
def TaskSt.onCluster : TaskSt → Bool
  | .running | .saving | .restoring => true
  | _ => false

/-- Whether a task is an image in a slot. -/
def TaskSt.image : TaskSt → Bool
  | .saving | .saved | .restoring => true
  | _ => false

/-- The task a cluster runs, saves or restores. -/
def State.taskOn (s : State) (c : Nat) : Option Task := s.dpa.tasks.find? (fun t => t.cluster == c && t.st.onCluster)

/-- SCRATCH_MIB, KEEP_MIB and CMASK of a RUN descriptor (R229). -/
def runScratch (d : List Byte) : Nat := fieldAt d 4 1
def runKeep (d : List Byte) : Nat := fieldAt d 5 1
def runCmask (d : List Byte) : Nat := fieldAt d 0x20 8

/-- The nonzero AFF, KEEP and WFDID entries of a RUN descriptor (R229). -/
def runAff (d : List Byte) : List Nat := ((List.range 4).map (fun i => fieldAt d (0x28 + 4 * i) 4)).filter (· != 0)
def runKeys (d : List Byte) : List Nat := ((List.range 4).map (fun i => fieldAt d (0x38 + 4 * i) 4)).filter (· != 0)
def runFdids (d : List Byte) : List Nat := ((List.range 4).map (fun i => fieldAt d (0x48 + 2 * i) 2)).filter (· != 0)

/-- The header checks every descriptor of a TASK or DMA queue passes first: GENF, then the reserved bits (R4, R12, R227). -/
def headCheck (d : List Byte) (rsvd : Bool) : Option Nat :=
  if fieldAt d 1 1 % 16 != 1 then some Status.badVersion
  else if fieldAt d 1 1 / 16 != 0 || fieldAt d 2 1 / 4 != 0 || fieldAt d 3 1 != 0 || rsvd then some Status.rsvd
  else none

/-- A descriptor whose OP the queue does not define: every byte outside 0x00–0x03 and the TASK_ID counts as reserved (R227). -/
def badOp (d : List Byte) : Nat :=
  match headCheck d (!zeroIn d 4 8 || !zeroIn d 0x10 0x80) with
  | some st => st
  | none => Status.badField

/-- Whether an FDID names an admitted IN_FLIGHT descriptor of the slice, or one at its turn waiting for pods (R233). -/
def State.fdidKnown (s : State) (sl f : Nat) : Bool :=
  s.fld.passes.any (fun p => p.sl == sl && p.kind == .inFlight && fdId p.desc == f)
    || (s.queuesOf sl).any (fun e => e.2.waitFdid == some f
      || (e.2.kind == .fold && (match e.2.fetched with | some d => fdKindOf d == some .inFlight && fdId d == f | none => false)))

/-- Whether an FDID has started (R233). -/
def State.fdidStarted (s : State) (sl f : Nat) : Bool :=
  s.fld.passes.any (fun p => p.sl == sl && p.kind == .inFlight && fdId p.desc == f && p.st != .waiting)

/-- The field checks of a RUN descriptor (R229). -/
def State.runCheck (s : State) (sl : Nat) (d : List Byte) : Option Nat :=
  match headCheck d (!zeroIn d 6 8 || !zeroIn d 0x16 0x18 || !zeroIn d 0x1E 0x20 || fieldAt d 0x52 1 / 4 != 0
      || !zeroIn d 0x53 0x58 || !zeroIn d 0x68 0x80) with
  | some st => some st
  | none =>
    let bad := fun (b : Bool) (o : Nat) => (b, Status.badField, o)
    let cl := (s.sdef sl).elim 0 SliceDef.clusters
    (firstOf [bad (decide (119 < runScratch d)) 4, bad (decide (runScratch d < runKeep d)) 5,
      bad (runCmask d != 0 && runCmask d &&& cl == 0) 0x20, bad (runKeep d == 0 && !(runKeys d).isEmpty) 0x38]).map Fail.status

/-- RUN (R229, R233): a RUN descriptor at its turn is checked; it becomes a task that waits for its conditions. An FDID that names no
admitted descriptor ends it with BAD_FIELD, one that has failed with CHECK_FAILED (R237). A descriptor of an OP that a TASK queue does not
define fails here. -/
def execRun (sl q : Nat) (s : State) : Host.Outcome State Fault Refusal :=
  match s.atTurn sl q .task with
  | none => .next s
  | some (x, d) =>
    let op := fieldAt d 0 1
    if op = 2 || op = 3 then .next s
    else if bit (fieldAt d 2 1) 0 && !s.fenceMet sl q x then .next s
    else if op != 1 then .next (s.failTurn sl q x d (badOp d) op)
    else match s.runCheck sl d with
    | some st => .next (s.failTurn sl q x d st op)
    | none =>
      let fs := runFdids d
      if fs.any (fun f => s.fld.failed.contains (sl, f) && !s.fdidKnown sl f) then .next (s.failTurn sl q x d Status.checkFailed op)
      else if fs.any (fun f => !s.fdidKnown sl f) then .next (s.failTurn sl q x d Status.badField op)
      else
        let t : Task := { sl := sl, queue := q, jgen := x.jgenOf x.turn, entry := x.turn, desc := d, st := .waiting, cluster := 0xFF,
                          placedAt := 0, saves := 0, slot := 0, savedAt := 0, groups := [], drain := false, asked := false, failed := false }
        .next ({ s with dpa := { s.dpa with tasks := s.dpa.tasks ++ [t] } }.nextTurn sl q)

/-! ## Sync counters (R229) -/

def State.syncOf (s : State) (sl k : Nat) : Nat := tget (dflt 0) s.dpa.sync (256 * sl + k)

/-- A sync counter set: it never decreases. -/
def State.syncSet (s : State) (sl k v : Nat) : State :=
  { s with dpa := { s.dpa with sync := tmod (dflt 0) s.dpa.sync (256 * sl + k) (fun x => max x v) } }

/-- SYNC_COUNTER_SET (R229): engine code sets a sync counter of its slice to `v`, unless that would lower it. -/
def execSyncCounterSet (sl k v : Nat) (s : State) : Host.Outcome State Fault Refusal :=
  if (s.sdef sl).isNone || s.contained sl then .next s else .next (s.syncSet sl (k % 256) (v % 2 ^ 64))

/-- SIG_EN of a descriptor obeyed (R229, R230). -/
def State.sigOf (s : State) (sl : Nat) (d : List Byte) : State :=
  if bit (fieldAt d 0x52 1) 1 then s.syncSet sl (fieldAt d 0x51 1) (fieldAt d 0x60 8) else s

/-! ## Resident groups (R236) -/

/-- MiB the resident groups of a cluster hold. -/
def groupsMib (l : List Group) : Nat := lsum (l.map Group.mib)

/-- Whether a group holds one of a list of keys. -/
def Group.holds (g : Group) (ks : List Nat) : Bool := g.keys.any (fun k => ks.contains k)

/-- The groups left once room is made for `mib` of scratch: least recently used first, those holding an AFF key last (R236). -/
def makeFit (aff : List Nat) (mib : Nat) : Nat → List Group → List Group
  | 0, l => l
  | k + 1, l =>
    if 1 + groupsMib l + mib ≤ 120 then l
    else
      let plain := l.filter (fun g => !g.holds aff)
      match plain.getLast? with
      | some g => makeFit aff mib k ((l.reverse.erase g).reverse)
      | none => makeFit aff mib k l.dropLast

/-- The score of R235: AFF entries of the task resident on the cluster. -/
def Cluster.score (c : Cluster) (d : List Byte) : Nat := ((runAff d).filter (fun k => c.groups.any (fun g => g.keys.contains k))).length

/-- The MiB that must leave a cluster to fit a task (R235). -/
def Cluster.evict (c : Cluster) (d : List Byte) : Nat :=
  groupsMib c.groups - groupsMib (makeFit (runAff d) (runScratch d) 8 c.groups)

/-! ## Save slots (R240) -/

/-- Save slots of a slice. -/
def State.slotsOf (s : State) (sl : Nat) : Nat := (s.ownedOf sl .save).length / 60

/-- Whether a slot holds an image or the capture (R240, 22 R480). -/
def State.slotHeld (s : State) (sl i : Nat) : Bool :=
  s.dpa.tasks.any (fun t => t.sl == sl && t.st.image && t.slot == i)
    || ((s.fsl sl).capture.isSome && i + 1 == s.slotsOf sl)

/-- SAVE grains of held slots are IN_USE, the others free (R240). -/
def State.syncSaveUse (s : State) (sl : Nat) : State :=
  let gs := s.ownedOf sl .save
  (List.range gs.length).foldl (fun s k => s.modGrain (gs.getD k 0) (fun e => { e with inUse := s.slotHeld sl (k / 60) })) s

/-- The lowest free slot. -/
def State.freeSlot (s : State) (sl : Nat) : Option Nat := (List.range (s.slotsOf sl)).find? (fun i => !s.slotHeld sl i)

/-- Clusters a slice has. -/
def State.clustersOf (s : State) (sl : Nat) : List Nat := maskList ((s.sdef sl).elim 0 SliceDef.clusters) 64

/-- Whether R240 allows one more image taken by pre-emption or a time slice; a held capture takes one from the limit (22 R480). -/
def State.imageAllowed (s : State) (sl : Nat) : Bool :=
  let held := (s.dpa.tasks.filter (fun t => t.sl == sl && t.st.image && !t.drain)).length
  let cap := if (s.fsl sl).capture.isSome then 1 else 0
  decide (held + cap + (s.clustersOf sl).length < s.slotsOf sl + 1) && (s.freeSlot sl).isSome

/-- The MiB a task's cluster holds in all: context area, resident groups, the task's scratch (R236, R241). -/
def State.allocMib (s : State) (t : Task) : Nat := 1 + groupsMib (s.cluster t.cluster).groups + runScratch t.desc

/-- t_pre of R242 at the slice's own reservation, scaled by the cap factor of 11 R263. -/
def State.tPre (s : State) (sl mib : Nat) : Nat :=
  ceilDiv (mib * 2 ^ 20 * 8) ((s.sdef sl).elim 0 SliceDef.memRes * 256 * (8 - s.bwr.cap)) + 4

/-- Tile reads of some clusters still waiting in gathers are withdrawn (R241 step 3, 23 R507). -/
def State.withdrawFrom (s : State) (p : Nat → Bool) : State :=
  let less : Pass → Pass := fun x =>
    let gs := x.gathers.map (fun g => { g with reads := g.reads.filter (fun r => !p r.cluster) })
    { x with gathers := gs.filter (fun g => !g.ids.isEmpty || !g.reads.isEmpty) }
  let gone := s.fld.reads.filter (fun r => p r.cluster)
  let s := s.dropColls (gone.flatMap (fun r => [r.tileId, r.entId]))
  { s with fld := { s.fld with
    passes := s.fld.passes.map less, reads := s.fld.reads.filter (fun r => !p r.cluster), held := s.fld.held.filter (fun h => !p h.cluster) } }

/-- The same of every cluster of a slice. -/
def State.withdrawReads (s : State) (n : Nat) : State :=
  let cl := (s.sdef n).elim 0 SliceDef.clusters
  s.withdrawFrom (fun c => bit cl c)

/-- A save starts (R241): the cluster's engines stop, tile reads waiting in gathers are withdrawn, the image takes the lowest free slot. In
ISOLATE the cluster takes no work before t_pre has passed (R242). -/
def State.startSave (s : State) (t : Task) (drain : Bool) : State :=
  match s.freeSlot t.sl with
  | none => s
  | some i =>
    let gs := (s.cluster t.cluster).groups
    let mib := s.allocMib t
    let s := s.modTask t (fun x => { x with st := .saving, slot := i, savedAt := s.spn.tick, groups := gs, drain := drain })
    let s := s.withdrawFrom (fun c => c == t.cluster)
    let s := if drain || s.lend then s else
      let until' := s.spn.tick + s.tPre t.sl mib
      s.modCluster t.cluster (fun c => { c with notBefore := until' })
    s.syncSaveUse t.sl

/-! ## Suspended queues (20 R442) -/

/-- SUSPEND and SUSPEND_SAVE complete once no task of the queue runs. -/
def State.settleSuspend (s : State) (sl q : Nat) : State :=
  match s.queue sl q with
  | none => s
  | some x =>
    if x.suspendCmds.isEmpty || s.dpa.tasks.any (fun t => t.sl == sl && t.queue == q && t.st.onCluster) then s
    else
      let s := s.modQueue sl q (fun x => { x with suspendCmds := [] })
      x.suspendCmds.foldl (fun s c => s.finish (some c) Status.ok 0 []) s

/-! ## Placement (R233–R236) -/

/-- A RUN task ends without having run (R237): CLUSTER 0xFF. -/
def State.endUnrun (s : State) (t : Task) (status : Nat) : State :=
  (s.dropTask t).complete t.sl t.queue t.entry status (if t.cluster = 0xFF then 0xFF else t.cluster) t.saves 0 t.desc 1 0

/-- The conditions of R233 past the turn. -/
def State.taskReady (s : State) (t : Task) : Bool :=
  (!bit (fieldAt t.desc 0x52 1) 0 || decide (fieldAt t.desc 0x58 8 ≤ s.syncOf t.sl (fieldAt t.desc 0x50 1)))
    && (runFdids t.desc).all (fun f => s.fdidStarted t.sl f)

/-- Tasks whose conditions are met become ready; those whose FDID failed complete with CHECK_FAILED (R233, R237). -/
def State.wake (s : State) (sl : Nat) : State :=
  let s := (s.dpa.tasks.filter (fun t => t.sl == sl && t.failed && (t.st == .waiting || t.st == .ready))).foldl
    (fun s t => s.endUnrun t Status.checkFailed) s
  { s with dpa := { s.dpa with tasks := lmod s.dpa.tasks (fun t => t.sl == sl && t.st == .waiting && s.taskReady t) (fun t => { t with st := .ready }) } }

/-- The clusters of a slice that can take work: idle, not departing, in service, past their pacing (R235, R242, 22 R473). -/
def State.idleClusters (s : State) (sl : Nat) : List Nat :=
  (s.clustersOf sl).filter (fun c =>
    let x := s.cluster c
    (s.taskOn c).isNone && !x.departing && !x.oos && decide (x.notBefore ≤ s.spn.tick))

/-- The clusters of a task's CMASK. -/
def runAllows (d : List Byte) (c : Nat) : Bool := runCmask d == 0 || bit (runCmask d) c

/-- Work R234 may choose: ready tasks and images, of queues not suspended; a drained image waits for its commit (04 R88). -/
def State.work (s : State) (sl : Nat) : List Task :=
  s.dpa.tasks.filter (fun t => t.sl == sl && (t.st == .ready || (t.st == .saved && !t.drain)) &&
    (match s.queue sl t.queue with | some x => !x.suspended && !(x.stopped && t.st == .ready) && !x.dying | none => false))

/-- The class of a task's queue. -/
def State.prioOf (s : State) (t : Task) : Nat := (s.queue t.sl t.queue).elim 3 Queue.prio

/-- The order of R234: class, then queue after the one last given a cluster in the class, then images before tasks, then ring order. -/
def State.workKey (s : State) (t : Task) : List Nat :=
  let p := s.prioOf t
  let l := tget (dflt 4095) s.dpa.last (4 * t.sl + p)
  [p, (t.queue + 4096 - (l + 1)) % 4096, if t.st == .saved then 0 else 1, t.entry]

/-- Lexicographic order of keys. -/
def keyLe : List Nat → List Nat → Bool
  | [], _ => true
  | _ :: _, [] => false
  | a :: as, b :: bs => if a = b then keyLe as bs else decide (a < b)

/-- A slice's work in the order of R234. -/
def State.workOrder (s : State) (sl : Nat) : List Task :=
  sortBy (fun a b => keyLe (s.workKey a) (s.workKey b)) (s.work sl)

/-- The best of a list under a key to be least. -/
def leastBy {α : Type} (key : α → List Nat) (l : List α) : Option α :=
  l.foldl (fun m x => match m with
    | none => some x
    | some b => if keyLe (key b) (key x) then some b else some x) none

/-- The work a pre-emption gives cluster `c` of slice `sl` to, while that work still waits (R239). -/
def State.promiseOf (s : State) (sl c : Nat) : Option (Nat × Nat) :=
  match (s.cluster c).promised with
  | some p => if (s.work sl).any (fun w => (w.queue, w.entry) == p) then some p else none
  | none => none

/-- Whether a cluster of the slice has been given to a piece of work by a pre-emption. -/
def State.isPromised (s : State) (t : Task) : Bool := (s.clustersOf t.sl).any (fun c => s.promiseOf t.sl c == some (t.queue, t.entry))

/-- The candidate a piece of work takes, if any (R235). A cluster promised to other work is no candidate (R239). -/
def State.candidate (s : State) (t : Task) : Option Nat :=
  let cs := (s.idleClusters t.sl).filter (fun c => runAllows t.desc c
    && (match s.promiseOf t.sl c with | some p => p == (t.queue, t.entry) | none => true))
  match cs.find? (fun c => s.promiseOf t.sl c == some (t.queue, t.entry)) with
  | some c => some c
  | none =>
    if t.st == .saved then leastBy (fun c => [groupsMib (s.cluster c).groups, c]) cs
    else
      let ran := (s.queue t.sl t.queue).elim [] Queue.ranOn
      leastBy (fun c => [4 - (s.cluster c).score t.desc, (s.cluster c).evict t.desc, ran.idxOf c, c]) cs

/-- Work placed on a cluster: a task makes room and starts; an image replaces everything on the cluster and its restore starts (R235, R236, R243). -/
def State.place (s : State) (t : Task) (c : Nat) : State :=
  let s := { s with dpa := { s.dpa with last := tset (dflt 4095) s.dpa.last (4 * t.sl + s.prioOf t) t.queue } }
  let s := s.modQueue t.sl t.queue (fun x => { x with ranOn := c :: x.ranOn.filter (· != c) })
  let aff := runAff t.desc
  let s := s.modCluster c (fun x =>
    let kept := makeFit aff (runScratch t.desc) 8 x.groups
    { x with promised := none, cleared := false,
             groups := if t.st == .saved then t.groups else kept.filter (fun g => g.holds aff) ++ kept.filter (fun g => !g.holds aff) })
  s.modTask t (fun x => { x with st := if t.st == .saved then .restoring else .running, cluster := c, placedAt := s.spn.tick, savedAt := s.spn.tick, asked := false })

/-- PLACEMENT (R234, R235): the Dispatch assist places the first piece of the slice's ready work that has a candidate; ready work with no
candidate raises a pre-emption request where a cluster of its mask runs a task of a lower class (R239). -/
def execPlacement (sl : Nat) (s : State) : Host.Outcome State Fault Refusal :=
  if s.contained sl || (s.sdef sl).isNone || (tget (dflt ParkSt.none) s.src.park sl) != .none then .next s
  else
    let s := s.wake sl
    let ws := s.workOrder sl
    let starved := ws.filter (fun t => (s.candidate t).isNone && !t.asked && !s.isPromised t)
    let s' := match ws.find? (fun t => (s.candidate t).isSome) with
      | some t => (match s.candidate t with | some c => s.place t c | none => s)
      | none => s
    .next (starved.foldl (fun s t =>
      if s.dpa.tasks.any (fun v => v.sl == sl && v.st == .running && runAllows t.desc v.cluster && decide (s.prioOf t < s.prioOf v)) then
        (s.modTask t (fun x => { x with asked := true })).raise ⟨10, some sl, Sub.dpa, .preempt sl t.queue t.entry⟩
      else s) s')

/-- TASK_END (R232, R236): a compute die reports that the task on cluster `c` has ended, `checkFailed` when a tile read of it was answered
as R175 states (R237). At an OK end its kept scratch becomes a resident group and its sync counter is signalled. -/
def execTaskEnd (c : Nat) (checkFailed : Bool) (s : State) : Host.Outcome State Fault Refusal :=
  match s.taskOn c with
  | none => .next s
  | some t =>
    if t.st != .running || s.contained t.sl then .next s
    else
      let s := s.dropTask t
      let s := if !checkFailed && runKeep t.desc != 0 then
          s.modCluster c (fun x => { x with groups := (⟨runKeys t.desc, runKeep t.desc⟩ :: x.groups).take 8 })
        else s
      let s := if checkFailed then s else s.sigOf t.sl t.desc
      let s := s.complete t.sl t.queue t.entry (if checkFailed then Status.checkFailed else Status.ok) c t.saves 0 t.desc 1 0
      .next (s.settleSuspend t.sl t.queue)

/-! ## Time slices and pre-emption (R238–R243) -/

/-- QUANTUM_EXPIRY (R238): the quantum of the task on cluster `c` has expired; it is switched out when another queue of its class has ready
work, no idle cluster can take that work, and an image is allowed. -/
def execQuantumExpiry (c : Nat) (s : State) : Host.Outcome State Fault Refusal :=
  match s.taskOn c with
  | none => .next s
  | some t =>
    let v := (s.vfOf t.sl).getD 0
    let qt := 64 * s.rf (vfReg v V.dpaQuantum) 15 0
    let pt := (s.queue t.sl t.queue).elim true Queue.preemptTask
    if t.st != .running || qt = 0 || pt || s.contained t.sl || s.spn.tick < t.placedAt + qt then .next s
    else
      let s := s.wake t.sl
      let other := (s.work t.sl).any (fun w => w.queue != t.queue && s.prioOf w == s.prioOf t && runAllows w.desc c
        && !(s.idleClusters t.sl).any (fun k => runAllows w.desc k))
      if other && s.imageAllowed t.sl then .next (s.startSave t false) else .next s

/-- The victim of a pre-emption request, decided against the victims already taken (R239): (cluster, 1 saved or 2 promised, queue and entry
of the victim). -/
def State.victimFor (s : State) (sl q entry : Nat) : List Nat :=
  match s.dpa.tasks.find? (fun t => t.sl == sl && t.queue == q && t.entry == entry && (t.st == .ready || t.st == .saved)) with
  | none => []
  | some w =>
    if (s.candidate w).isSome || s.isPromised w then []
    else
      let ok := s.imageAllowed sl
      let any' := fun (t : Task) => ok && !(s.queue sl t.queue).elim true Queue.preemptTask
      let vs := s.dpa.tasks.filter (fun t => t.sl == sl && t.st == .running && runAllows w.desc t.cluster && decide (s.prioOf w < s.prioOf t)
        && (s.promiseOf sl t.cluster).isNone && !(s.cluster t.cluster).departing && !(s.cluster t.cluster).oos)
      match leastBy (fun t => [if any' t then 0 else 1, 3 - s.prioOf t, 4 - (s.cluster t.cluster).score w.desc, s.allocMib t, t.cluster]) vs with
      | none => []
      | some t => [t.cluster, if any' t then 1 else 2, t.queue, t.entry]

/-- A pre-emption request takes effect (R239): the victim is saved or runs to its end, and its cluster goes to the work (that a saved victim's
cluster is kept for it too is DEDUCED, log 23); a victim that has ended is not saved. -/
def State.preemptEffect (s : State) (sl q entry : Nat) (nums : List Nat) : State :=
  let s := { s with dpa := { s.dpa with tasks := lmod s.dpa.tasks (fun t => t.sl == sl && t.queue == q && t.entry == entry) (fun t => { t with asked := false }) } }
  match nums with
  | [c, m, vq, ve] =>
    let give := fun (s : State) => s.modCluster c (fun x => { x with promised := some (q, entry) })
    match s.taskOn c with
    | some t =>
      if t.sl != sl || t.queue != vq || t.entry != ve || t.st != .running then s
      else if m = 1 then give (s.startSave t false) else give s
    | none => if (s.clustersOf sl).contains c then give s else s
  | _ => s

/-- A pre-emption request of QUEUE_SUSPEND takes effect (20 R442): the running task is saved where its queue's mode and R240 allow it. -/
def State.saveTaskEffect (s : State) (sl q entry : Nat) : State :=
  match s.dpa.tasks.find? (fun t => t.sl == sl && t.queue == q && t.entry == entry && t.st == .running) with
  | some t => if !(s.queue sl q).elim true Queue.preemptTask && s.imageAllowed sl then s.startSave t false else s
  | none => s

/-- SAVE_DONE (R241): a pre-emption or time-slice save on cluster `c` ends; the image waits in its slot and the cluster is free. -/
def execSaveDone (c : Nat) (s : State) : Host.Outcome State Fault Refusal :=
  match s.taskOn c with
  | none => .next s
  | some t =>
    if t.st != .saving || t.drain || s.contained t.sl then .next s
    else .next ((s.modTask t (fun x => { x with st := .saved, saves := x.saves + 1 })).settleSuspend t.sl t.queue)

/-- RESTORE_DONE (R243): a restore on cluster `c` ends; the task resumes and its slot is free. -/
def execRestoreDone (c : Nat) (s : State) : Host.Outcome State Fault Refusal :=
  match s.taskOn c with
  | none => .next s
  | some t =>
    if t.st != .restoring || s.contained t.sl then .next s
    else .next ((s.modTask t (fun x => { x with st := .running, placedAt := s.spn.tick, drain := false })).syncSaveUse t.sl)

/-! ## The drain of a commit (04 R84, R87, R88) -/

/-- Tasks on departing clusters of continuing slices are saved: a running one starts, a save under way serves, a restore is abandoned (04 R84). -/
def State.saveDeparting (s : State) (pairs : List (Nat × Nat)) : State :=
  pairs.foldl (fun s p =>
    match s.taskOn p.2 with
    | none => s
    | some t =>
      match t.st with
      | .running => s.startSave t true
      | .saving => s.modTask t (fun x => { x with drain := true })
      | _ => s.modTask t (fun x => { x with st := .saved })) s

/-- The drain's saves end (04 R84). -/
def State.savesEnded (s : State) (pairs : List (Nat × Nat)) : State :=
  let ts := s.dpa.tasks.filter (fun t => t.st == .saving && t.drain && pairs.contains (t.sl, t.cluster))
  ts.foldl (fun s t => (s.modTask t (fun x => { x with st := .saved, saves := x.saves + 1 })).settleSuspend t.sl t.queue) s

/-- Drained images may be placed again once the commit is in force (04 R88). -/
def State.freeDrained (s : State) : State :=
  { s with dpa := { s.dpa with tasks := lmod s.dpa.tasks (fun t => t.st == .saved && t.drain) (fun t => { t with drain := false }) } }

/-- A commit that fails gives departing clusters back: every task saved in the drain is restored to its own cluster (04 R87). -/
def State.restoreDrained (s : State) (b : Bank) : State :=
  let s := (b.departing s).foldl (fun s p => s.modCluster p.2 (fun c => { c with departing := false })) s
  let ts := s.dpa.tasks.filter (fun t => t.drain && (t.st == .saved || t.st == .saving))
  let s := ts.foldl (fun s t =>
    let s := s.modCluster t.cluster (fun c => { c with groups := t.groups, cleared := false })
    s.modTask t (fun x => { x with st := .restoring, savedAt := s.spn.tick, saves := if x.st == .saving then x.saves + 1 else x.saves })) s
  s.resumeSuspended

/-! ## Queues that end (R246, 17 R371, 20 R441) -/

/-- Entries of a queue not started are cancelled: those from the turn on, tasks not yet placed, JOINs not granted, fold descriptors not begun,
and live IN_FLIGHT descriptors, which nothing but their reads would end (08 R174; DEDUCED, log 80); `images` cancels saved images too (20 R441). -/
def State.cancelWaiting (s : State) (sl q : Nat) (images : Bool) : State :=
  match s.queue sl q with
  | none => s
  | some x =>
    let mine := fun (a b : Nat) => a == sl && b == q
    let goneTasks := s.dpa.tasks.filter (fun t => mine t.sl t.queue && (t.st == .waiting || t.st == .ready || (images && t.st.image && t.st != .restoring)
      || (images && t.st == .restoring)))
    let gonePasses := s.fld.passes.filter (fun p => mine p.sl p.queue && ((p.st == .waiting && p.tiles == 0) || p.kind == .inFlight))
    let granted := s.dpa.joins.any (fun j => mine j.sl j.queue && j.granted)
    let from' := if granted then x.turn + 1 else x.turn
    let entries := goneTasks.map Task.entry ++ gonePasses.map Pass.entry ++ (List.range (x.tail - from')).map (fun i => from' + i)
    let s := { s with
      dpa := { s.dpa with tasks := s.dpa.tasks.filter (fun t => !goneTasks.any (fun g => g.same t)),
                          joins := s.dpa.joins.filter (fun j => !(mine j.sl j.queue) || j.granted) },
      fld := { s.fld with passes := s.fld.passes.filter (fun p => !gonePasses.any (fun g => g.sl == p.sl && g.queue == p.queue && g.entry == p.entry)) } }
    let s := gonePasses.foldl (fun s p => (s.dropReads p).releaseTiles p.sl (fdId p.desc)) s
    let s := s.dropAccs (fun a => a.use == .ring && mine a.sl a.a)
    let s := s.modQueue sl q (fun x => { x with turn := x.tail, fetched := none, reading := false, joinHeld := false, waitPods := [], waitFdid := none, podFail := 0 })
    let s := entries.foldl (fun s e => s.cancelEntry sl q e) s
    (((s.syncSaveUse sl).settlePods sl).startWork).settleSuspend sl q

/-- Queue number, JGEN and STATE of a QUEUE_CREATE result (20 R440). -/
def State.newQueue (s : State) (sl : Nat) (args : List Nat) : Option (State × Nat) :=
  let quota := s.rf (R.dpaQquota + 4 * sl) 15 0
  match (List.range quota).find? (fun q => (s.queue sl q).isNone) with
  | none => none
  | some q =>
    let a := fun i => args.getD i 0
    let x : Queue := {
      kind := if a 0 = 1 then .task else if a 0 = 2 then .fold else .dma, depth := a 1, prio := a 2, preemptTask := a 3 == 1, sqAddr := a 4, cqAddr := a 5,
      vector := a 6, gen := a 7, jgen := 1, tail := 0, turn := 0, rel := 0, closed := [], cqTail := 0, cqSeen := 0, submitted := 0, admitted := 0,
      refused := 0, completed := 0, cancelled := 0, dbst := 0, baddb := false, marks := [], reading := false, fetched := none, suspended := false,
      stopped := false, dying := false, destroy := [], suspendCmds := [], joinHeld := false, waitPods := [], waitFdid := none, podFail := 0, ranOn := [], owed := 0 }
    some ({ s with dpa := { s.dpa with queues := tset (dflt none) s.dpa.queues (qkey sl q) (some x) } }, q)

/-- A queue command takes effect (20 R440–R442): 0 create, 1 destroy, 2 flush, 3 suspend, 4 suspend and save, 5 resume. -/
def State.queueEffect (s : State) (sl q what : Nat) (args : List Nat) (cmd : Option CmdRef) : State :=
  if what = 0 then
    match s.sdef sl with
    | none => s.finish cmd Status.notPermitted 0 []
    | some d =>
      if (args.getD 0 0 != 3 && d.clusters == 0) || (args.getD 0 0 == 2 && d.foldShare == 0) then s.finish cmd Status.badField (dtl 0x0C 0) []
      else match s.newQueue sl args with
        | none => s.finish cmd Status.queueFull 0 []
        | some (s, k) => s.finish cmd Status.ok 0 (leBytes 2 k ++ leBytes 2 1)
  else match s.queue sl q with
  | none => s.finish cmd Status.badField (dtl 0x0C 0) []
  | some x =>
    match what with
    | 1 =>
      let s := (s.modQueue sl q (fun x => { x with dying := true, destroy := x.destroy ++ cmd.toList })).cancelWaiting sl q true
      s.reapQueue sl q
    | 2 =>
      let s := s.cancelWaiting sl q true
      let j := if x.jgen = 0xFFFF then 1 else x.jgen + 1
      (s.modQueue sl q (fun x => { x with jgen := j })).finish cmd Status.ok 0 (leBytes 2 j)
    | 5 =>
      if x.suspended then (s.modQueue sl q (fun x => { x with suspended := false })).finish cmd Status.ok 0 []
      else s.finish cmd Status.okEmpty 0 []
    | w =>
      if x.suspended then s.finish cmd Status.okEmpty 0 []
      else
        let s := s.modQueue sl q (fun x => { x with suspended := true, suspendCmds := x.suspendCmds ++ cmd.toList })
        let s := if w = 4 then
            (s.dpa.tasks.filter (fun t => t.sl == sl && t.queue == q && t.st == .running)).foldl
              (fun s t => s.raise ⟨10, some sl, Sub.dpa, .saveTask sl q t.entry⟩) s
          else s
        s.settleSuspend sl q

/-- A DMA transfer ends: its completion waits to be written, and the next descriptor of its queue comes to its turn (R231). -/
def State.endDma (s : State) (d : Dma) (status : Nat) : State :=
  let s := (s.dropAccs (fun a => a.id == d.acc)).dropColls (d.ids.map Prod.fst)
  let s := { s with dpa := { s.dpa with dmas := s.dpa.dmas.filter (fun x => !(x.sl == d.sl && x.queue == d.queue)) } }
  (s.complete d.sl d.queue d.entry status 0xFF d.moved 0 d.desc (fieldAt d.desc 0 1) 0).readTurn d.sl d.queue

/-- The queues of a function that carry an older GEN stop (17 R371). -/
def State.stopQueues (s : State) (sl gen : Nat) : State :=
  (s.queuesOf sl).foldl (fun s e =>
    if e.2.gen = gen || e.2.stopped then s
    else
      let s := (s.modQueue sl e.1 (fun x => { x with stopped := true })).cancelWaiting sl e.1 false
      let s := (s.dpa.dmas.filter (fun d => d.sl == sl && d.queue == e.1)).foldl (fun s d => s.endDma d Status.faulted) s
      s.reapQueue sl e.1) s

/-- Everything a slice's dispatch holds ends: a slice destroyed by a commit (04 R84) or reset (22 R487). The commands that waited on its queues
end with `status`. -/
def State.cancelSlice (s : State) (sl status detail : Nat) : State :=
  let qs := s.queuesOf sl
  let waiters := qs.flatMap (fun e => e.2.destroy ++ e.2.suspendCmds)
  let s := s.dropAccs (fun a => a.sl == sl && (a.use == .ring || a.use == .completion || a.use == .glist || a.use == .dmaRead || a.use == .dmaWrite))
  let mine := s.fld.passes.filter (fun p => p.sl == sl)
  let s := mine.foldl (fun s p => s.dropReads p) s
  let s := s.dropColls ((s.dpa.dmas.filter (fun d => d.sl == sl)).flatMap (fun d => d.ids.map Prod.fst))
  let s := { s with
    fld := { s.fld with passes := s.fld.passes.filter (fun p => p.sl != sl), failed := s.fld.failed.filter (fun e => e.1 != sl),
                        held := s.fld.held.filter (fun h => (s.cluster h.cluster).owner != sl) },
    dpa := { s.dpa with queues := s.dpa.queues.filter (fun e => e.1 / 4096 != sl), tasks := s.dpa.tasks.filter (fun t => t.sl != sl),
                        dmas := s.dpa.dmas.filter (fun d => d.sl != sl), cpls := s.dpa.cpls.filter (fun c => c.sl != sl),
                        joins := s.dpa.joins.filter (fun j => j.sl != sl), sync := s.dpa.sync.filter (fun e => e.1 / 256 != sl),
                        last := s.dpa.last.filter (fun e => e.1 / 4 != sl), refusals := s.dpa.refusals.filter (fun e => e.1 != sl),
                        lastRef := s.dpa.lastRef.filter (fun e => e.1 != sl) } }
  let s := (s.clustersOf sl).foldl (fun s c => s.modCluster c (fun x => { x with groups := [], promised := none, notBefore := 0 })) s
  waiters.foldl (fun s c => s.finish (some c) status detail []) (s.syncSaveUse sl)

/-! ## Joins and leaves (R244, R245) -/

/-- Free PRIVATE grains of a slice, ascending. -/
def State.freePriv (s : State) (sl : Nat) : List Nat := s.grainsWhere (fun e => e.st == .owned && e.owner == sl && e.attr == .priv && !e.inUse)

/-- JOINs of a slice still in its admission queue, in order. -/
def State.admQueue (s : State) (sl : Nat) : List JoinQ := s.dpa.joins.filter (fun j => j.sl == sl && !j.granted)

/-- The decision of R244 from the head: for each JOIN decided its queue, entry, and the grains taken. The head it stops at stands last with
no grains. -/
def joinDecision : List JoinQ → List Nat → List (Nat × Nat × List Nat)
  | [], _ => []
  | j :: r, free =>
    let n := fieldAt j.desc 4 2
    if n ≤ free.length then (j.queue, j.entry, free.take n) :: joinDecision r (free.drop n)
    else [(j.queue, j.entry, [])]

/-- The decision as numbers: queue, entry, count, grains. -/
def packJoins (l : List (Nat × Nat × List Nat)) : List Nat := l.flatMap (fun e => [e.1, e.2.1, e.2.2.length] ++ e.2.2)

/-- And back. -/
def unpackJoins : Nat → List Nat → List (Nat × Nat × List Nat)
  | 0, _ => []
  | k + 1, q :: e :: n :: r => (q, e, r.take n) :: unpackJoins k (r.drop n)
  | _, _ => []

/-- A JOIN ends: SSYNC, completion, and the turn passes on (R227, R244). -/
def State.endJoin (s : State) (j : JoinQ) (status aux : Nat) : State :=
  let s := { s with dpa := { s.dpa with joins := s.dpa.joins.filter (fun x => !(x.sl == j.sl && x.queue == j.queue && x.entry == j.entry)) } }
  let s := if status = 0 then s.sigOf j.sl j.desc else s
  let s := s.complete j.sl j.queue j.entry status 0xFF (if status = 0 then j.grains.length else 0) aux j.desc 2 (fieldAt j.desc 0x18 4)
  match s.queue j.sl j.queue with
  | some x => if x.joinHeld && x.turn == j.entry then (s.modQueue j.sl j.queue (fun x => { x with joinHeld := false })).nextTurn j.sl j.queue else s
  | none => s

/-- The decision of a stamp takes effect (R244): granted grains are IN_USE and their indices go to GLIST; a head newly deferred is signalled once
and counts its ticks from `stamp`. `since` of a granted JOIN becomes the ticks it was deferred. -/
def State.joinEffect (s : State) (sl stamp : Nat) (dec : List (Nat × Nat × List Nat)) : State :=
  dec.foldl (fun s e =>
    match s.dpa.joins.find? (fun j => j.sl == sl && j.queue == e.1 && j.entry == e.2.1 && !j.granted) with
    | none => s
    | some j =>
      let upd := fun (s : State) (f : JoinQ → JoinQ) =>
        { s with dpa := { s.dpa with joins := lmod s.dpa.joins (fun x => x.sl == sl && x.queue == e.1 && x.entry == e.2.1) f } }
      if e.2.2.isEmpty then
        if j.since = 0 then
          let s := upd s (fun x => { x with since := stamp })
          match s.vfOf sl with | some v => s.hfpEvt v 0 | none => s
        else s
      else
        let s := e.2.2.foldl (fun s g => s.modGrain g (fun x => { x with inUse := true })) s
        let aux := if j.since = 0 then 0 else stamp - j.since
        let j' : JoinQ := { j with granted := true, grains := e.2.2, since := aux }
        let s := upd s (fun _ => j')
        let gen := (s.queue sl e.1).elim 0 Queue.gen
        match s.vfOf sl with
        | none => s.endJoin j' Status.ok aux
        | some v =>
          if s.mayWrite v gen then s.hostWrite .glist sl e.1 e.2.1 v gen (fieldAt j.desc 0x10 8) (e.2.2.flatMap (leBytes 4))
          else (s.stale v).endJoin j' Status.ok aux) s

/-- The host's answer to a GLIST write: the JOIN completes, or its grains are given back and it completes with BAD_FIELD (R244). -/
def State.glistAnswer (s : State) (sl q entry : Nat) (ok : Bool) : State :=
  match s.dpa.joins.find? (fun j => j.sl == sl && j.queue == q && j.entry == entry && j.granted) with
  | none => s
  | some j => if ok then s.endJoin j Status.ok j.since else s.raise ⟨6, some sl, Sub.dpa, .giveBack sl q entry j.grains⟩

/-- Grains freed after a rejected GLIST write (R244). -/
def State.giveBackEffect (s : State) (sl q entry : Nat) (grains : List Nat) : State :=
  let s := grains.foldl (fun s g =>
    let e := s.grain g
    if e.st == .owned && e.owner == sl && e.attr == .priv then s.modGrain g (fun x => { x with inUse := false }) else s) s
  match s.dpa.joins.find? (fun j => j.sl == sl && j.queue == q && j.entry == entry && j.granted) with
  | some j => s.endJoin j Status.badField 0
  | none => s

/-- The grains a LEAVE frees, in listed order, each once; the rest of the list is ignored (R245). -/
def State.leaveGrains (s : State) (sl : Nat) (d : List Byte) : List Nat :=
  let l := (List.range (fieldAt d 4 1 % 32)).map (fun i => fieldAt d (0x20 + 4 * i) 4)
  (uniq l).filter (fun g => let e := s.grain g; decide (g < nGrains) && e.st == .owned && e.owner == sl && e.attr == .priv && e.inUse)

/-- A LEAVE takes effect (R245): the grains decided become free and it completes, with the ignored ones in AUX. -/
def State.leaveEffect (s : State) (sl q entry : Nat) (d : List Byte) (grains : List Nat) : State :=
  let s := grains.foldl (fun s g => s.modGrain g (fun x => { x with inUse := false })) s
  s.complete sl q entry Status.ok 0xFF grains.length (fieldAt d 4 1 % 32 - grains.length) d 3 (fieldAt d 0x18 4)

/-- The field checks of a JOIN (R230, R244). -/
def joinCheck (d : List Byte) : Option Nat :=
  match headCheck d (!zeroIn d 6 8 || !zeroIn d 0x1C 0x51 || fieldAt d 0x52 1 &&& 0xFD != 0 || !zeroIn d 0x53 0x60 || !zeroIn d 0x68 0x80) with
  | some st => some st
  | none => (firstOf [(fieldAt d 4 2 == 0, Status.okEmpty, 4), (decide (4096 < fieldAt d 4 2), Status.badField, 4),
      (fieldAt d 0x10 8 % 4 != 0, Status.badField, 0x10)]).map Fail.status

/-- The field checks of a LEAVE (R230). -/
def leaveCheck (d : List Byte) : Option Nat :=
  let n := fieldAt d 4 1 % 32
  match headCheck d (fieldAt d 4 1 / 32 != 0 || !zeroIn d 5 8 || !zeroIn d 0x10 0x18 || !zeroIn d 0x1C 0x20) with
  | some st => some st
  | none => (firstOf [(n == 0, Status.okEmpty, 4), (decide (24 < n), Status.badField, 4),
      (!zeroIn d (0x20 + 4 * n) 0x80, Status.badField, 0x20)]).map Fail.status

/-- JOIN (R244): a JOIN at its turn enters its slice's admission queue, an allocation event of class 8; with 64 in the queue it waits at its turn. -/
def execJoin (sl q : Nat) (s : State) : Host.Outcome State Fault Refusal :=
  match s.atTurn sl q .task with
  | none => .next s
  | some (x, d) =>
    if fieldAt d 0 1 != 2 || (bit (fieldAt d 2 1) 0 && !s.fenceMet sl q x) then .next s
    else match joinCheck d with
    | some st => .next (s.failTurn sl q x d st 2)
    | none =>
      if 64 ≤ (s.admQueue sl).length then .next s
      else
        let j : JoinQ := ⟨sl, q, x.turn, d, 0, [], false⟩
        let s := { s with dpa := { s.dpa with joins := s.dpa.joins ++ [j] } }
        .next ((s.modQueue sl q (fun x => { x with joinHeld := true })).raise ⟨8, some sl, Sub.dpa, .join sl q x.turn⟩)

/-- LEAVE (R245): a LEAVE at its turn, with every earlier descriptor completed, frees its grains by an event of class 6. -/
def execLeave (sl q : Nat) (s : State) : Host.Outcome State Fault Refusal :=
  match s.atTurn sl q .task with
  | none => .next s
  | some (x, d) =>
    if fieldAt d 0 1 != 3 || !s.fenceMet sl q x then .next s
    else match leaveCheck d with
    | some st => .next (s.failTurn sl q x d st 3)
    | none => .next ((s.nextTurn sl q).raise ⟨6, some sl, Sub.dpa, .leave sl q x.turn d⟩)

/-! ## DMA (R231) -/

/-- The field checks of a DMA descriptor (R231). -/
def dmaCheck (d : List Byte) : Option Nat :=
  match headCheck d (!zeroIn d 0x1E 0x80) with
  | some st => some st
  | none => (firstOf [(fieldAt d 4 4 == 0, Status.okEmpty, 4), (bit (fieldAt d 0x18 6) 47, Status.badField, 0x18)]).map Fail.status

/-- A DMA transfer begins: the turn passes, and the next descriptor is read once this one has ended. Its host access gets its number when it starts. -/
def State.startDma (s : State) (sl q : Nat) (x : Queue) (d : List Byte) (ids : List (Nat × Nat)) : State :=
  let m : Dma := { sl := sl, queue := q, jgen := x.jgenOf x.turn, entry := x.turn, desc := d, acc := s.tpl.nextAcc, moved := 0, status := none, ids := ids }
  ({ s with dpa := { s.dpa with dmas := s.dpa.dmas ++ [m] } }).nextTurn sl q

/-- A transfer changed. -/
def State.modDma (s : State) (m : Dma) (f : Dma → Dma) : State :=
  { s with dpa := { s.dpa with dmas := lmod s.dpa.dmas (fun x => x.sl == m.sl && x.queue == m.queue) f } }

/-- A DMA descriptor of one direction at its turn, checked. -/
def State.dmaTurn (s : State) (sl q op : Nat) : Option (Queue × List Byte) × State :=
  match s.atTurn sl q .dma with
  | none => (none, s)
  | some (x, d) =>
    let o := fieldAt d 0 1
    if s.dpa.dmas.any (fun y => y.sl == sl && y.queue == q) || (bit (fieldAt d 2 1) 0 && !s.fenceMet sl q x) then (none, s)
    else if op = 2 && o != 2 || op = 1 && o = 2 then (none, s)
    else if o != 1 && o != 2 then (none, s.failTurn sl q x d (badOp d) o)
    else match dmaCheck d with
      | some st => (none, s.failTurn sl q x d st o)
      | none => (some (x, d), s)

/-- TO_DEVICE (R231): a TO_DEVICE descriptor at its turn starts to read its host data; the lines are written as the data arrives. A descriptor of
an OP that a DMA queue does not define fails here. -/
def execToDevice (sl q : Nat) (s : State) : Host.Outcome State Fault Refusal :=
  match s.dmaTurn sl q 1 with
  | (none, s) => .next s
  | (some (x, d), s) =>
    let s := s.startDma sl q x d []
    let v := (s.vfOf sl).getD 0
    .next (s.hostRead .dmaRead sl q x.turn v x.gen (fieldAt d 0x10 8) (fieldAt d 4 4))

/-- The port of class HD is the VF that issued the DMA (03 R59). -/
def State.hdPort (s : State) (sl : Nat) : Nat := (s.vfOf sl).getD 64

/-- The pieces of a range line by line: (address, bytes). -/
def linePieces (addr len : Nat) : List (Nat × Nat) :=
  (List.range ((addr + (len - 1)) / 256 - addr / 256 + 1)).map (fun i =>
    let lo := max addr (256 * (addr / 256 + i))
    (lo, min (addr + len) (256 * (addr / 256 + i + 1)) - lo))

/-- TO_HOST (R231): a TO_HOST descriptor at its turn reads its device lines, each of which passes the Binder with class HD and is regulated as any request of the slice;
what they give goes to the host once they have come. -/
def execToHost (sl q : Nat) (s : State) : Host.Outcome State Fault Refusal :=
  match s.dmaTurn sl q 2 with
  | (none, s) => .next s
  | (some (x, d), s) =>
    let ps := linePieces (fieldAt d 0x18 6) (fieldAt d 4 4)
    let r := s.readSpans .hd sl (s.hdPort sl) ps
    .next (({ r.1 with tpl := { r.1.tpl with nextAcc := r.1.tpl.nextAcc + 1 } }).startDma sl q x d (List.zip r.2 (ps.map Prod.snd)))

/-- The bytes of a TO_DEVICE transfer that stand whole before the first request not yet answered. -/
def State.arrived (s : State) (a : HostAcc) : Nat :=
  ((s.tpl.reqs.filter (fun r => r.acc == a.id)).map HostReq.off).foldl min a.sent

/-- The device writes of a TO_DEVICE transfer that have been accepted count, up to the first that has not ended; a line refused ends the transfer, and no later line
is written (R231). -/
def State.dmaSettle (s : State) (m : Dma) : State :=
  let good := m.ids.takeWhile (fun e => s.collDone e.1 && s.collBad e.1 == 0)
  let rest := m.ids.drop good.length
  let bad := match rest with | e :: _ => s.collDone e.1 | [] => false
  let s := s.dropColls ((if bad then m.ids else good).map Prod.fst)
  let s := s.modDma m (fun x => { x with moved := x.moved + lsum (good.map Prod.snd), ids := if bad then [] else rest,
                                          status := if bad then some Status.faulted else x.status })
  if bad then s.dropAccs (fun a => a.id == m.acc) else s

/-- Lines of a TO_DEVICE transfer written up to byte `upTo` of it, whole lines only unless it is the end, until one is refused (R231). -/
def State.dmaWrite (s : State) (m : Dma) (data : List Byte) (upTo : Nat) : State :=
  let len := fieldAt m.desc 4 4
  let da := fieldAt m.desc 0x18 6
  let cut := if len ≤ upTo then len else (da + upTo) / 256 * 256 - da
  let at' := m.moved + lsum (m.ids.map Prod.snd)
  if cut ≤ at' || m.status.isSome then s
  else
    let r := (linePieces (da + at') (cut - at')).foldl (fun (acc : State × List (Nat × Nat)) l =>
      if acc.2.any (fun e => acc.1.collBad e.1 != 0) then acc
      else
        let w := acc.1.memAccess .hd m.sl (s.hdPort m.sl) l.1 l.2 true (slice data (l.1 - da) l.2)
        (w.1, acc.2 ++ [(w.2, l.2)])) (s, m.ids)
    (r.1.modDma m (fun x => { x with ids := r.2 })).dmaSettle { m with ids := r.2 }

/-- A TO_HOST transfer whose device lines have come sends what stands before the first refused one to the host; refused, it ends with FAULTED after them (R231). -/
def State.dmaSend (s : State) (m : Dma) : State :=
  if m.ids.isEmpty || m.ids.any (fun e => !s.collDone e.1) then s
  else
    let good := m.ids.takeWhile (fun e => s.collBad e.1 == 0)
    let data := good.flatMap (fun e => s.collBytes e.1)
    let s := s.dropColls (m.ids.map Prod.fst)
    let s := s.modDma m (fun x => { x with
      ids := [], moved := data.length, acc := s.tpl.nextAcc, status := if good.length < m.ids.length then some Status.faulted else none })
    let v := (s.vfOf m.sl).getD 0
    let gen := ((s.queue m.sl m.queue).map Queue.gen).getD 0
    if data.isEmpty then { s with tpl := { s.tpl with nextAcc := s.tpl.nextAcc + 1 } }
    else s.hostWrite .dmaWrite m.sl m.queue m.entry v gen (fieldAt m.desc 0x10 8) data

/-- DMA_DONE (R231): the transfer of a DMA queue goes on, and ends once nothing of it is on its way, with OK or the status an error has given it. -/
def execDmaDone (sl q : Nat) (s : State) : Host.Outcome State Fault Refusal :=
  if s.mce.fenced then .next s
  else match s.dpa.dmas.find? (fun d => d.sl == sl && d.queue == q) with
  | none => .next s
  | some d =>
    if fieldAt d.desc 0 1 = 2 && !d.ids.isEmpty then .next (s.dmaSend d)
    else
      let s := s.dmaSettle d
      match s.dpa.dmas.find? (fun d => d.sl == sl && d.queue == q) with
      | none => .next s
      | some d =>
        if !d.ids.isEmpty || s.tpl.accs.any (fun a => a.id == d.acc) then .next s
        else .next (s.endDma d (d.status.getD Status.ok))

/-- TO_HOST transfers whose lines have come go on, at every tick (R231). -/
def State.dmaTick (s : State) : State :=
  if s.mce.fenced then s
  else (s.dpa.dmas.filter (fun d => fieldAt d.desc 0 1 == 2 && !d.ids.isEmpty)).foldl (fun s d => s.dmaSend d) s

/-- The host grant bytes of a tick are divided among the moving DMA queues of each slice (R231, 12 R275). A queue's unused part does not reach
another queue; it may stand until it makes up one request. -/
def State.dmaBudgets (s : State) : State :=
  let s := s.slices.foldl (fun s d =>
    let qs := ascending ((s.dpa.dmas.filter (fun m => m.sl == d.slice && m.status.isNone)).map Dma.queue)
    let n := qs.length
    if n = 0 then s
    else
      let total := 352 * s.grantsOf d.slice
      let more := fun (q : Nat) => let i := qs.idxOf q; if (i + n - s.dpa.rot % n) % n < total % n then 1 else 0
      qs.foldl (fun s q =>
        match s.dpa.dmas.find? (fun m => m.sl == d.slice && m.queue == q) with
        | some m =>
          let upd : HostAcc → HostAcc := fun a => { a with budget := min 4096 (a.budget + total / n + more q) }
          { s with tpl := { s.tpl with accs := lmod s.tpl.accs (fun a => a.id == m.acc) upd } }
        | none => s) s) s
  { s with dpa := { s.dpa with rot := s.dpa.rot + 1 } }

end Sys2Proof.Machine
end

