-- ==== Sys2Proof/Machine/Mailbox.lean ====
section
/-! DEFINITION. The mailbox (18): rings, checks, execution places, completions, leases; and the session commands (19 R408–R411). -/

namespace Sys2Proof.Machine

/-! ## Opcodes (19 R404, 20 R427) -/

/-- SLICE field of a command's scope. -/
inductive Scope | function | slice | device
deriving DecidableEq, Repr

/-- Lifecycle states an opcode is allowed in. -/
inductive LcSet | any | devProd | notScrap | bindSet
deriving DecidableEq, Repr

/-- A row of the opcode tables: roles, scope, whether majors 2 and 3 alone define it, lifecycle states, restart marking (true: replay), the
parameter bits listed (as a mask of the 52 parameter bytes, bit 0 of byte 0x0C first), and the firmware component that executes it
(21 R453). -/
structure OpRow where
  code : Nat
  pf : Bool
  vf : Bool
  scope : Scope
  from2 : Bool
  lcs : LcSet
  replay : Bool
  mask : Nat
  comp : Nat
deriving DecidableEq, Repr

/-- Bits `lo` to `hi` of the parameter byte at offset `o`, as a mask of the 52 parameter bytes. -/
def pbits (o lo hi : Nat) : Nat := (2 ^ (hi + 1 - lo) - 1) * 2 ^ (8 * (o - 0x0C) + lo)

/-- `n` whole parameter bytes from offset `o`. -/
def pbytes (o n : Nat) : Nat := pbits o 0 (8 * n - 1)

def Op.negotiate : Nat := 0x0001
def Op.attach : Nat := 0x0002
def Op.lease : Nat := 0x0003
def Op.detach : Nat := 0x0004
def Op.sliceStage : Nat := 0x0101
def Op.sliceDestroy : Nat := 0x0102
def Op.grainStage : Nat := 0x0103
def Op.check : Nat := 0x0104
def Op.commit : Nat := 0x0105
def Op.cancel : Nat := 0x0106
def Op.keyFind : Nat := 0x0201
def Op.statementGet : Nat := 0x0202
def Op.secretInstall : Nat := 0x0203
def Op.challenge : Nat := 0x0204
def Op.imageBind : Nat := 0x0301
def Op.lcTransition : Nat := 0x0401
def Op.debugCtl : Nat := 0x0402
def Op.podOpen : Nat := 0x0501
def Op.podQuery : Nat := 0x0502
def Op.podPut : Nat := 0x0503
def Op.podPin : Nat := 0x0504
def Op.podUnpin : Nat := 0x0505
def Op.podEvict : Nat := 0x0506
def Op.podClose : Nat := 0x0507
def Op.podRebase : Nat := 0x0508
def Op.podSetMode : Nat := 0x0509
def Op.podKeyBind : Nat := 0x050A
def Op.slotClaim : Nat := 0x0601
def Op.slotRelease : Nat := 0x0602
def Op.expertClaim : Nat := 0x0603
def Op.expertRelease : Nat := 0x0604
def Op.queueCreate : Nat := 0x0701
def Op.queueDestroy : Nat := 0x0702
def Op.queueFlush : Nat := 0x0703
def Op.queueSuspend : Nat := 0x0704
def Op.queueCounts : Nat := 0x0705
def Op.captureMode : Nat := 0x0801
def Op.captureRead : Nat := 0x0802
def Op.sliceReset : Nat := 0x0803
def Op.recCtl : Nat := 0x0901
def Op.recRead : Nat := 0x0902
def Op.logMask : Nat := 0x0903
def Op.logRead : Nat := 0x0904
def Op.fwLoad : Nat := 0x0A01
def Op.fwUpdate : Nat := 0x0A02

/-- Session, partition, keys, attestation, lifecycle (19 R404). -/
def opRowsA : List OpRow := [
  ⟨Op.negotiate, true, true, .function, false, .any, true, pbytes 0x0C 2 + pbytes 0x10 8, 0⟩,
  ⟨Op.attach, true, true, .function, false, .any, true, pbytes 0x0C 2, 0⟩,
  ⟨Op.lease, true, true, .function, false, .any, true, 0, 0⟩,
  ⟨Op.detach, true, true, .function, false, .any, true, 0, 0⟩,
  ⟨Op.sliceStage, true, false, .slice, false, .devProd, true, pbytes 0x0C 32, 0⟩,
  ⟨Op.sliceDestroy, true, false, .slice, false, .devProd, true, 0, 0⟩,
  ⟨Op.grainStage, true, false, .slice, false, .devProd, false, pbytes 0x0C 2 + pbytes 0x10 8, 0⟩,
  ⟨Op.check, true, false, .device, false, .notScrap, true, pbits 0x0C 0 0, 0⟩,
  ⟨Op.commit, true, false, .device, false, .notScrap, true, pbits 0x0C 0 0 + pbytes 0x10 8, 0⟩,
  ⟨Op.cancel, true, false, .device, false, .notScrap, true, pbits 0x0C 0 0, 0⟩,
  ⟨Op.keyFind, true, false, .device, false, .devProd, true, pbytes 0x0C 2, 0⟩,
  ⟨Op.statementGet, false, true, .slice, false, .devProd, true, pbytes 0x0C 40, 0⟩,
  ⟨Op.secretInstall, false, true, .slice, false, .devProd, false, pbytes 0x10 8, 0⟩,
  ⟨Op.challenge, false, true, .slice, false, .devProd, false, pbytes 0x0C 40, 0⟩,
  ⟨Op.imageBind, true, false, .device, false, .bindSet, false, pbits 0x0C 0 2 + pbytes 0x10 16, 0⟩,
  ⟨Op.lcTransition, true, false, .device, false, .any, true, pbits 0x0C 0 7 + pbytes 0x10 8 + pbytes 0x18 2, 0⟩,
  ⟨Op.debugCtl, true, false, .device, false, .any, true, pbits 0x0C 0 1 + pbytes 0x10 8, 0⟩]

/-- Pods and slots (20 R427). -/
def opRowsB : List OpRow := [
  ⟨Op.podOpen, false, true, .slice, false, .devProd, false, pbytes 0x0C 4 + pbits 0x10 0 1 + pbytes 0x14 4 + pbytes 0x18 8 + pbytes 0x20 4, 2⟩,
  ⟨Op.podQuery, false, true, .slice, false, .devProd, true, pbytes 0x0C 4, 2⟩,
  ⟨Op.podPut, false, true, .slice, false, .devProd, false, pbytes 0x0C 8 + pbytes 0x18 8, 2⟩,
  ⟨Op.podPin, false, true, .slice, false, .devProd, true, pbytes 0x0C 4, 2⟩,
  ⟨Op.podUnpin, false, true, .slice, false, .devProd, true, pbytes 0x0C 4, 2⟩,
  ⟨Op.podEvict, false, true, .slice, false, .devProd, true, pbytes 0x0C 4 + pbits 0x10 0 0, 2⟩,
  ⟨Op.podClose, false, true, .slice, false, .devProd, true, pbytes 0x0C 4 + pbits 0x10 0 0, 2⟩,
  ⟨Op.podRebase, false, true, .slice, false, .devProd, false, pbytes 0x0C 12, 2⟩,
  ⟨Op.podSetMode, false, true, .slice, true, .devProd, true, pbytes 0x0C 8, 2⟩,
  ⟨Op.podKeyBind, false, true, .slice, false, .devProd, false, pbits 0x0C 0 0 + pbytes 0x10 8, 2⟩,
  ⟨Op.slotClaim, false, true, .slice, false, .devProd, true, pbytes 0x0C 5 + pbits 0x11 0 0 + pbits 0x13 0 1 + pbytes 0x14 4, 2⟩,
  ⟨Op.slotRelease, false, true, .slice, false, .devProd, true, pbytes 0x10 1, 2⟩,
  ⟨Op.expertClaim, false, true, .slice, false, .devProd, true, pbytes 0x0C 6 + pbits 0x12 0 3 + pbits 0x13 0 1 + pbytes 0x14 4, 2⟩,
  ⟨Op.expertRelease, false, true, .slice, false, .devProd, true, pbytes 0x10 2 + pbits 0x12 0 3, 2⟩]

/-- Queues, recovery, recorder, log, firmware (20 R427). -/
def opRowsC : List OpRow := [
  ⟨Op.queueCreate, false, true, .slice, false, .devProd, true, pbits 0x0C 0 6 + pbits 0x0D 0 4 + pbits 0x0E 0 12 + pbytes 0x10 16, 1⟩,
  ⟨Op.queueDestroy, false, true, .slice, false, .devProd, true, pbits 0x0C 0 11, 1⟩,
  ⟨Op.queueFlush, false, true, .slice, false, .devProd, false, pbits 0x0C 0 11, 1⟩,
  ⟨Op.queueSuspend, false, true, .slice, true, .devProd, true, pbits 0x0C 0 11 + pbits 0x0E 0 1, 1⟩,
  ⟨Op.queueCounts, true, true, .slice, false, .devProd, true, pbits 0x0C 0 11 + pbytes 0x10 8, 1⟩,
  ⟨Op.captureMode, false, true, .slice, false, .devProd, true, pbits 0x0C 0 1, 3⟩,
  ⟨Op.captureRead, false, true, .slice, false, .devProd, true, pbytes 0x0C 20 + pbits 0x20 0 0, 3⟩,
  ⟨Op.sliceReset, true, true, .slice, false, .devProd, true, 0, 3⟩,
  ⟨Op.recCtl, true, false, .device, false, .any, true, pbits 0x0C 0 1, 4⟩,
  ⟨Op.recRead, true, false, .device, false, .any, true, pbits 0x0C 0 16 + pbits 0x10 0 16 + pbytes 0x18 8, 4⟩,
  ⟨Op.logMask, true, false, .device, false, .any, true, pbytes 0x10 8, 4⟩,
  ⟨Op.logRead, true, false, .device, false, .any, true, pbits 0x0C 0 22 + pbytes 0x10 4 + pbytes 0x18 8, 4⟩,
  ⟨Op.fwLoad, true, false, .device, false, .notScrap, true, pbytes 0x10 12, 0⟩,
  ⟨Op.fwUpdate, true, false, .device, false, .notScrap, false, pbytes 0x10 12, 0⟩]

/-- Every opcode. -/
def opRows : List OpRow := opRowsA ++ opRowsB ++ opRowsC

/-- The row of an opcode a major defines. -/
def opRow (major op : Nat) : Option OpRow := opRows.find? (fun r => r.code == op && (!r.from2 || decide (2 ≤ major)))

/-! ## The lifecycle as seen by commands (16 R352, R353) -/

/-- DEV or PROD. -/
def State.lcDevProd (s : State) : Bool := s.lcCode == 0x11 || s.lcCode == 0x12

/-- Whether a lifecycle state is in an opcode's set. -/
def State.lcIn (s : State) : LcSet → Bool
  | .any => true
  | .devProd => s.lcDevProd
  | .notScrap => s.lcCode != 0x14
  | .bindSet => s.lcDevProd || s.lcCode == 0 || (decide (s.lcCode ≤ 15) && s.lcCode % 2 == 1)

/-! ## Leases and rings -/

/-- The major and features in force for a submission of a given stamp (R393). -/
def Mbx.majorAt (m : Mbx) (stamp : Nat) : Nat := if m.negAt < stamp then m.major else m.oldMajor
def Mbx.featAt (m : Mbx) (stamp : Nat) : Nat := if m.negAt < stamp then m.feat else m.oldFeat

/-- The stamp of the tail write that submitted an entry. -/
def Mbx.stampOf (m : Mbx) (entry : Nat) : Nat := m.marks.foldl (fun t x => if x.1 ≤ entry then x.2 else t) 0

/-- Base of a function's mailbox registers: PF0's block, or the VF's window. -/
def mbReg (f pfPlace vfPlace : Nat) : Nat := if f = pf0 then pfPlace else vfReg f vfPlace

/-- Commands of a function that hold an execution place. -/
def State.places (s : State) (f : Nat) : Nat := (s.mb f).exec.length

/-- The next entry is read when a place is free and nothing read before waits behind BARRIER (R385, R399). -/
def State.mbPump (s : State) (f : Nat) : State :=
  let m := s.mb f
  if !m.on || m.reading || m.tail ≤ m.head || decide (32 ≤ m.exec.length) || m.exec.any (fun e => e.stage == .barrier && !e.done) then s
  else
    (s.modMb f (fun m => { m with reading := true })).hostRead .mbxRing f m.head 0 f m.stamp (m.sq + 64 * (m.head % m.depth)) 64

/-- Rings stop (R384, 17 R371): entries not read are never read, completions of those read are discarded and counted. -/
def State.stopRings (s : State) (f : Nat) : State :=
  let m := s.mb f
  if !m.on then s
  else
    let gone := m.exec.filter (fun e => !e.ref.direct && e.done)
    let s := s.modFn f (fun x => { x with stale := min 0xFFFFFFFF (x.stale + gone.length) })
    let lose : ExecCmd → ExecCmd := fun e => if e.ref.direct then e else { e with lost := true }
    let kept := (m.exec.filter (fun e => e.ref.direct || !e.done)).map lose
    let s := s.modMb f (fun m => { m with on := false, reading := false, marks := [], tail := 0, head := 0, cqTail := 0, cqSeen := 0, exec := kept })
    let s := s.dropAccs (fun a => a.use == .mbxRing && a.sl == f)
    s.wf (mbReg f R.mbxCfg V.mbxCfg) 16 16 0

/-- MBX_CFG_WRITE (R384): ENABLE = 1 makes the rings, stamped with the current GEN, unless DEPTH or a base is invalid, which sets CFGERR;
ENABLE = 0 stops them at once. A write with ENABLE = 1 while they run changes nothing of them. -/
def State.writeMbxCfg (s : State) (f v : Nat) : State :=
  let cfg := mbReg f R.mbxCfg V.mbxCfg
  let m := s.mb f
  if !bit v 16 then (s.stopRings f).wr cfg (v % 8192)
  else if m.on then s.wr cfg (v % 8192 + 2 ^ 16)
  else
    let a := fun (p q : Nat) => s.rd (mbReg f p q)
    let sq := a R.mbxSqBaseLo V.mbxSqBaseLo + 2 ^ 32 * a R.mbxSqBaseHi V.mbxSqBaseHi
    let cq := a R.mbxCqBaseLo V.mbxCqBaseLo + 2 ^ 32 * a R.mbxCqBaseHi V.mbxCqBaseHi
    let d := v % 8192
    if d = 0 || 4096 < d || sq % 4096 != 0 || cq % 4096 != 0 then
      (s.wr cfg d).wf (mbReg f R.mbxState V.mbxState) 4 4 1
    else
      let g := (s.fn f).gen
      ((s.wr cfg (d + 2 ^ 16)).wr (mbReg f R.mbxCqHead V.mbxCqHead) 0).modMb f (fun m =>
        { m with on := true, depth := d, sq := sq, cq := cq, stamp := g, tail := 0, head := 0, cqTail := 0, cqSeen := 0, marks := [], reading := false })

/-- Host register writes of a function that does not exist do not arrive; PF0 always exists (17 R366). -/
def execMbxCfgWrite (f v : Nat) (s : State) : Host.Outcome State Fault Refusal :=
  .next (s.gatedFn f R.mbxCfg V.mbxCfg v (fun s => s.writeMbxCfg f (v % 2 ^ 32)))

/-- A submission takes effect (R385): the entries up to the new tail are submitted. -/
def State.tailEffect (s : State) (f tail stamp : Nat) : State :=
  let m := s.mb f
  if !m.on || m.depth = 0 then s
  else
    let n := (tail + m.depth - m.tail % m.depth) % m.depth
    if n = 0 then s
    else (s.modMb f (fun m => { m with tail := m.tail + n, marks := (m.marks.filter (fun x => decide (m.head ≤ x.1))) ++ [(m.tail, stamp)] })).mbPump f

/-- SQ_TAIL (R385): a tail write is an event of class 11; a tail at or above D is dropped and sets BADTAIL. In a security halt the entries are
taken at once, to be answered HALTED (R390). -/
def State.writeSqTail (s : State) (f v : Nat) : State :=
  let m := s.mb f
  let t := v % 4096
  if !m.on then s
  else if m.depth ≤ t then s.wf (mbReg f R.mbxState V.mbxState) 5 5 1
  else (if s.mce.halted then s.tailEffect f t s.spn.tick else s).raise ⟨11, if f = pf0 then none else s.presents f, Sub.hfp, .mbTail f t⟩

/-- MBX_CQ_HEAD_WRITE (R386): values at or above D are ignored. -/
def State.writeCqHead (s : State) (f v : Nat) : State :=
  let m := s.mb f
  let h := v % 4096
  if !m.on || m.depth ≤ h then s
  else
    let adv := (h + m.depth - m.cqSeen % m.depth) % m.depth
    let seen := if m.cqSeen + adv ≤ m.cqTail then m.cqSeen + adv else m.cqSeen
    (s.wr (mbReg f R.mbxCqHead V.mbxCqHead) h).modMb f (fun m => { m with cqSeen := seen })

/-- MBX_CQ_HEAD_WRITE (R386). -/
def execMbxCqHeadWrite (f v : Nat) (s : State) : Host.Outcome State Fault Refusal :=
  .next (s.gatedFn f R.mbxCqHead V.mbxCqHead v (fun s => s.writeCqHead f v))

/-! ## Checks of a command (R389) -/

/-- What step of R389 a command fails, with status and DETAIL. FW_LOAD after FW = 1 has its parameters judged as reserved first (DESIGN CHOICE, log 87). `direct` marks the direct mailbox; `boot` is LLY_HFP_READY.FW = 0. -/
def State.mbCheck (s : State) (f : Nat) (direct : Bool) (stamp : Nat) (c : List Byte) : Option Fail :=
  let m := s.mb f
  let op := fieldAt c 0 2
  let boot := !s.hfp.fwReady
  let rom := boot && direct && op == Op.fwLoad
  let major := m.majorAt stamp
  let row := if op = Op.fwLoad && !rom then none else opRow major op
  let pmask := match row with | some r => r.mask | none => 0
  let pv := fieldAt c 0x0C 52
  let rs := ((List.range 52).find? (fun i => (pv >>> (8 * i)) % 256 &&& (255 - (pmask >>> (8 * i)) % 256) != 0)).map (· + 0x0C)
  let hdr := if fieldAt c 2 1 / 2 != 0 then some 2 else if fieldAt c 0x0B 1 / 16 != 0 then some 0x0B else none
  let rsvd := match hdr with | some o => some o | none => rs
  let sl := fieldAt c 0x0A 1
  let own := if f = pf0 then none else s.presents f
  let st := fun (b : Bool) (x d : Nat) => (b, x, d)
  let scopeBad := match row with
    | none => false
    | some r => match r.scope with
      | .device => sl != 0
      | .function => f == pf0 && sl != 0
      | .slice => false
  let roleBad := match row with | none => false | some r => if f = pf0 then !r.pf else !r.vf
  let faulted := s.contained sl && !(f == pf0 && op == Op.sliceReset && (s.fsl sl).phase == .held && s.flt.block == 0)
  firstOf [
    st s.mce.halted Status.halted 0,
    st (s.flt.block == 2) Status.faulted 0xFF,
    st (boot && !rom) Status.busyInit (s.rf R.hfpRetry 23 0),
    st (fieldAt c 0x0B 1 % 16 != 1) Status.badVersion 0x0301,
    st rsvd.isSome Status.rsvd (rsvd.getD 0),
    st (!rom && (if op = Op.negotiate then fieldAt c 3 1 = 0 || 3 < fieldAt c 3 1 else fieldAt c 3 1 != major)) Status.badVersion 0x0301,
    st (!rom && fieldAt c 8 2 != (s.fn f).gen) Status.staleGen (s.fn f).gen,
    st (op == Op.fwLoad && !rom) Status.notPermitted 1,
    st row.isNone Status.badField (dtl 0 0),
    st (decide (63 < sl) || scopeBad) Status.badField (dtl 0x0A 0),
    st roleBad Status.notPermitted 1,
    st (f != pf0 && own != some sl) Status.notPermitted 2,
    st (!rom && op != Op.attach && op != Op.negotiate && !m.lease) Status.notPermitted 3,
    st (!rom && op == Op.attach && m.lease) Status.notPermitted 4,
    st (match row with | some r => !s.lcIn r.lcs | none => false) Status.lcForbids s.lcCode,
    st ((match row with | some r => r.scope == .slice || f != pf0 | none => false) && (faulted || (f != pf0 && (s.fn f).reset))) Status.faulted sl]

/-- The host structure an opcode reads, its length and the parameter offset that names it (R405), where its own fields let it be read. -/
def State.cmdReads (s : State) (c : List Byte) : Option (Nat × Nat × Nat) :=
  let op := fieldAt c 0 2
  if op = Op.grainStage then
    let n := fieldAt c 0x0C 2
    if n = 0 || 4096 < n then none else some (fieldAt c 0x10 8, 8 * n, 0x10)
  else if op = Op.secretInstall || op = Op.podKeyBind then some (fieldAt c 0x10 8, 228, 0x10)
  else if op = Op.imageBind then (if (s.image (fieldAt c 0x0C 1 % 4)).bound || s.vlt.binding.isSome then none else some (fieldAt c 0x10 8, 128, 0x10))
  else if op = Op.lcTransition then
    let n := fieldAt c 0x18 2
    if n = 32 || n = 192 then some (fieldAt c 0x10 8, n, 0x10) else none
  else if op = Op.debugCtl then (if fieldAt c 0x0C 1 % 4 = 1 then some (fieldAt c 0x10 8, 192, 0x10) else none)
  else none

/-- The bytes of LLY_MBX_DDATA from its start (R391). -/
def State.ddata (s : State) (n : Nat) : List Byte :=
  slice ((List.range (ceilDiv n 4)).flatMap (fun i => leBytes 4 (s.rd (R.mbxDdata + 4 * i)))) 0 n

/-- Output data placed in LLY_MBX_DDATA (R391). -/
def State.putDdata (s : State) (d : List Byte) : State :=
  (List.range (ceilDiv d.length 4)).foldl (fun s i => s.wr (R.mbxDdata + 4 * i) (fieldAt d (4 * i) 4)) s

/-- An executing command changed. -/
def State.modCmd (s : State) (r : CmdRef) (g : ExecCmd → ExecCmd) : State :=
  s.modMb r.fn (fun m => { m with exec := lmod m.exec (fun e => e.ref == r) g })

/-- A command's structure is asked for, or it is ready at once; one on the direct mailbox at address 0 lies in LLY_MBX_DDATA. -/
def State.fetchCmd (s : State) (e : ExecCmd) : State :=
  match s.cmdReads e.entry with
  | none => s.modCmd e.ref (fun x => { x with stage := .ready })
  | some (a, n, _) =>
    if e.ref.direct && a = 0 then s.modCmd e.ref (fun x => { x with stage := .ready, data := s.ddata n })
    else (s.modCmd e.ref (fun x => { x with stage := .fetching })).hostRead .mbxData e.ref.fn e.ref.id 0 e.ref.fn e.ref.gen a n

/-- Commands held back by BARRIER go on once every earlier one of the function has completed and gone (R399). -/
def State.mbSettle (s : State) (f : Nat) : State :=
  match (s.mb f).exec.head? with
  | some e => if e.stage == .barrier && !e.done then (s.fetchCmd e).mbPump f else s.mbPump f
  | none => s.mbPump f

/-- A command taken up (R385, R389, R399): it holds a place; a failed check ends it at once. `entry` none: the host answered its read with an error. -/
def State.takeCmd (s : State) (f : Nat) (direct : Bool) (stamp : Nat) (entry : Option (List Byte)) : State :=
  let m := s.mb f
  let c := entry.getD []
  let major := m.majorAt stamp
  let r : CmdRef := ⟨f, direct, m.nextSeq, fieldAt c 0 2, (s.fn f).gen⟩
  let base : ExecCmd := {
    ref := r, tag := fieldAt c 4 4, slice := fieldAt c 0x0A 1, pver := major, feat := m.featAt stamp, stage := .ready, ledger := .none, done := false,
    status := 0, detail := 0, result := List.replicate 16 0, interim := false, interimSent := false, interimDetail := 0, replayed := false, lost := false,
    barrier := bit (fieldAt c 2 1) 0, stamp := stamp, entry := slice c 0 64, data := [] }
  let chk : Option Fail := match entry with
    | none => some ⟨Status.badField, 0⟩
    | some c => s.mbCheck f direct stamp c
  let earlier := !m.exec.isEmpty
  let e : ExecCmd := match chk with
    | some x => { base with done := true, status := x.status, detail := x.detail }
    | none => if base.barrier && earlier then { base with stage := .barrier } else base
  let s := s.modMb f (fun m => { m with exec := m.exec ++ [e], nextSeq := m.nextSeq + 1 })
  if e.done || e.stage == .barrier then s else s.fetchCmd e

/-- An entry of a ring has been read, or its read failed (R385). -/
def State.ringAnswer (s : State) (f entry : Nat) (d : Option (List Byte)) : State :=
  let m := s.mb f
  if !m.on || m.head != entry then s
  else
    let s := s.modMb f (fun m => { m with head := m.head + 1, reading := false })
    (s.takeCmd f false (m.stampOf entry) d).mbPump f

/-- A GO of the direct mailbox takes effect: the command is taken up. -/
def State.goEffect (s : State) (c : List Byte) (stamp : Nat) : State :=
  (s.modMb pf0 (fun m => { m with directWait := false })).takeCmd pf0 true stamp (some c)

/-- Whether the direct mailbox is busy (R391). -/
def State.directBusy (s : State) : Bool := (s.mb pf0).directWait || (s.mb pf0).exec.any (fun e => e.ref.direct)

/-- DCTL_GO (R391): the command in LLY_MBX_DCMD is taken up at its stamp; a GO while BUSY = 1 is dropped. In a security halt it is answered
HALTED at once (R390). -/
def State.writeGo (s : State) : State :=
  if s.directBusy then s
  else
    let c := (List.range 16).flatMap (fun i => leBytes 4 (s.rd (R.mbxDcmd + 4 * i)))
    (if s.mce.halted then s.goEffect c s.spn.tick else s.modMb pf0 (fun m => { m with directWait := true })).raise ⟨11, none, Sub.hfp, .mbGo c⟩

/-- DCTL_GO (R391). -/
def execDctlGo (s : State) : Host.Outcome State Fault Refusal := .next (s.gated 0 R.mbxDctl 1 State.writeGo)

/-! ## Starting a command -/

/-- Whether the firmware component that executes an opcode is up: its core runs and it has reported RUNNING (21 R462), and no hand-off stands
between QUIESCE and ADOPT (21 R459). The boot ROM serves FW_LOAD. -/
def State.compUp (s : State) (comp : Nat) : Bool :=
  let core := if comp = 4 then 3 else comp
  let c := tget (dflt Core.init) s.ccx.cores core
  c.st == .running && bit c.running comp && !(2 ≤ s.ccx.phase && s.ccx.phase ≤ 4)

/-- Staging commands (19 R406). -/
def isStaging (op : Nat) : Bool := op == Op.sliceStage || op == Op.sliceDestroy || op == Op.grainStage

/-- The next command of a function to start, if it is of opcode `op` and ready (R399, 19 R406): every command before it has started. LEASE is
recognised in hardware and starts out of turn (R395). -/
def State.toStart (s : State) (f op : Nat) : Option ExecCmd :=
  let l := (s.mb f).exec
  if op = Op.lease then l.find? (fun e => !e.done && e.stage == .ready && e.ref.op == op)
  else
    match l.find? (fun e => !e.done && e.stage != .running && e.ref.op != Op.lease) with
    | none => none
    | some e =>
      let before := l.takeWhile (fun x => x.ref != e.ref)
      let held := (op == Op.check || op == Op.commit || op == Op.cancel) && before.any (fun x => isStaging x.ref.op && !x.done)
      let up := op == Op.fwLoad || (match opRow 3 op with | some r => s.compUp r.comp | none => false)
      if e.ref.op == op && e.stage == .ready && !held && up then some e else none

/-- A command starts: its ledger record says STARTED (21 R455). -/
def State.startCmd (s : State) (e : ExecCmd) : State :=
  s.modCmd e.ref (fun x => { x with stage := .running, ledger := if x.ledger == .replayed then .replayed else .started })

/-- The fields of a command's step 12, judged; the first failure ends it. -/
def State.judge (s : State) (e : ExecCmd) (l : List (Bool × Nat × Nat)) : Option State :=
  (firstOf l).map (fun x => s.finish (some e.ref) x.status x.detail [])

/-- A command that hands bytes to the host (R405): they go to `dst`, named at parameter offset `off`, and the command ends with OK and
`result` once they are written. On the direct mailbox address 0 names LLY_MBX_DDATA, up to 3,840 bytes (R391). -/
def State.cmdOut (s : State) (e : ExecCmd) (dst off : Nat) (d result : List Byte) : State :=
  if e.ref.direct && dst = 0 then
    if 3840 < d.length then s.finish (some e.ref) Status.badField (dtl off 0) []
    else (s.putDdata d).finish (some e.ref) Status.ok 0 result
  else if !s.mayWrite e.ref.fn e.ref.gen then (s.stale e.ref.fn).finish (some e.ref) Status.ok 0 result
  else
    (s.modCmd e.ref (fun x => { x with result := slice result 0 16 })).hostWrite .mbxWrite e.ref.fn e.ref.id off e.ref.fn e.ref.gen dst d

/-- RELEASE of CAPTURE_READ (20 R445, 22 R478): the record and the capture of an FSEQ are freed. -/
def State.releaseCapture (s : State) (n fseq : Nat) : State :=
  let keep : FltSlice → FltSlice := fun x =>
    { x with store := x.store.filter (fun r => r.fseq != fseq),
             capture := match x.capture with | some c => if c.fseq = fseq then none else some c | none => none }
  (s.modFsl n keep).syncSaveUse n

/-- The host's answer to such a write. -/
def State.outAnswer (s : State) (f id off : Nat) (ok : Bool) : State :=
  match (s.mb f).exec.find? (fun e => e.ref.id == id && !e.done) with
  | none => s
  | some e =>
    if !ok then s.finish (some e.ref) Status.badField (dtl off 0) []
    else
      let s := if e.ref.op = Op.captureRead && bit (fieldAt e.entry 0x20 1) 0 then s.releaseCapture e.slice (leNat (e.result.take 4)) else s
      s.finish (some e.ref) Status.ok 0 e.result

/-- The host's answer to the read of a command's structure (R405); IMAGE_BIND then reads its wrapped key. -/
def State.dataAnswer (s : State) (f id part : Nat) (d : Option (List Byte)) : State :=
  match (s.mb f).exec.find? (fun e => e.ref.id == id && !e.done && e.stage == .fetching) with
  | none => s
  | some e =>
    match d with
    | none => s.finish (some e.ref) Status.badField (dtl (if part = 1 then 0x18 else 0x10) 0) []
    | some b =>
      let s := s.modCmd e.ref (fun x => { x with data := x.data ++ b })
      if e.ref.op == Op.imageBind && part = 0 then
        let a := fieldAt e.entry 0x18 8
        if e.ref.direct && a = 0 then s.modCmd e.ref (fun x => { x with data := x.data ++ s.ddata 228, stage := .ready })
        else s.hostRead .mbxData f id 1 f e.ref.gen a 228
      else s.modCmd e.ref (fun x => { x with stage := .ready })

/-! ## Completions (R386, R388, R403) -/

/-- The 32 bytes of a completion. -/
def ExecCmd.cpl (e : ExecCmd) (final : Bool) (phase : Bool) (gen : Nat) : List Byte :=
  let st := if final then e.status else Status.deferMem
  let flags := 1 + (if final then 16 else 0) + (if e.replayed && bit e.feat 2 then 32 else 0) + (if phase then 128 else 0)
  leBytes 1 st ++ leBytes 1 flags ++ leBytes 2 e.ref.op ++ leBytes 4 e.tag ++ leBytes 2 gen ++ leBytes 1 e.slice ++ leBytes 1 e.pver
    ++ leBytes 4 (if final then e.detail else e.interimDetail) ++ (if final then Sys2Proof.Machine.slice e.result 0 16 else List.replicate 16 0)

/-- The next completion of a function's ring to be written: (command, final). With STRICT_ORDER a final one waits for every earlier one
(R399); an interim one may be written at once. -/
def State.nextCpl (s : State) (f : Nat) : Option (ExecCmd × Bool) :=
  let l := (s.mb f).exec.filter (fun e => !e.ref.direct)
  let fin := l.find? (fun e => e.done && (!bit e.feat 0 || e.ref.op == Op.lease || (l.head?.map ExecCmd.ref) == some e.ref))
  match l.find? (fun e => e.interim && !e.interimSent && !e.done) with
  | some e => some (e, false)
  | none => fin.map (fun e => (e, true))

/-- A command's place is free. -/
def State.dropCmd (s : State) (r : CmdRef) : State :=
  (s.modMb r.fn (fun m => { m with exec := m.exec.filter (fun e => e.ref != r) })).mbSettle r.fn

/-- MBX_COMPLETION_WRITE (R386): the oldest completion of function `f` that may be written is written: to LLY_MBX_DCPL for the direct mailbox
(an FLR of PF0 in between discards it, 17 R377),
to the ring where it has room, with its PHASE and the MBOX event. A completion of an old generation, of stopped rings or of an absent
function is discarded and counted in LLY_HFP_STALE (17 R369, R372); one that meets a full ring after the lease has ended is dropped and
counted in LLY_MBX_DROP (R397, R398). None is written during a block reset: those wait for the audit after it (22 R491). `err`: the host answers the
write with an error, and the completion is lost. -/
def execMbxCompletionWrite (f : Nat) (err : Bool) (s : State) : Host.Outcome State Fault Refusal :=
  if s.flt.block = 1 then .next s else
  match (s.mb f).exec.find? (fun e => e.ref.direct && e.done) with
  | some e =>
    if e.ref.gen != (s.fn f).gen then .next ((s.stale f).dropCmd e.ref) else
    let d := e.cpl true false (s.fn f).gen
    let s := (List.range 8).foldl (fun s i => s.wr (R.mbxDcpl + 4 * i) (fieldAt d (4 * i) 4)) s
    .next (s.dropCmd e.ref)
  | none =>
    match s.nextCpl f with
    | none => .next s
    | some (e, final) =>
      let m := s.mb f
      let sent := fun (s : State) => if final then s.dropCmd e.ref else s.modCmd e.ref (fun x => { x with interimSent := true })
      if e.lost || !s.mayWrite f e.ref.gen then .next (sent (s.stale f))
      else if !m.on then .next (sent (s.stale f))
      else if m.depth ≤ m.cqTail - m.cqSeen then
        if m.ended && !m.lease then .next (sent (s.bump (mbReg f R.mbxDrop V.mbxDrop) 1)) else .next s
      else if !s.tpl.hostUp || s.tpl.hostHeld = 0 then .next s
      else
        let phase := m.cqTail / m.depth % 2 == 0
        let s := { s with tpl := { s.tpl with hostHeld := s.tpl.hostHeld - 1, hostUsed := s.tpl.hostUsed + 1 } }
        let s := s.emit .hostWrite [f, m.cq + 32 * (m.cqTail % m.depth)] (e.cpl final phase m.stamp)
        let s := if err then s else s.modMb f (fun m => { m with cqTail := m.cqTail + 1 })
        let s := if f = pf0 then s.irq 0 else s.hfpEvt f 1
        .next (sent s)

/-! ## Leases (R395–R398) -/

/-- L of R395 in ticks. -/
def leaseTicks (ms : Nat) : Nat := ceilDiv ((if ms = 0 then 500 else ms) * 15625) 4

/-- Orphan mode entered or left, with its record (R398, 24 R516). -/
def State.orphanMode (s : State) (on : Bool) (stamp : Nat) : State :=
  (s.modMb pf0 (fun m => { m with orphan := on })).offer 11 0x50 stamp 0xFF (if on then 1 else 2) 0 []

/-- A lease ends (R396–R398): by expiry (what 0), which holds only where the lease was not renewed, or by DETACH. -/
def State.leaseEnd (s : State) (f what stamp : Nat) : State :=
  let m := s.mb f
  if !m.lease || (what = 0 && stamp < m.leaseAt) then s
  else
    let s := s.modMb f (fun m => { m with lease := false, ended := true })
    if f = pf0 then s.orphanMode true stamp else s

/-- LEASE_EXPIRY (R396): the lease of function `f` has reached its expiry; decided in class 11. While entries submitted at or before the expiry
are still to be read, a LEASE may stand among them, and the expiry waits. -/
def execLeaseExpiry (f : Nat) (s : State) : Host.Outcome State Fault Refusal :=
  let m := s.mb f
  if m.lease && decide (m.leaseAt ≤ s.spn.tick) && !(m.head < m.tail && m.stampOf m.head ≤ m.leaseAt) then
    .next (s.raise ⟨11, if f = pf0 then none else s.presents f, Sub.hfp, .lease f 0⟩)
  else .next s

/-- Codes of `EvBody.mbCmd`. -/
def MbW.negotiate : Nat := 0
def MbW.attach : Nat := 1
def MbW.detach : Nat := 2

/-- A class 11 event of a function's session. -/
def State.mbEv (s : State) (f what : Nat) (args : List Nat) (cmd : Option CmdRef) : State :=
  s.raise ⟨11, if f = pf0 then none else s.presents f, Sub.hfp, .mbCmd f what args cmd⟩

/-- NEGOTIATE (19 R408): the majors are judged; BUSY_RETRY while other commands of the function execute; decided in class 11. -/
def execNegotiate (f : Nat) (s : State) : Host.Outcome State Fault Refusal :=
  match s.toStart f Op.negotiate with
  | none => .next s
  | some e =>
    let s := s.startCmd e
    let lo := fieldAt e.entry 0x0C 1
    let hi := fieldAt e.entry 0x0D 1
    match s.judge e [(lo == 0, Status.badField, dtl 0x0C 0), (hi == 0 || decide (hi < lo), Status.badField, dtl 0x0D 0),
        ((s.mb f).exec.any (fun x => x.ref != e.ref && !x.done), Status.busyRetry, 0),
        (decide (3 < lo), Status.badVersion, 0x0301)] with
    | some s => .next s
    | none =>
      let major := min hi 3
      let feats := fieldAt e.entry 0x10 8 &&& (if major = 1 then 1 else if major = 2 then 3 else 7)
      .next (s.mbEv f MbW.negotiate [major, feats] (some e.ref))

/-- ATTACH (19 R409): takes the lease, in class 11. -/
def execAttach (f : Nat) (s : State) : Host.Outcome State Fault Refusal :=
  match s.toStart f Op.attach with
  | none => .next s
  | some e =>
    let s := s.startCmd e
    let ms := fieldAt e.entry 0x0C 2
    match s.judge e [(ms != 0 && (decide (ms < 50) || decide (60000 < ms)), Status.badField, dtl 0x0C 0)] with
    | some s => .next s
    | none => .next (s.mbEv f MbW.attach [leaseTicks ms] (some e.ref))

/-- LEASE (19 R410, R395): the lease is renewed at the stamp of the tail write that submitted it, unless it expired before that stamp. -/
def execLease (f : Nat) (s : State) : Host.Outcome State Fault Refusal :=
  match s.toStart f Op.lease with
  | none => .next s
  | some e =>
    let s := s.modCmd e.ref (fun x => { x with stage := .running })
    let m := s.mb f
    if !m.lease || m.leaseAt < e.stamp then .next (s.finish (some e.ref) Status.notPermitted 3 [])
    else
      let at' := max m.leaseAt (e.stamp + m.leaseLen)
      .next ((s.modMb f (fun m => { m with leaseAt := at' })).finish (some e.ref) Status.ok 0 (leBytes 8 0 ++ leBytes 8 at'))

/-- DETACH (19 R411): ends the lease at its effective tick, in class 11. -/
def execDetach (f : Nat) (s : State) : Host.Outcome State Fault Refusal :=
  match s.toStart f Op.detach with
  | none => .next s
  | some e => .next ((s.startCmd e).mbEv f MbW.detach [] (some e.ref))

end Sys2Proof.Machine
end

