-- ==== Sys2Proof/Machine/HostFn.lean ====
section
/-! DEFINITION. Functions, generations, TDISP states and MSI-X (17). -/

namespace Sys2Proof.Machine

/-! ## Generation advances (R370, R371) -/

/-- A husk transfer that can no longer move: the fetch fails, the put ends, naming the stale generation. -/
def State.failHusks (s : State) (gone : List HostAcc) (gen : Nat) : State :=
  gone.foldl (fun s a =>
    match a.use with
    | .huskF => (s.modFetch a.sl a.a false (fun f => { f with stage := 4 })).podEv a.sl a.a PodW.failed [Status.staleGen, gen, 0] none
    | .huskT => (s.modFetch a.sl a.a true (fun f => { f with stage := 4 })).podEv a.sl a.a PodW.failed [Status.staleGen, gen, 1] none
    | .huskPut =>
      (match s.pcm.jobs.find? (fun j => j.sl == a.sl && j.pod == a.a && !j.rebase && j.started) with
        | some j => s.putOver j Status.staleGen gen []
        | none => s)
    | .mbxData =>
      (match (s.mb a.sl).exec.find? (fun e => e.ref.id == a.a && !e.done && e.stage == .fetching) with
        | some e => s.finish (some e.ref) Status.staleGen gen []
        | none => s)
    | _ => s) s

/-- Whether a VF is in CONFIG_LOCKED or RUN. -/
def FnSt.bound (x : FnSt) : Bool := x.tdisp == .locked || x.tdisp == .run

/-- The generation after this one (R370). -/
def FnSt.nextGen (x : FnSt) : Nat := if x.gen = 0xFFFF then 1 else x.gen + 1

/-- GEN of one function advances, at most once at one effective tick (R370): its queues and rings of the old generation stop, host accesses that
wait never resume (R369), and its major and features return to 1 and 0 (18 R393). `keepRings`: a reattach restamps them (18 R396). -/
def State.advanceGen (s : State) (f : Nat) (keepRings : Bool) : State :=
  let x := s.fn f
  if x.genAt = s.spn.tick && s.spn.tick != 0 then s
  else
    let g := x.nextGen
    let s := s.modFn f (fun x => { x with gen := g, genAt := s.spn.tick })
    let s := if keepRings then s.modMb f (fun m => { m with stamp := g }) else
      (s.stopRings f).modMb f (fun m => { m with ended := false })
    let s := s.modMb f (fun m => { m with major := 1, feat := 0, oldMajor := 1, oldFeat := 0, negAt := 0 })
    let s := match (if f = pf0 then none else s.presents f) with
      | some sl => s.stopQueues sl g
      | none => s
    let waits := fun (a : HostAcc) => a.fn == f && a.gen != g && a.patient && decide (a.sent < a.len) && a.use != .image && a.use != .fw && a.use != .mbxRing
    let gone := s.tpl.accs.filter waits
    (s.dropAccs waits).failHusks gone g

/-- A VF's TDISP state goes to ERROR from CONFIG_LOCKED or RUN, and from the state an FLR of the same stamp has left it in (R380). -/
def State.tdispError (s : State) (f : Nat) : State :=
  let now := s.spn.tick
  s.modFn f (fun x => if x.bound || (x.flrGen == x.gen && x.genAt == now) then { x with tdisp := .error } else x)

/-- Generations of several functions advance at one effective tick; with `err`, locked VFs among them go to ERROR (R370, R380). -/
def State.advanceGens (s : State) (fns : List Nat) (err : Bool) : State :=
  (uniq fns).foldl (fun s f => (if err && f != pf0 then s.tdispError f else s).advanceGen f false) s

/-- A class 4 event that advances generations (R370). -/
def State.raiseGens (s : State) (fns : List Nat) : State :=
  if fns.isEmpty then s else s.raise ⟨4, none, Sub.hfp, .genAdvance fns⟩

/-! ## Session events of class 11 (18, 19 R408–R411) -/

/-- NEGOTIATE, ATTACH and DETACH take effect. A reattach, one after the lease has ended, advances GEN, restamps the rings and ends orphan mode
(18 R396, R398); its completion carries the new GEN. -/
def State.sessionEffect (s : State) (f what : Nat) (args : List Nat) (cmd : Option CmdRef) (stamp : Nat) : State :=
  let a := fun i => args.getD i 0
  if what = MbW.negotiate then
    let s := s.modMb f (fun m => { m with oldMajor := m.majorAt stamp, oldFeat := m.featAt stamp, major := a 0, feat := a 1, negAt := s.spn.tick })
    s.finish cmd Status.ok 0 (leBytes 8 (a 0) ++ leBytes 8 (a 1))
  else if what = MbW.attach then
    let m := s.mb f
    if m.lease then s.finish cmd Status.notPermitted 4 []
    else
      let again := m.ended
      let s := if again then s.advanceGen f true else s
      let s := if again && f == pf0 && (s.mb pf0).orphan then s.orphanMode false stamp else s
      let s := s.modMb f (fun m => { m with lease := true, leaseLen := a 0, leaseAt := stamp + a 0, ended := false })
      let g := (s.fn f).gen
      let s := s.finish cmd Status.ok 0 (leBytes 4 g ++ leBytes 4 (a 0) ++ leBytes 8 (stamp + a 0))
      -- the ATTACH completion is stamped with the new GEN (18 R396)
      match cmd with
      | some r => s.modCmd r (fun e => { e with ref := { e.ref with gen := g } })
      | none => s
  else (s.leaseEnd f 1 stamp).finish cmd Status.ok 0 []

/-! ## Configuration writes and resets of functions -/

/-- A configuration write, or a write of an MSI-X table: not answered before LLY_HFP_READY.CFG; in DEEP it is held and wakes the device (R382, 23 R510). -/
def State.gatedCfg (s : State) (code a v : Nat) (act : State → State) : State :=
  if s.inReset || !s.hfp.cfgReady then s
  else if s.deepDown then s.holdWrite code a v
  else act s.wakeUp

/-- The VFs in CONFIG_LOCKED or RUN go to ERROR. -/
def State.tdispErrors (s : State) : State := (List.range 64).foldl (fun s v => s.tdispError v) s

/-- The VFs in CONFIG_LOCKED or RUN. -/
def State.boundVfs (s : State) : List Nat := (List.range 64).filter (fun v => (s.fn v).bound)

/-- VF_ENABLE (R366, R370, R380): VF Enable and NumVFs (0–64) written. Enabling, or a change of NumVFs, advances the GEN of every VF that then
exists, in class 4; clearing VF Enable or changing NumVFs takes locked VFs to ERROR, which advances theirs. -/
def State.setVfs (s : State) (en : Bool) (num : Nat) : State :=
  let num := min num 64
  let h := s.hfp
  let changed := h.numVfs != num
  let risen := en && !h.vfEnable
  let s := { s with hfp := { h with vfEnable := en, numVfs := num } }
  let lost := (h.vfEnable && !en) || changed
  let fns := (if en && (risen || changed) then List.range num else []) ++ (if lost then s.boundVfs else [])
  let s := (if lost then s.tdispErrors else s).raiseGens (uniq fns)
  s.pumpHost

/-- VF_ENABLE. -/
def execVfEnable (en : Bool) (num : Nat) (s : State) : Host.Outcome State Fault Refusal :=
  .next (s.gatedCfg 100 (if en then 1 else 0) num (fun s => s.setVfs en num))

/-- A pending vector of an unmasked function and vector is sent (R375), or discarded while the function is withheld from host memory (R369). -/
def State.sendPending (s : State) (f v : Nat) : State :=
  let x := s.fn f
  if s.mce.halted || x.fnMask || bit x.vecMask v || !bit x.pend v then s
  else
    let s := s.modFn f (fun x => { x with pend := x.pend - 2 ^ v })
    if s.withheld f then s.stale f else s.emit .msix [f, v] []

/-- CONFIG_WRITE (R380): function `f` takes a configuration write of register `r`; a change of its BAR, Memory Space Enable or MSI-X control
moves a locked VF to ERROR, which advances its GEN (R370). Writes of an absent VF do not arrive. Registers 0 BAR0 low, 1 BAR0 high,
2 Memory Space Enable, 3 MSI-X control (bit 0 enable, bit 1 function mask). -/
def State.writeConfig (s : State) (f r v : Nat) : State :=
  if !s.hfp.cfgReady || !s.exists f || 3 < r then s
  else
    let v := if r = 2 then v % 2 else if r = 3 then v % 4 else v % 2 ^ 32
    let x := s.fn f
    let old := tget (dflt 0) x.cfg r
    if old = v then s
    else
      let s := s.modFn f (fun x => { x with cfg := tset (dflt 0) x.cfg r v, fnMask := if r = 3 then bit v 1 else x.fnMask })
      let s := if r = 3 then (List.range 32).foldl (fun s v => s.sendPending f v) s else s
      let locked := f != pf0 && x.bound
      if locked then (s.tdispError f).raiseGens [f] else s

/-- CONFIG_WRITE. -/
def execConfigWrite (f r v : Nat) (s : State) : Host.Outcome State Fault Refusal :=
  .next (s.gatedCfg 101 (4 * f + r) v (fun s => s.writeConfig f r v))

/-- MSIX_UNMASK (R375): vector `v` of function `f` is unmasked, or masked where `mask` is true; with its pending bit set its message is sent. -/
def State.maskVector (s : State) (f v : Nat) (mask : Bool) : State :=
  let v := v % 32
  if !s.exists f then s
  else
    let s := s.modFn f (fun x => { x with vecMask := if mask then x.vecMask ||| 2 ^ v else x.vecMask - (x.vecMask &&& 2 ^ v) })
    s.sendPending f v

/-- MSIX_UNMASK. -/
def execMsixUnmask (f v : Nat) (mask : Bool) (s : State) : Host.Outcome State Fault Refusal :=
  .next (s.gatedCfg 102 (32 * f + v % 32) (if mask then 1 else 0) (fun s => s.maskVector f v mask))

/-- A function's configuration space, masks and pending bits as after its reset (R376). -/
def FnSt.cleared (x : FnSt) : FnSt := { x with fnMask := false, vecMask := 0xFFFFFFFF, pend := 0, sig := 0, cfg := [], msixTbl := [] }

/-- FLR (R376): a function level reset of VF `v`: its configuration space, vectors and pending bits are reset, and its GEN advances in class 4; a
locked VF returns to CONFIG_UNLOCKED; the slice it presents is reset. -/
def State.flr (s : State) (v : Nat) : State :=
  if !s.exists v || v = pf0 then s
  else
    let s := s.modFn v (fun x => if x.bound then { x.cleared with tdisp := .unlocked, flrGen := x.nextGen } else x.cleared)
    match s.presents v with
    | some sl => ((s.modFn v (fun x => { x with reset := true })).raise ⟨4, some sl, Sub.hfp, .sliceReset sl 2 none⟩)
    | none => ((s.raiseGens [v]).emit .signal [4, v] [])

/-- FLR. -/
def execFlr (v : Nat) (s : State) : Host.Outcome State Fault Refusal :=
  .next (s.gatedCfg 103 v 0 (fun s => s.flr v))

/-- PF0_FLR (R377): VF Enable and NumVFs are cleared, PF0's GEN and that of every VF taken to ERROR advance in class 4 (R380), and
LLY_IRQ_EN is cleared (26 R557). -/
def State.pf0Flr (s : State) : State :=
  let fns := pf0 :: s.boundVfs
  let s := { s with hfp := { s.hfp with vfEnable := false, numVfs := 0 } }.tdispErrors
  let s := (s.modFn pf0 FnSt.cleared).wr R.irqEn 0
  ((s.raiseGens fns).emit .signal [4, pf0] [])

/-- PF0_FLR. -/
def execPf0Flr (s : State) : Host.Outcome State Fault Refusal :=
  .next (s.gatedCfg 104 0 0 (fun s => s.pf0Flr))

/-! ## DOE discovery and readiness (R378, R382) -/

/-- DOE_DISCOVERY (R378): a DOE object of `len` bytes asks for protocol `index`: the supported protocols are Discovery, CMA/SPDM and Secured
CMA/SPDM; an object longer than 4 KiB is answered with the DOE error bit and discarded. -/
def execDoeDiscovery (index len : Nat) (s : State) : Host.Outcome State Fault Refusal :=
  if !s.hfp.cfgReady then .next s
  else if 4096 < len then .next (s.emit .doe [1] [])
  else if index < 3 then .next (s.emit .doe [0, index, if index = 2 then 0 else index + 1] [])
  else .next (s.emit .doe [0, 0xFF, 0] [])

/-- CFG_READY (R382): configuration space becomes answered. -/
def execCfgReady (s : State) : Host.Outcome State Fault Refusal :=
  if s.inReset then .next s
  else .next { s with hfp := { s.hfp with cfgReady := true } }

end Sys2Proof.Machine
end

