-- ==== Sys2Proof/Machine/Fuses.lean ====
section
/-! DEFINITION. The fuse macro (25 R543), the lifecycle state it decides (16 R352–R356), and the alias key (15 R336). -/

namespace Sys2Proof.Machine

/-! ## Fuses -/

/-- A fuse row (25 R543). -/
def State.otpRow (s : State) (r : Nat) : Nat := (tget (dflt 0) s.lc.otp r).toNat

/-- One fuse bit burnt: fuses only ever burn forward. -/
def State.burnBit (s : State) (r b : Nat) : State :=
  { s with lc := { s.lc with otp := tset (dflt 0) s.lc.otp r (BitVec.ofNat 64 (s.otpRow r ||| 2 ^ b)) } }

/-- The encoding of state index `i` (R353). -/
def lcWord (i : Nat) : Nat := 2 ^ (3 * i) - 1

/-- The index a valid copy holds (R353). -/
def lcIndex (w : Nat) : Option Nat := (List.range 21).find? (fun i => lcWord i == w)

/-- The sensing of R354: the effective index, LOCKDOWN, TORN, and a resumable target. -/
def lcSense (a b c : Nat) : Nat × Bool × Bool × Option Nat :=
  let v := [a, b, c].map lcIndex
  let torn := v.any Option.isNone || a != b || b != c
  let pairs := [(a, b), (a, c), (b, c)]
  match pairs.find? (fun p => p.1 == p.2 && (lcIndex p.1).isSome) with
  | some p => ((lcIndex p.1).getD 0, false, torn, none)
  | none =>
    let try' := fun (x y t : Nat) =>
      match lcIndex x, lcIndex y, lcIndex t with
      | some i, some j, none =>
        let lo := min i j
        let hi := max i j
        if t &&& lcWord lo = lcWord lo && t &&& lcWord hi = t then some (lo, hi) else none
      | _, _, _ => none
    match [try' a b c, try' a c b, try' b c a].find? Option.isSome with
    | some (some (lo, hi)) => (lo, false, true, some hi)
    | _ => (0, true, torn, none)

/-- The lifecycle copies are sensed and the effective state decided (R354), at every cold and warm reset. -/
def State.senseLc (s : State) : State :=
  let r := lcSense (s.otpRow 0) (s.otpRow 1) (s.otpRow 2)
  { s with lc := { s.lc with idx := r.1, lockdown := r.2.1, torn := r.2.2.1, resume := r.2.2.2.isSome, target := r.2.2.2.getD 0,
                             pending := false, gone := false, debug := false, verify := none } }

/-! ## Tokens (R355, R356) -/

/-- A fused token slot. -/
def State.tokFused (s : State) (k : Nat) : Bool := decide (2 ≤ popc (s.otpRow (3 + 3 * k)) 3)

/-- A slot with a CONSUMED bit set. -/
def State.tokSpent (s : State) (k : Nat) : Bool := bits (s.otpRow (3 + 3 * k)) 5 3 != 0

/-- Slots fused, consumed and remaining (R355). -/
def State.tokens (s : State) : Nat × Nat × Nat :=
  let n := fun (p : Nat → Bool) => ((List.range 8).filter p).length
  (n s.tokFused, n (fun k => s.tokFused k && s.tokSpent k), n (fun k => s.tokFused k && !s.tokSpent k))

/-- The lifecycle-token identity of 12 R278 fails when a slot that is not fused has a CONSUMED bit (R355). -/
def State.tokenBad (s : State) : Bool := (List.range 8).any (fun k => !s.tokFused k && s.tokSpent k)

/-- The digest a slot holds: its first 16 bytes of SHA-384 over the unlock value (R355). -/
def State.tokDigest (s : State) (k : Nat) : List Byte := leBytes 8 (s.otpRow (4 + 3 * k)) ++ leBytes 8 (s.otpRow (5 + 3 * k))

/-! ## What the state allows -/

/-- Byte 3 of MODE, the fuse-write lock (R352). -/
def State.fuseLock (s : State) : Nat := if s.lc.lockdown || 17 ≤ s.lc.idx then 1 else 0

/-- The 8-byte device mode MODE (15 R340, R352). -/
def State.modeBytes (s : State) : List Byte :=
  [BitVec.ofNat 8 s.lcCode, if s.debugOpen then 1 else 0, BitVec.ofNat 8 s.tokens.2.2, BitVec.ofNat 8 s.fuseLock, 0, 0, 0, 0]

/-- The LC class of the effective state (R328, R352); SCRAP and LOCKDOWN derive no key. -/
def State.lcClassOf (s : State) : Nat := if s.lc.idx ≤ 16 then 0 else s.lc.idx - 16

/-! ## The alias key -/

/-- The digests of the running image, in the order of its header (21 R456): 0 control, 1 vault, 2 compute-die microcode; zero bytes while none is
loaded. -/
def State.dgOf (s : State) (k : Nat) : List Byte :=
  match s.ccx.active with | some i => slice i.digests (48 * k) 48 | none => zeros 48

/-- DEVICE_ID (15 R334): the first 16 bytes of SHA-384 of the DeviceID public key; zeros until it is held. -/
def State.deviceId (s : State) : List Byte := if s.vlt.known then slice (sha384 s.vlt.devPub) 0 16 else zeros 16

/-- The package fingerprint (15 R334): the first 4 bytes of the same digest. -/
def State.packageFp (s : State) : Nat := fieldAt s.deviceId 0 4

/-- The taproot (15 R328, 25 R544): fuse rows 27–30. -/
def State.taproot (s : State) : List Byte := (List.range 4).flatMap (fun k => leBytes 8 (s.otpRow (27 + k)))

/-- SHA-384 of the boot ROM. -/
def dgBootrom : List Byte := sha384 Config.bootRom

/-- The DeviceID private key (15 R327, R328). -/
def State.deviceKey (s : State) : Nat := privKey (kdf s.vlt.cdi0 "LLY-DEVID" [] 512)

/-- The binding private key (15 R328). -/
def State.bindingKey (s : State) : Nat := privKey (kdf s.vlt.cdi1 "LLY-BIND" [] 512)

/-- The alias private key (15 R328). -/
def State.aliasKey (s : State) : Nat := privKey (kdf s.vlt.cdi2 "LLY-ALIAS" [] 512)

/-- A certificate the vault issues (15 R335): DER text for the given kind and contents, signed by the DeviceID key with a fresh per-message secret. -/
def State.issueCert (s : State) (kind : Nat) (contents : List Byte) : List Byte :=
  let tbs := Config.certText kind contents
  Config.certForm tbs (ecdsaSign s.deviceKey (Config.random s.draws 64) tbs)

/-- The start of the vault (15 R328): CDI_0, CDI_1, the DeviceID and binding keys, and at a cold start a fresh boot nonce with K_MEM under it. -/
def State.deriveIdentity (s : State) : State :=
  let cdi0 := kdf s.taproot "LLY-CDI0" dgBootrom 384
  let cdi1 := kdf cdi0 "LLY-CDI1" (leBytes 2 s.vlt.svnVault ++ leBytes 1 s.lcClassOf) 384
  let nb := if s.vlt.kmem.isEmpty then slice (Config.random s.draws 32) 0 32 else s.vlt.nb
  let kmem := if s.vlt.kmem.isEmpty then kdf cdi0 "LLY-KMEM" nb 256 else s.vlt.kmem
  let s := { s with vlt := { s.vlt with lcClass := s.lcClassOf, st := 2, cdi0 := cdi0, cdi1 := cdi1, nb := nb, kmem := kmem, known := true } }.drawn
  let s := { s with vlt := { s.vlt with devPub := pubKey s.deviceKey } }
  { s with vlt := { s.vlt with bindCert := s.issueCert 1 (pubKey s.bindingKey ++ leBytes 2 s.vlt.svnVault ++ leBytes 1 s.lcClassOf) } }.drawn

/-- CDI_2, the alias key and its certificate are derived (again) for the image and the state in force (15 R328, R335, R336, 16 R365). The
certificate's signature needs fresh randomness, so without DRBG output the derivation waits and no alias key is held (15 R324). -/
def State.deriveAlias (s : State) : State :=
  if s.vlt.drbgStopped then { s with vlt := { s.vlt with st := 2, cdi2 := [], aliasCert := [] } }
  else
    let tcb := s.dgOf 1 ++ s.dgOf 0 ++ s.dgOf 2
    let s := { s with vlt := { s.vlt with st := 3, cdi2 := kdf s.vlt.cdi1 "LLY-CDI2" (tcb ++ s.modeBytes) 384 } }
    let info := pubKey s.aliasKey ++ tcb ++ leBytes 2 s.vlt.svnVault ++ leBytes 2 s.vlt.svnControl ++ s.modeBytes
    { s with vlt := { s.vlt with aliasCert := s.issueCert 0 info } }.drawn

/-- Whether an alias key exists. -/
def State.aliasUp (s : State) : Bool := s.vlt.st == 3

end Sys2Proof.Machine
end

