-- ==== Sys2Proof/Machine/ImageBind.lean ====
section
/-! DEFINITION. Binding a base image (15 R349–R351, 19 R423, R424): the bind's own banks, the loader, and how a bind ends. -/

namespace Sys2Proof.Machine

/-- A bank an image bind has loaded (19 R424). -/
def Bank.isBind (b : Bank) : Bool := !b.seals.isEmpty || b.recs.any (fun r => r.op == .bindImage || r.op == .dropImage)

/-- Fields of the image header (R349). -/
def ihBaseId (h : List Byte) : Nat := fieldAt h 0x08 8
def ihVer (h : List Byte) : Nat := fieldAt h 0x10 4
def ihGrains (h : List Byte) : Nat := fieldAt h 0x14 4
def ihTiles (h : List Byte) : Nat := fieldAt h 0x18 4
def ihSpares (h : List Byte) : Nat := fieldAt h 0x1C 4
def ihCrc (h : List Byte) : Nat := fieldAt h 0x20 8
def ihScale (h : List Byte) : Nat := fieldAt h 0x28 8
def ihExpert (h : List Byte) : Nat := fieldAt h 0x30 8

/-- Bytes of a grain. -/
def grainBytes : Nat := 2097152

/-- The byte mask of a write of a whole grain. -/
def wholeGrain : Nat := 2 ^ grainBytes - 1

/-- The 128-byte header of an image, as the vault measures it (R340). -/
def ImageE.header (im : ImageE) : List Byte :=
  leBytes 4 0x4D49594C ++ leBytes 4 1 ++ leBytes 8 im.baseId ++ leBytes 4 im.ver ++ leBytes 4 im.ngrains ++ leBytes 4 im.ntiles
    ++ leBytes 4 im.spares.length ++ leBytes 8 im.crcBase ++ leBytes 8 im.scaleBase ++ leBytes 8 im.expertBase ++ List.replicate 72 0

/-- Grains that all images hold together, both copies counted (03 R65). -/
def State.imageGrains (s : State) : Nat :=
  lsum ((List.range 4).map (fun i => (s.image i).grains0.length + (s.image i).grains1.length))

/-- The header's checks (R349, R129, 03 R65), in field order (00 R559); the conditions that join several fields are judged at the last. -/
def State.headerCheck (s : State) (h : List Byte) (mirrored : Bool) : List (Bool × Nat × Nat) :=
  let n := ihGrains h
  let size := n * grainBytes
  let t := ihTiles h
  let crcEnd := ihCrc h + 8 * t
  let scaleEnd := ihScale h + t
  let xEnd := ihExpert h + 16 * ihSpares h
  let x := ihSpares h != 0
  let apart := fun (a b c d : Nat) => decide (b ≤ c) || decide (d ≤ a)
  let rs := if bits (fieldAt h 4 1) 7 4 != 0 then some 4 else rsvdAt h [(5, 8), (0x38, 0x80)]
  [(fieldAt h 4 1 % 16 != 1, Status.badVersion, 0x0301),
   (rs.isSome, Status.rsvd, rs.getD 0),
   (fieldAt h 0 4 != 0x4D49594C, Status.badField, dtl 0 0),
   (ihBaseId h == 0, Status.badField, dtl 0x08 0),
   (ihVer h == 0, Status.badField, dtl 0x10 0),
   (n == 0 || decide (65536 < s.imageGrains + (if mirrored then 2 * n else n)), Status.badField, dtl 0x14 0),
   (t == 0, Status.badField, dtl 0x18 0),
   (ihCrc h % 8 != 0 || decide (size < crcEnd), Status.badField, dtl 0x20 0),
   (decide (size < scaleEnd) || !apart (ihCrc h) crcEnd (ihScale h) scaleEnd, Status.badField, dtl 0x28 0),
   (x && (ihExpert h % 16 != 0 || decide (size < xEnd) || !apart (ihCrc h) crcEnd (ihExpert h) xEnd
      || !apart (ihScale h) scaleEnd (ihExpert h) xEnd), Status.badField, dtl 0x30 0)]

/-- A bind fails (R351): its command ends, its content key is zeroised, and the grains it holds are given back by a commit of its own; with no
grain held the image number is free at once. -/
def State.bindFail (s : State) (status detail : Nat) : State :=
  match s.vlt.binding with
  | none => s
  | some b =>
    let s := s.finish b.cmd status detail []
    let s := [0, 1].foldl (fun s k =>
      if (s.bank k).isBind && ((s.bank k).st == .checking || (s.bank k).st == .waitBlank) then s.setBank k Bank.init else s) s
    let held := !(s.image b.image).grains0.isEmpty || (s.bank 0).isBind || (s.bank 1).isBind
    let s := s.dropAccs (fun a => a.use == .image)
    let b' : Bind := { b with key := 0, cmd := none, failing := some (status, detail) }
    let s := { s with vlt := { s.vlt with binding := if held then some b' else none } }
    if held then s else { s with bnd := { s.bnd with images := tset (dflt ImageE.init) s.bnd.images b.image ImageE.init } }

/-- A bank loaded and armed by a bind at once (19 R424): no named stamp, no touch of the administrator's items. -/
def State.armBind (s : State) (b : Nat) (recs : List GrainChg) (seals : List Nat) (cmd : Option CmdRef) : State :=
  let k : Bank := { Bank.init with st := .checking, recs := recs, seals := seals, since := s.spn.tick, cmd := cmd }
  let s := s.setBank b k
  { s with chk := { s.chk with load := 1 - b } }

/-- An EMPTY bank, while none is armed. The loading bank is the last choice. -/
def State.freeBank (s : State) : Option Nat :=
  if s.armed.isSome || s.lc.gone || s.src.deep != 0 then none
  else [1 - s.chk.load, s.chk.load].find? (fun b => (s.bank b).st == .empty)

/-- Phase 3 (R351, 19 R424): blanks are asked for by count, BASE_SEALED, copy 0 of a MIRRORED image on stacks 0–3 and copy 1 on stacks 4–7. -/
def State.bindGrains (s : State) : State :=
  match s.vlt.binding with
  | none => s
  | some b =>
    let n := ihGrains b.header
    let r := fun (copy mask : Nat) => (⟨0xFF, .bindImage, 0, .baseSealed, 0, mask, n, b.image, copy, 0⟩ : GrainChg)
    match s.freeBank with
    | none => s.bindFail Status.busyRetry 0
    | some k =>
      let h := b.header
      let im : ImageE := { ImageE.init with
        mirrored := b.mirrored, baseId := ihBaseId h, ver := ihVer h, ngrains := n, ntiles := ihTiles h,
        crcBase := ihCrc h, scaleBase := ihScale h, expertBase := ihExpert h }
      let s := { s with bnd := { s.bnd with images := tset (dflt ImageE.init) s.bnd.images b.image im },
                        vlt := { s.vlt with binding := some { b with phase := 3 } } }
      s.armBind k (if b.mirrored then [r 0 0x0F, r 1 0xF0] else [r 0 0xFF]) [] b.cmd

/-- The order in which the loader reads the records (R351): the grains of the checksum table first, then the rest, ascending. -/
def loadOrder (h : List Byte) : List Nat :=
  let n := ihGrains h
  let inTable := fun (g : Nat) => decide (ihCrc h < (g + 1) * grainBytes) && decide (g * grainBytes < ihCrc h + 8 * ihTiles h)
  (List.range n).filter inTable ++ (List.range n).filter (fun g => !inTable g)

/-- The next record of the container is read from host memory (R350). -/
def State.readRecord (s : State) : State :=
  match s.vlt.binding with
  | none => s
  | some b =>
    match (loadOrder b.header)[b.next]? with
    | none => s
    | some g => s.hostRead .image 0xFF g 0 pf0 (s.fn pf0).gen (b.addr + 128 + (grainBytes + 16) * g) (grainBytes + 16)

/-- The IV of record `g` (R350): g₃₂ ‖ VER₃₂ ‖ 4 zero bytes. -/
def recordIv (g ver : Nat) : List Byte := leBytes 4 g ++ leBytes 4 ver ++ zeros 4

/-- Whether the Binder passes the loader's write of grain `gr` (03 R60, R65). -/
def State.loaderMay (s : State) (gr : Nat) : Bool :=
  match s.filter .img 0xFF 0 0 (gr * grainBytes) grainBytes false true with | .pass _ => true | .deny _ => false

/-- A decrypted record written to copy `c` under KeyID 0 as class IMG, and noted as written where the Binder passes it. -/
def State.writeRecord (s : State) (b : Bind) (g c : Nat) (plain : List Byte) : State × Bind :=
  match (s.image b.image).at c g with
  | none => (s, b)
  | some gr =>
    (s.decideRequest (2 ^ 50 + 2 * g + c) .img 0xFF 0 0 (gr * grainBytes) grainBytes true wholeGrain plain (s.now 0),
     if s.loaderMay gr then { b with wrote := b.wrote ++ [65536 * c + g] } else b)

/-- A record has arrived, or the host refused it (R350, R351, 00 R405): its tag is verified under the content key, with the header as additional
data, and it is decrypted and written to every copy. -/
def State.recordIn (s : State) (g : Nat) (d : Option (List Byte)) : State :=
  match s.vlt.binding with
  | none => s
  | some b =>
    if b.phase != 4 || b.failing.isSome then s
    else match d with
      | none => s.bindFail Status.badField (dtl 0x10 0)
      | some r =>
        match gcmOpen (leBytes 32 b.key) (recordIv g (ihVer b.header)) b.header (r.take grainBytes) (slice r grainBytes 16) with
        | none => s.bindFail Status.checkFailed (2 ^ 31 + g)
        | some plain =>
          let w := s.writeRecord b g 0 plain
          let w := if (s.image b.image).mirrored then w.1.writeRecord w.2 g 1 plain else w
          let b' : Bind := { w.2 with next := b.next + 1, loaded := b.loaded + 1, plain := tset (dflt []) w.2.plain g plain }
          { w.1 with vlt := { w.1.vlt with binding := some b' } }.readRecord

/-- A byte of the image as decrypted, and `n` of them. -/
def Bind.byte (b : Bind) (i : Nat) : Byte := (tget (dflt []) b.plain (i / grainBytes)).getD (i % grainBytes) 0
def Bind.bytes (b : Bind) (i n : Nat) : List Byte := (List.range n).map (fun k => b.byte (i + k))

/-- The image byte at which tile `tix` begins: the spec gives no rule that places a tile from its index (assumption log 84), so it is free. -/
def Bind.tilePlace (b : Bind) (tix : Nat) : Nat := Config.freeNat 20 [tix, leNat b.header]

/-- The checksum entry of a tile (06 R128, R129). -/
def Bind.entry (b : Bind) (tix : Nat) : List Byte := b.bytes (ihCrc b.header + 8 * tix) 8

/-- Whether a tile matches its entry (06 R127, R128, R130). -/
def Bind.tileOk (b : Bind) (tix : Nat) : Bool :=
  let e := b.entry tix
  let fmt := fieldAt e 4 4
  1 ≤ fmt && decide (fmt ≤ 6) && tileCrc (b.bytes (b.tilePlace tix) (tileBytes fmt)) tix (ihVer b.header) 0 == fieldAt e 0 4

/-- The first tile that fails its check (06 R130). -/
def Bind.firstBad (b : Bind) : Option Nat := (List.range (ihTiles b.header)).find? (fun t => !b.tileOk t)

/-- Whether every element byte of a tile is zero (R349). -/
def Bind.tileZero (b : Bind) (tix : Nat) : Bool := (b.bytes (b.tilePlace tix) (elemBytes (fieldAt (b.entry tix) 4 4))).all (· == 0)

/-- An entry of the spare expert table as loaded: 16 bytes (R349). -/
def Bind.spareBytes (b : Bind) (i : Nat) : List Byte := b.bytes (ihExpert b.header + 16 * i) 16

/-- An entry decoded (R349). -/
def spareAt (d : List Byte) : Spare := ⟨fieldAt d 0 2, fieldAt d 2 1, fieldAt d 4 4, fieldAt d 8 4⟩

/-- The spare table's own check (R349): spare index 0–15, reserved bytes zero, the range below NTILES and its tiles' elements zero. -/
def Bind.spareBad (b : Bind) (d : List Byte) : Bool :=
  let e := spareAt d
  decide (15 < e.spare) || fieldAt d 3 1 != 0 || fieldAt d 12 4 != 0 || decide (ihTiles b.header < e.first + e.tiles)
    || (List.range e.tiles).any (fun k => !b.tileZero (e.first + k))

/-- What a bind's commit has brought about at its effective tick `t` (R351): phase 3 leads to the load, phase 5 ends the bind, a failed bind's
commit frees the image number. -/
def State.bindCommitted (s : State) (k : Bank) (t : Nat) : State :=
  match s.vlt.binding with
  | none => s
  | some b =>
    if k.recs.any (fun r => r.op == .bindImage) then
      (if b.failing.isSome then s
       else { s with vlt := { s.vlt with binding := some { b with phase := 4, next := 0, loaded := 0 } } }.readRecord)
    else if k.recs.any (fun r => r.op == .dropImage) then { s with vlt := { s.vlt with binding := none } }
    else
      let s := { s with vlt := { s.vlt with binding := none } }
      s.finish b.cmd Status.ok 0 (leBytes 8 t ++ leBytes 4 (ihGrains b.header))

/-- A seal, or the taking back of a failed bind's grains, waits until one bank is EMPTY and none is armed (19 R424). -/
def State.pumpBind (s : State) : State :=
  match s.vlt.binding with
  | none => s
  | some b =>
    if (s.bank 0).isBind || (s.bank 1).isBind then s
    else match s.freeBank with
      | none => s
      | some k =>
        if b.failing.isSome then s.armBind k [⟨0xFF, .dropImage, 0, .baseSealed, 0, 0, 0, b.image, 0, 0⟩] [] none
        else if b.phase = 5 then s.armBind k [] [b.image] b.cmd
        else s

end Sys2Proof.Machine
end

