-- ==== Sys2Proof/Machine/Chuck.lean ====
section
/-! DEFINITION. The Chuck (04): staging banks, consistency checks, the commit sequence, and what a commit does at its effective tick. -/

namespace Sys2Proof.Machine

/-! ## The device after a bank commits -/

/-- The lowest-indexed blanks on the stacks of a mask, `n` of them (R83). -/
def State.blanksOn (s : State) (mask n : Nat) : List Nat :=
  ((maskList mask 8).flatMap (fun k => (List.range stackGrains).filterMap (fun i =>
    let g := k * stackGrains + i
    if (s.grain g).st == .blank then some g else none))).take n

/-- Records whose grains are taken by count from the blanks of a stack mask at the commit stamp (R83). -/
def GrainChg.byCount (r : GrainChg) : Bool := r.op == .giveAny || r.op == .bindImage

/-- How many blanks stand on the stacks of a mask. -/
def State.blankCount (s : State) (mask : Nat) : Nat :=
  lsum ((maskList mask 8).map (fun k => stackGrains - (s.bnd.gt.filter (fun e => stackOf e.1 == k && e.2.st != .blank)).length))

/-- Records by count served in order from the blanks left on each stack, lowest stack first: what each of them lacks. -/
def shortages : List Nat → List GrainChg → List (GrainChg × Nat)
  | _, [] => []
  | left, r :: rest =>
    let step := (List.range 8).foldl (fun (a : List Nat × Nat) k =>
      let have' := if bit r.onStacks k then min (left.getD k 0) a.2 else 0
      (a.1 ++ [left.getD k 0 - have'], a.2 - have')) ([], r.count)
    (r, step.2) :: shortages step.1 rest

/-- What each record by count of a bank lacks now: blanks the bank names are not taken by count. -/
def State.shortagesOf (s : State) (b : Bank) : List (GrainChg × Nat) :=
  let named := (b.named' .give).filter (fun g => (s.grain g).st == .blank)
  shortages ((List.range 8).map (fun k => s.blankCount (2 ^ k) - (named.filter (fun g => stackOf g == k)).length)) (b.recs.filter GrainChg.byCount)

/-- A definition in the bank for a slice, or the one in effect unless the bank destroys it. -/
def State.defAfter (s : State) (b : Bank) (n : Nat) : Option SliceDef :=
  match b.defs.find? (fun d => d.slice == n) with
  | some d => some d
  | none => if b.destroys.contains n then none else s.sdef n

/-- A grain a record gives (R54, R415). -/
def GrainChg.given (r : GrainChg) (keyid i : Nat) : GrainE :=
  match r.op with
  | .bindImage => ⟨.owned, true, .baseSealed, false, 0xFF, 0, 0, r.image, r.copy, r.igrain + i⟩
  | _ => ⟨.owned, false, r.attr, false, r.slice, keyid, if r.attr == .sharedRo then r.shgrp else 0, 0, 0, 0⟩

/-- One grain change record applied. -/
def State.applyRec (s : State) (b : Bank) (r : GrainChg) : State :=
  let kid := match s.defAfter b r.slice with | some d => d.keyid | none => 0
  let give := fun (s : State) (gs : List Nat) =>
    (List.range gs.length).foldl (fun s i =>
      let g := gs.getD i 0
      let s := s.modGrain g (fun _ => r.given kid i)
      { s with bnd := { s.bnd with poisonings := tset (dflt 0) s.bnd.poisonings g 0 } }) s
  let range := (List.range r.count).map (fun i => r.grain + i)
  match r.op with
  | .give => give s range
  | .giveAny => give s (s.blanksOn r.onStacks r.count)
  | .bindImage =>
    let gs := s.blanksOn r.onStacks r.count
    let s := give s gs
    let im := s.image r.image
    let im := if r.copy = 0 then { im with grains0 := gs } else { im with grains1 := gs }
    { s with bnd := { s.bnd with images := tset (dflt ImageE.init) s.bnd.images r.image im } }
  | .dropImage =>
    let im := s.image r.image
    let s := (im.grains0 ++ im.grains1).foldl (fun s g => s.modGrain g (fun e => if e.attr == .baseSealed && e.st == .owned then e.taken else e)) s
    { s with bnd := { s.bnd with images := tset (dflt ImageE.init) s.bnd.images r.image ImageE.init } }
  | .take => range.foldl (fun s g => s.modGrain g GrainE.taken) s
  | .setAttr => range.foldl (fun s g => s.modGrain g (fun e => { e with attr := r.attr, shgrp := if r.attr == .sharedRo then r.shgrp else 0 })) s

/-- The partition, grain table and register values as they stand after a bank commits (R88): what the checks judge. -/
def State.applyBank (s : State) (b : Bank) : State :=
  let s := b.rws.foldl (fun s e => s.wr e.1 (e.2 + (s.rd e.1 &&& w1cMask e.1))) s
  let gone := b.destroys.flatMap (fun n => s.grainsWhere (fun e => e.st == .owned && e.owner == n))
  let s := gone.foldl (fun s g => s.modGrain g GrainE.taken) s
  let s := (b.recs.filter (fun r => !r.byCount) ++ b.recs.filter GrainChg.byCount).foldl (fun s r => s.applyRec b r) s
  let s := b.seals.foldl (fun s i =>
    let im := s.image i
    let s := (im.grains0 ++ im.grains1).foldl (fun s g => s.modGrain g (fun e => if e.attr == .baseSealed then { e with sealed := true } else e)) s
    { s with bnd := { s.bnd with images := tset (dflt ImageE.init) s.bnd.images i { im with sealed := true, bound := true } } }) s
  let defs := b.destroys.foldl (fun t n => tset (dflt none) t n none) s.bnd.defs
  let defs := b.defs.foldl (fun t d => tset (dflt none) t d.slice (some d)) defs
  { s with bnd := { s.bnd with defs := defs } }

/-- The fields of a slice's statement (03 R72) that a commit or a base-copy move can change. -/
def State.stmtFields (s : State) (n : Nat) : List Nat :=
  match s.sdef n with
  | none => []
  | some d =>
    let own := fun a => (s.ownedOf n a).length
    [d.clusters, d.stackSet, own .priv, own .pod, own .save, own .sharedRo,
     (s.grainsWhere (fun e => e.st == .poison && e.owner == n)).length,
     d.memRes, d.latTarget, d.foldShare, d.fabMask, d.fabRes, d.fsliceId, d.imageGrant, d.vf, d.keyid, (s.key d.keyid).dix,
     s.rd R.chkMode % 2] ++ (maskList d.imageGrant 4).map (fun i => s.copyShown (s.image i) d.baseCopy)

/-- Phase of the image bind in progress, 0 for none (15 R351). -/
def State.bindPhase (s : State) : Nat := match s.vlt.binding with | some b => b.phase | none => 0

/-! ## Consistency checks (R81) -/

/-- A failed check: its number, status, the slice concerned and the grain named. -/
structure CheckFail where
  num : Nat
  status : Nat
  slice : Nat
  grain : Nat
deriving DecidableEq, Repr

/-- The grains a bank's records name, with repeats. -/
def Bank.allNamed (b : Bank) : List Nat :=
  (b.recs.filter (fun r => r.op == .give || r.op == .take || r.op == .setAttr)).flatMap (fun r => (List.range r.count).map (fun i => r.grain + i))

/-- The slices with a definition, a destruction or a grain record in the bank. -/
def Bank.slicesIn (b : Bank) : List Nat :=
  b.defs.map SliceDef.slice ++ b.destroys ++ (b.recs.filter (fun r => r.op != .bindImage && r.op != .dropImage)).map GrainChg.slice

/-- The slices a bank touches by their clusters, grains and definitions (R37, check 1). -/
def State.touched (s : State) (b : Bank) : List Nat :=
  b.slicesIn ++ (b.departing s).map Prod.fst
    ++ (b.allNamed.filterMap (fun g => let e := s.grain g
        if e.owner < 64 && e.st != .blank then some e.owner else none))

/-- The fabric ports a definition change touches: those of the slice's FAB_MASK as it stands and as the bank leaves it. -/
def State.defPorts (s : State) (b : Bank) (n : Nat) : List Nat :=
  let mask := fun (d : Option SliceDef) => (d.map SliceDef.fabMask).getD 0
  maskList (mask (s.sdef n) ||| mask (s.defAfter b n)) 8

/-- The fabric ports a staged register touches: the port's own configuration, its channels, the pairs of the bypass, the alignment parent. -/
def State.regPorts (s : State) (e : Nat × Nat) : List Nat :=
  let (a, v) := e
  if R.fpcCfg ≤ a ∧ a < R.fpcCfg + 32 then [(a - R.fpcCfg) / 4]
  else if R.tplCh ≤ a ∧ a < R.tplCh + 256 then [(a - R.tplCh) / 32]
  else if a = R.fpcByp then (List.range 8).filter (fun p => bit v (p / 2) != bit (s.rd a) (p / 2))
  else if a = R.spnAlignCfg then
    (if bit v 0 && !bit v 1 && bits v 7 4 < 8 then [bits v 7 4] else []) ++ (if bits (s.rd a) 7 4 < 8 then [bits (s.rd a) 7 4] else [])
  else []

/-- The fabric ports a bank touches (R37, check 1): by the definitions it changes or destroys, and by the registers it stages. -/
def State.portsOf (s : State) (b : Bank) : List Nat :=
  ascending ((b.defs.map SliceDef.slice ++ b.destroys).flatMap (s.defPorts b) ++ (b.rws.filter (fun e => e.2 != s.rd e.1)).flatMap s.regPorts)

/-- The clusters a bank touches: those that leave a slice and those that come to one. -/
def State.clustersIn (s : State) (b : Bank) : List Nat :=
  (b.departing s).map Prod.snd ++ b.defs.flatMap (fun d => (maskList d.clusters 64).filter (fun c => !bit ((s.sdef d.slice).elim 0 SliceDef.clusters) c))

/-- The fault domain of an event: a die 0–3, a stack 4–11 or a fabric port 12–19 (22 R478). -/
def FaultEv.domain (e : FaultEv) : Option Nat :=
  if e.kind = 0x20 then some (e.da % 4) else if e.kind = 0x21 then some (4 + e.da % 8)
  else if e.kind = 0x22 || e.kind = 0x30 then some (12 + e.da % 8) else none

/-- Whether a slice in fault handling or an abort fails a bank that touches what is its: not where the bank destroys it while it is held (check 1). -/
def State.faulty (s : State) (b : Bank) (n : Nat) : Bool :=
  (s.inFault n || (tget (dflt none) s.fpc.abortAt n).isSome) && !((s.fsl n).phase == .held && b.destroys.contains n)

/-- Whether a bank touches what the fault of slice `n` holds beside the slice itself: a die, stack or port of its domain, or a cluster being reset (check 1). -/
def State.meetsFault (s : State) (b : Bank) (n : Nat) : Bool :=
  let cl := s.clustersIn b
  cl.any (fun c => (s.fsl n).inReset.contains c) ||
    (match (s.fsl n).primary.bind FaultEv.domain with
     | none => false
     | some d => if d < 4 then cl.any (fun c => c / 16 == d) else if d < 12 then b.allNamed.any (fun g => stackOf g == d - 4)
                 else (s.portsOf b).contains (d - 12))

/-- First of a list for which a test names a failure. -/
def firstFail {α : Type} (l : List α) (f : α → Option CheckFail) : Option CheckFail := l.findSome? f

/-- The first failure of a list of checks. -/
def orElse' (a b : Option CheckFail) : Option CheckFail := match a with | some x => some x | none => b

/-- DETAIL of a failed check (19 R407): check, slice and grain packed; check 1 names the slice, check 5 the KeyID. -/
def CheckFail.detail (f : CheckFail) (k : Bank) : Nat :=
  if f.status = Status.faulted then f.slice
  else if f.status = Status.keyspace then (match k.defs.find? (fun d => d.slice == f.slice) with | some d => d.keyid | none => 0)
  else f.num + 32 * (f.slice % 64) + 2048 * f.grain

/-- The consistency checks of R81 in table order; `stamp` adds check 27. A slice that continues keeps its VF, which moves only once its slice is destroyed (R90: judged by
check 3, DEDUCED, log 69). Check 11 names the grain's owner as the slice (DESIGN CHOICE, log 70: two records may name two slices); a SET_ATTR to SHARED_RO of a POD or SAVE
grain is taken as of a PRIVATE one (DESIGN CHOICE, log 71: 03 R68 speaks of PRIVATE grains). -/
def State.checkBank (s : State) (b : Bank) (stamp : Bool) : Option CheckFail :=
  let s' := s.applyBank b
  let cf := fun (n sl g : Nat) => (some ⟨n, Status.checkFailed, sl, g⟩ : Option CheckFail)
  let defs := s'.slices
  let two := fun (p : SliceDef → SliceDef → Bool) (num : Nat) =>
    firstFail defs (fun d => if defs.any (fun e => d.slice < e.slice && p d e) then cf num d.slice 0 else none)
  let mine := ascending (b.slicesIn.filter (fun n => (s'.sdef n).isSome))
  let own := fun n => s'.grainsWhere (fun e => e.st == .owned && e.owner == n)
  let lack := s.shortagesOf b
  let lacks := fun (n : Nat) (p : GAttr → Bool) => lsum ((lack.filter (fun x => x.1.op == .giveAny && x.1.slice == n && p x.1.attr)).map Prod.snd)
  let checks : List (Option CheckFail) := [
    firstFail (s.touched b) (fun n => if s.faulty b n then some ⟨1, Status.faulted, n, 0⟩ else none),
    firstFail (List.range 64) (fun n => if s.faulty b n && s.meetsFault b n then some ⟨1, Status.faulted, n, 0⟩ else none),
    two (fun d e => d.clusters &&& e.clusters != 0) 2,
    two (fun d e => d.vf == e.vf) 3,
    firstFail b.defs (fun d => if !b.destroys.contains d.slice && (s.sdef d.slice).any (fun o => o.vf != d.vf) then cf 3 d.slice 0 else none),
    firstFail b.defs (fun d =>
      let k := s.key d.keyid
      if ((k.st == .active || k.st == .retiring) && k.owner != d.slice) || k.st == .retiring
        || defs.any (fun e => e.slice != d.slice && e.keyid == d.keyid) then cf 4 d.slice 0 else none),
    firstFail b.defs (fun d =>
      if (s.sdef d.slice).map SliceDef.keyid != some d.keyid && (s.key d.keyid).dix = 65535 && !b.derived.contains d.keyid
      then some ⟨5, Status.keyspace, d.slice, 0⟩ else none),
    firstFail b.recs (fun r =>
      if r.op == .take && (s'.sdef r.slice).isSome && (s.sdef r.slice).map SliceDef.keyid == (s'.sdef r.slice).map SliceDef.keyid
      then cf 6 r.slice 0 else none),
    firstFail b.defs (fun d =>
      if (tget (dflt none) s.mce.walks d.slice).isSome && (s.sdef d.slice).map SliceDef.keyid != some d.keyid
      then cf 7 d.slice 0 else none),
    firstFail mine (fun n => match s'.sdef n with
      | some d => if d.grains != (own n).length + lacks n (fun _ => true) then cf 8 n 0 else none
      | none => none),
    firstFail b.recs (fun r => if (r.op == .give || r.op == .giveAny) && (s'.sdef r.slice).isNone then cf 8 r.slice 0 else none),
    firstFail b.recs (fun r => firstFail ((List.range r.count).map (fun i => r.grain + i)) (fun g =>
      let e := s.grain g
      match r.op with
      | .give => if e.st == .blank || e.st == .dirty || e.st == .scrubbing then none else cf 9 r.slice g
      | .take | .setAttr => if e.st == .owned && e.owner == r.slice then none else cf 9 r.slice g
      | .giveAny | .bindImage | .dropImage => none)),
    firstFail b.recs (fun r => if r.op == .take && (s'.sdef r.slice).isSome then
      firstFail ((List.range r.count).map (fun i => r.grain + i)) (fun g => if (s.grain g).inUse then cf 10 r.slice g else none) else none),
    firstFail b.allNamed (fun g => if 1 < (b.allNamed.filter (· == g)).length then cf 11 (s.grain g).owner g else none),
    firstFail mine (fun n => match s'.sdef n with
      | some d => firstFail (own n) (fun g => if bit d.stackSet (stackOf g) then none else cf 12 n g)
      | none => none),
    firstFail b.recs (fun r => match s'.sdef r.slice with
      | some d => if r.op == .giveAny && (r.onStacks &&& d.stackSet) != r.onStacks then cf 12 r.slice 0 else none
      | none => none),
    firstFail mine (fun n => match s'.sdef n with
      | some d => if (s'.ownedOf n .save).length + lacks n (· == .save) < 60 * popc d.clusters 64 then cf 13 n 0 else none
      | none => none),
    firstFail mine (fun n => match s'.sdef n with
      | some d => if d.clusters = 0 && (!(s'.ownedOf n .pod).isEmpty || !(s'.ownedOf n .save).isEmpty || lacks n (fun a => a == .pod || a == .save) != 0
          || s.dpa.queues.any (fun e => e.1 / 4096 == n && (match e.2 with | some q => q.kind != .dma | none => false)))
        then cf 14 n 0 else none
      | none => none),
    (if lsum (defs.map SliceDef.memRes) + s'.prereserve > 19200 then cf 15 0 0 else none),
    firstFail (List.range 8) (fun k => if s'.placedAll k > 2400 - s'.prereserve / 8 then cf 16 0 0 else none),
    (if lsum (defs.map SliceDef.foldShare) > 256 then cf 17 0 0 else none),
    firstFail defs (fun d => if s'.ownOf 24 d.slice != d.foldShare then cf 17 d.slice 0 else none),
    firstFail (List.range 256) (fun p =>
      let o := s'.posOwner p
      if o != 0xFF && (64 ≤ o || (s'.sdef o).isNone) then cf 17 (if o < 64 then o else 0) 0 else none),
    firstFail (List.range 8) (fun p =>
      if lsum ((defs.filter (fun d => bit d.fabMask p)).map SliceDef.fabRes) > 64 then cf 18 0 0 else none),
    firstFail defs (fun d => if d.fabMask != 0 && (s.spn.align != .aligned
      || defs.any (fun e => e.slice != d.slice && e.fabMask != 0 && e.fsliceId == d.fsliceId)) then cf 19 d.slice 0 else none),
    firstFail defs (fun d => if (maskList d.imageGrant 4).any (fun i => !(s'.image i).bound) then cf 20 d.slice 0 else none),
    firstFail b.seals (fun i =>
      let im := s.image i
      firstFail (List.range im.ngrains) (fun k =>
        if !im.loaded.contains k then cf 21 0 ((im.at 0 k).getD 0)
        else if im.mirrored && !im.loaded.contains (65536 + k) then cf 21 0 ((im.at 1 k).getD 0) else none)),
    firstFail (b.recs.filter (fun r => r.op == .take || (r.op == .setAttr && r.attr == .priv))) (fun r =>
      firstFail ((List.range r.count).map (fun i => r.grain + i)) (fun g =>
        let e := s.grain g
        if e.attr == .sharedRo && (s'.shareMask e.shgrp) &&& (2 ^ 64 - 1 - 2 ^ (e.owner % 64)) != 0 then cf 22 r.slice g else none)),
    firstFail b.destroys (fun n => firstFail (s.ownedOf n .sharedRo) (fun g =>
      if s'.shareMask (s.grain g).shgrp &&& (2 ^ 64 - 1 - 2 ^ (n % 64)) != 0 then cf 22 n g else none)),
    (if bit (s'.rd R.chkMode) 1 && !(s'.grainsWhere (fun e => e.st == .owned && e.owner < 64)).isEmpty then cf 23 0 0 else none),
    (let c := s'.rd R.spnAlignCfg
     if bit c 0 && !bit c 1 && 8 ≤ bits c 7 4 then cf 24 0 0 else none),
    (let ph := s.bindPhase
     if 1 ≤ ph && ph ≤ 4 && !(List.range 64).any (fun g => s'.rf (R.tplHgrant + 4 * (g / 2)) (8 * (g % 2) + 7) (8 * (g % 2)) == 0xFF)
     then cf 25 0 0 else none),
    firstFail s.dpa.queues (fun e =>
      if e.2.isSome && s'.rf (R.dpaQquota + 4 * (e.1 / 4096)) 15 0 ≤ e.1 % 4096 && !b.destroys.contains (e.1 / 4096)
      then cf 26 (e.1 / 4096) 0 else none),
    (if stamp then firstFail lack (fun x => if x.2 != 0 then cf 27 x.1.slice 0 else none) else none)]
  checks.foldr orElse' none

/-- LLY_CHK_RESULT and LLY_CHK_RGRAIN written, with the COMMIT cause (26 R556). -/
def State.chkResult (s : State) (status num sl grain : Nat) : State :=
  ((s.wr R.chkResult (status + 256 * num + 65536 * (sl % 256))).wr R.chkRgrain grain).irq 1

/-! ## Staging (R77–R80) -/

/-- The loading bank receives an item: EMPTY and CHECKED become LOADING (R77). -/
def State.loading (s : State) (f : Bank → Bank) : State :=
  let b := s.bank s.chk.load
  s.setBank s.chk.load { f b with st := .loading }

/-- An RWS value placed in the loading bank (R77). -/
def State.stageReg (s : State) (a v : Nat) : State :=
  s.loading (fun b => { b with rws := tins (tdel b.rws a) a v })

/-- What an RWS field reads while LLY_CHK_CTRL.VIEW = 1: the value staged in a bank in LOADING or CHECKED, else the one in effect (R79). Where both banks
are, the loading bank's value goes first (DESIGN CHOICE, log 72: the rule speaks of one bank). -/
def State.viewed (s : State) (a : Nat) : Nat :=
  let look := fun (b : Bank) => if b.st == .loading || b.st == .checked then (b.rws.find? (fun e => e.1 == a)).map Prod.snd else none
  let kept := s.rd a &&& w1cMask a
  match look (s.bank s.chk.load) with
  | some v => v + kept
  | none => match look (s.bank (1 - s.chk.load)) with
    | some v => v + kept
    | none => s.rd a

/-- Whether a bank holds nothing (R82). -/
def Bank.noItem (b : Bank) : Bool := b.defs.isEmpty && b.destroys.isEmpty && b.recs.isEmpty && b.seals.isEmpty && b.rws.isEmpty

/-- CHK_MODE_WRITE (R98, 05 R123): a write that would stage a change of INTERLEAVE while an image is bound or a tenant slice owns a grain is
dropped and sets REJECTED; any other write is staged. A 1 in bit 8 clears REJECTED. -/
def State.writeChkMode (s : State) (v : Nat) : State :=
  let s := if bit v 8 then s.wf R.chkMode 8 8 0 else s
  if s.mce.halted then s else
  let staged := s.viewed R.chkMode
  let stagedNow := match (s.bank s.chk.load).rws.find? (fun e => e.1 == R.chkMode) with | some e => e.2 | none => staged
  let busy := (List.range 4).any (fun i => (s.image i).bound) || !(s.grainsWhere (fun e => e.st == .owned && e.owner < 64)).isEmpty
  if bits v 1 1 != bits stagedNow 1 1 && busy then s.wf R.chkMode 8 8 1 else s.stageReg R.chkMode (v % 4)

/-! ## Checking, arming and cancelling (R81–R83, R95) -/

/-- A check of an unarmed bank asked for: while a bank is armed its grain changes hold the staging copy, and the check answers BUSY_RETRY (R78); an EMPTY bank has
nothing to check and stays EMPTY. -/
def State.askCheck (s : State) (b : Nat) (cmd : Option CmdRef) : State :=
  let k := s.bank b
  if s.armed.isSome || k.checkAsked then s.finish cmd Status.busyRetry 0 []
  else if k.st == .empty then s.finish cmd Status.okEmpty 0 []
  else s.setBank b { k with checkAsked := true, cmd := cmd, since := s.spn.tick }

/-- The check of an unarmed bank ends (R81): the bank becomes CHECKED or LOADING and the CHECK completes. -/
def State.endCheck (s : State) (b : Nat) : State :=
  let k := s.bank b
  match s.checkBank k false with
  | some f =>
    let s := (s.setBank b { k with st := .loading, checkAsked := false, cmd := none }).chkResult f.status f.num f.slice f.grain
    s.finish k.cmd f.status (f.detail k) []
  | none =>
    let s := (s.setBank b { k with st := .checked, checkAsked := false, cmd := none }).chkResult 0 0 0 0
    s.finish k.cmd Status.ok 0 []

/-- A check still running is ended before another command acts on its bank (DESIGN CHOICE, log 21: the spec gives a check at most
40 tk and no order between it and a later command on its bank). -/
def State.settleCheck (s : State) (b : Nat) : State := if (s.bank b).checkAsked then s.endCheck b else s

/-- KeyIDs a bank newly brings into use (R117). -/
def State.newKeys (s : State) (k : Bank) : List Nat :=
  (k.defs.filter (fun d => (s.sdef d.slice).map SliceDef.keyid != some d.keyid)).map SliceDef.keyid

/-- The derivation of the first key set a bank waits for starts: its index is raised (15 R330). -/
def State.startKey (s : State) (b : Nat) : State :=
  let k := s.bank b
  match k.keysWanted with
  | [] => s
  | i :: _ => (s.setBank b { k with derived := k.derived ++ [i] }).raiseIndex i

/-- A bank armed (R77, R83, R95) with the named stamp `at'` (0: none): the other bank loads, LLY_CHK_AT is cleared, the checks start, and the
vault derives the key sets of the new KeyIDs (15 R330). A bank with no item is OK_EMPTY; an armed bank, or a bank that another armed one precedes, is BUSY_RETRY
(R82, 19 R417). From an accepted lifecycle GO on no bank is armed (16 R358), nor in DEEP (23 R509). A named stamp in the past fails with CHECK_FAILED. -/
def State.arm (s : State) (b at' : Nat) (cmd : Option CmdRef) : State :=
  let s := s.settleCheck b
  let k := s.bank b
  if s.lc.gone then s.finish cmd Status.lcForbids s.lcCode []
  else if k.noItem && !k.st.armed then (s.setBank b Bank.init).finish cmd Status.okEmpty 0 []
  else if s.armed.isSome || s.src.deep != 0 then s.finish cmd Status.busyRetry 0 []
  else
    let s := (s.wr R.chkAtLo 0).wr R.chkAtHi 0
    if at' != 0 && at' ≤ s.spn.tick then
      let ms := (s.touched k).filter (fun n => match s.sdef n with | some d => d.fabMask != 0 | none => false)
      let s := (s.setBank b { k with st := .loading }).chkResult Status.checkFailed 0 0 0
      let s := (uniq ms).foldl (fun s n => s.raiseFault Sub.chk (some n) { FaultEv.base 0x09 2 [n] with addr := at' }) s
      s.finish cmd Status.checkFailed 0 []
    else
      let s := s.setBank b { k with st := .checking, named := at', since := s.spn.tick, drain := .none, keysWanted := s.newKeys k, derived := [],
                                    checkAsked := false, cmd := cmd }
      { s.startKey b with chk := { (s.startKey b).chk with load := 1 - b } }

/-- A cancel (R83, 19 R418): accepted in LOADING, CHECKED, CHECKING and WAIT_BLANK, where it empties the bank and a COMMIT that had armed
it completes with BUSY_RETRY; in DRAIN and DECIDING it is refused. Answers whether it was accepted. -/
def State.cancelBank (s : State) (b : Nat) : State × Bool :=
  let s := s.settleCheck b
  let k := s.bank b
  if k.st == .drain || k.st == .deciding then (s, false)
  else
    let s := if k.isBind then s.bindFail Status.busyRetry 0
      else if k.st == .checking || k.st == .waitBlank then s.finish k.cmd Status.busyRetry 0 [] else s
    ((s.setBank b Bank.init).irq 1, true)

/-- The grains the armed bank still awaits: those it names that are not BLANK, and for each record by count what its stacks lack (R83, R93). -/
def State.awaited (s : State) (k : Bank) : Nat :=
  ((k.named' .give).filter (fun g => (s.grain g).st != .blank)).length + lsum ((s.shortagesOf k).map Prod.snd)

/-! ## The scrubber (R92, 03 R56) -/

/-- The records by count that lack blanks now. -/
def State.lacking (s : State) (k : Bank) : List GrainChg := ((s.shortagesOf k).filter (fun x => x.2 != 0)).map Prod.fst

/-- The bank that awaits grains: the armed one in WAIT_BLANK. -/
def State.awaiting (s : State) : Option Bank :=
  match s.armed with
  | some b => if (s.bank b).st == .waitBlank && s.awaited (s.bank b) != 0 then some (s.bank b) else none
  | none => none

/-- The grains the armed bank awaits by name. -/
def State.awaitedNamed (s : State) : List Nat :=
  match s.awaiting with | some k => (k.named' .give).filter (fun g => (s.grain g).st != .blank) | none => []

/-- The stacks from which it awaits grains by count. -/
def State.awaitedStacks (s : State) : List Nat :=
  match s.awaiting with
  | some k => (List.range 8).filter (fun j => (s.lacking k).any (fun r => bit r.onStacks j))
  | none => []

/-- The stacks the scrubber serves: those on which the armed bank awaits grains, else those with DIRTY or SCRUBBING grains. -/
def State.served (s : State) : List Nat :=
  if s.awaiting.isSome then (List.range 8).filter (fun j => s.awaitedStacks.contains j || s.awaitedNamed.any (fun g => stackOf g == j))
  else
    let gs := s.grainsWhere (fun e => e.st == .dirty || e.st == .scrubbing)
    (List.range 8).filter (fun j => gs.any (fun g => stackOf g == j))

/-- The scrubber's rates as the state has them now. -/
def State.scrubRates (s : State) : Tbl Nat := s.served.foldl (fun t k => tset (dflt 0) t k (s.scrubRate s.served.length k)) []

/-- v_k in force: at once in ISOLATE, fixed for the epoch in LEND. -/
def State.scrubNow (s : State) (k : Nat) : Nat := tget (dflt 0) (if s.lend then s.bwr.scrubV else s.scrubRates) k

/-- The grain the scrubber takes up next on a stack: one awaited by name, else the lowest DIRTY one of a stack it serves beside those. -/
def State.nextScrub (s : State) (k : Nat) : Option Nat :=
  let dirty := (s.grainsWhere (fun e => e.st == .dirty)).filter (fun g => stackOf g == k)
  match dirty.find? (fun g => s.awaitedNamed.contains g) with
  | some g => some g
  | none => if s.awaiting.isNone || s.awaitedStacks.contains k then dirty.head? else none

/-- Whether a grain of a stack is being scrubbed, or about to be. -/
def State.scrubBusy (s : State) (k : Nat) : Bool :=
  !((s.grainsWhere (fun e => e.st == .scrubbing)).filter (fun g => stackOf g == k)).isEmpty
    || (s.spn.queue ++ s.spn.backlog ++ s.spn.effs.map Eff.ev).any (fun e => match e.body with | .scrubStart g => stackOf g == k | _ => false)

/-- Lines of a grain. -/
def grainLines : Nat := 8192

/-- What a line costs of the scrub rate, in units of `Bnd.scrubTok` (R92: v_k counts bytes of grain cleared). -/
def scrubCharge : Nat := 256 * (8 * scrubUnit)

/-- A tick of the scrubber on a stack: lines of its SCRUBBING grain are written with zeros and Z(a) under the system tag at v_k, scaled by the cap factor (R92, 05 R104). -/
def State.scrubStack (s : State) (k : Nat) : State :=
  match (s.grainsWhere (fun e => e.st == .scrubbing)).find? (fun g => stackOf g == k) with
  | none => { s with bnd := { s.bnd with scrubTok := tset (dflt 0) s.bnd.scrubTok k 0 } }
  | some g =>
    let done := tget (dflt 0) s.bnd.scrub g
    let tok := tget (dflt 0) s.bnd.scrubTok k + 256 * s.scrubNow k * (8 - s.bwr.cap)
    let n := min (tok / scrubCharge) (grainLines - done)
    if n = 0 || s.filterAddr .scr 0xFF (g * 2 ^ 21) true true != .pass g || !(s.key 0).live then
      { s with bnd := { s.bnd with scrubTok := tset (dflt 0) s.bnd.scrubTok k (min tok scrubCharge) } }
    else ({ s with bnd := { s.bnd with scrub := tset (dflt 0) s.bnd.scrub g (done + n), scrubTok := tset (dflt 0) s.bnd.scrubTok k (tok - n * scrubCharge) } }).emit
      .memFill [RClass.scr.code, 0xFF, g, done, n, 1] []

/-- A tick of the scrubber. -/
def State.scrubTick (s : State) : State := if s.mce.fenced then s else (List.range 8).foldl (fun s k => s.scrubStack k) s

/-- No line of grain `g` counts as written by the scrubber. -/
def State.scrubFrom (s : State) (g : Nat) : State := { s with bnd := { s.bnd with scrub := tset (dflt 0) s.bnd.scrub g 0 } }

/-- SCRUB_START (R92): the scrubber takes up DIRTY grain `g`, the next of its stack; the transition is a class 6 system event. -/
def execScrubStart (g : Nat) (s : State) : Host.Outcome State Fault Refusal :=
  let k := stackOf g
  if s.nextScrub k = some g && !s.scrubBusy k then .next (s.raise ⟨6, none, Sub.bnd, .scrubStart g⟩) else .next s

/-- SCRUB_DONE (03 R56): the scrubber has written every line of grain `g` and verified it; `bad` when the verify showed an uncorrectable error after
the full-line write, a class 3 event, else a class 6 system event. -/
def execScrubDone (g : Nat) (bad : Bool) (s : State) : Host.Outcome State Fault Refusal :=
  if (s.grain g).st == .scrubbing && tget (dflt 0) s.bnd.scrub g = grainLines then
    .next (s.raise (if bad then ⟨3, none, Sub.bnd, .scrubBad g⟩ else ⟨6, none, Sub.bnd, .scrubDone g⟩))
  else .next s

/-- A commit ends without effect: the bank returns to `st` with its items, LLY_CHK_RESULT is written, drained work goes back to its own
clusters (R87), and the command completes. -/
def State.failCommit (s : State) (b : Nat) (st : BankSt) (f : CheckFail) : State :=
  let k := s.bank b
  let s := s.setBank b { k with st := st, drain := .none, named := 0, keysWanted := [], derived := [], savedFrom := [], cmd := none }
  let s := (s.restoreDrained k).chkResult f.status f.num f.slice f.grain
  if k.isBind then ((s.setBank b Bank.init).bindFail f.status (f.detail k)).releaseHeld
  else (s.finish k.cmd f.status (f.detail k) []).releaseHeld

/-- GO in LLY_CHK_COMMIT (R83): dropped in orphan mode (18 R398). -/
def State.chkGo (s : State) (b : Nat) : State :=
  if (s.mb pf0).orphan then s else s.arm b (s.rd R.chkAtLo + 2 ^ 32 * s.rd R.chkAtHi) none

/-- LLY_CHK_COMMIT written (R81, R83): exactly one of CHECK, GO and CANCEL acts on bank BANK. -/
def State.writeCommit (s : State) (v : Nat) : State :=
  match bits v 3 1 with
  | 1 => s.askCheck (v % 2) none
  | 2 => s.chkGo (v % 2)
  | 4 => (s.cancelBank (v % 2)).1
  | _ => s

/-- CHK_COMMIT_CHECK (R81): LLY_CHK_COMMIT with CHECK set. -/
def execChkCommitCheck (b : Nat) (s : State) : Host.Outcome State Fault Refusal :=
  .next (s.gated 0 R.chkCommit (b % 2 + 2) (fun s => s.askCheck (b % 2) none))

/-- CHK_COMMIT_GO (R83): LLY_CHK_COMMIT with GO set; dropped in orphan mode (18 R398) and in FAILED (26 R552). -/
def execChkCommitGo (b : Nat) (s : State) : Host.Outcome State Fault Refusal :=
  .next (s.gated 0 R.chkCommit (b % 2 + 4) (fun s => s.chkGo (b % 2)))

/-- CHK_COMMIT_CANCEL (R83): LLY_CHK_COMMIT with CANCEL set. -/
def execChkCommitCancel (b : Nat) (s : State) : Host.Outcome State Fault Refusal :=
  .next (s.gated 0 R.chkCommit (b % 2 + 8) (fun s => (s.cancelBank (b % 2)).1))

/-- CHECK_DONE (R81, R83): the checks of a bank end. An armed bank goes on to WAIT_BLANK or returns to LOADING; a checked one becomes
CHECKED or LOADING. -/
def execCheckDone (b : Nat) (s : State) : Host.Outcome State Fault Refusal :=
  let b := b % 2
  let k := s.bank b
  if k.st == .checking then
    match s.checkBank k false with
    | some f => .next (s.failCommit b .loading f)
    | none => .next (((s.setBank b { k with st := .waitBlank, since := s.spn.tick }).chkResult 0 0 0 0).deferCmd k.cmd (s.awaited k))
  else if k.checkAsked then .next (s.endCheck b)
  else .next s

/-- The memory drain starts (R86): departing positions stop, and new requests of the affected set are held. -/
def State.startMemoryDrain (s : State) (b : Nat) : State :=
  let k := s.bank b
  (s.stopPositions (s.movedPositions k) true).setBank b { k with drain := .memory, since := s.spn.tick }

/-- BLANKS_READY (R83): no grain is awaited any more; the drain starts. Departing clusters take no new task, their tasks are saved
where their slice continues (R84), pods leave departing shelf units (09 R210), and a commit with no departing cluster goes straight
to the memory drain (R85). -/
def execBlanksReady (s : State) : Host.Outcome State Fault Refusal :=
  match s.armed with
  | none => .next s
  | some b =>
    let k := s.bank b
    if k.st != .waitBlank || s.awaited k != 0 then .next s
    else
      let dep := k.departing s
      let keep := dep.filter (fun p => (s.defAfter k p.1).isSome)
      let s := s.setBank b { k with st := .drain, drain := if dep.isEmpty then .none else .saving, since := s.spn.tick, savedFrom := keep }
      let s := s.departShelf (s.movedPositions k)
      let s := dep.foldl (fun s p => s.modCluster p.2 (fun c => { c with departing := true, promised := none })) s
      let s := s.saveDeparting keep
      if dep.isEmpty then .next (s.startMemoryDrain b) else .next s

/-- WAIT_LIMIT_EXPIRY (R94): the wait has exceeded LLY_CHK_WAIT_LIMIT: the commit completes with DEFER_MEM and the bank returns to
CHECKED. 1 ms is 3,906.25 tk. -/
def execWaitLimitExpiry (s : State) : Host.Outcome State Fault Refusal :=
  match s.armed with
  | none => .next s
  | some b =>
    let k := s.bank b
    let lim := s.rf R.chkWaitLimit 15 0
    if k.st == .waitBlank && lim != 0 && k.since * 4 + lim * 15625 < s.spn.tick * 4 then
      let left := s.awaited k
      let s := (s.setBank b { k with st := .checked, named := 0, keysWanted := [], derived := [], cmd := none }).chkResult Status.deferMem 0 0 0
      .next (if k.isBind then (s.setBank b Bank.init).bindFail Status.deferMem left else s.finish k.cmd Status.deferMem left [])
    else .next s

/-- DRAIN_SAVE_DONE (R84): the saves end and the departing clusters start to clear. -/
def execDrainSaveDone (s : State) : Host.Outcome State Fault Refusal :=
  match s.armed with
  | none => .next s
  | some b =>
    let k := s.bank b
    if k.drain == .saving then
      .next ((s.savesEnded k.savedFrom).setBank b { k with drain := .clearing, since := s.spn.tick })
    else .next s

/-- CLUSTER_CLEAR_DONE (R85): the departing clusters hold nothing; the memory drain starts. -/
def execClusterClearDone (s : State) : Host.Outcome State Fault Refusal :=
  match s.armed with
  | none => .next s
  | some b =>
    let k := s.bank b
    if k.drain == .clearing then
      let s := (k.departing s).foldl (fun s p => s.modCluster p.2 (fun c => { c with groups := [], cleared := true })) s
      .next (s.startMemoryDrain b)
    else .next s

/-- Fabric shares that leave a slice under a bank: (slice, port). -/
def State.departingPorts (s : State) (k : Bank) : List (Nat × Nat) :=
  s.slices.flatMap (fun d => ((maskList d.fabMask 8).filter (fun p => !bit ((s.defAfter k d.slice).elim 0 SliceDef.fabMask) p)).map (fun p => (d.slice, p)))

/-- Whether anything of the affected set is in flight (R86): a request beyond the Binder, a line of a departing cluster or a taken grain, or a flit or transaction of a
departing fabric share whose credits are not back. -/
def State.drainBusy (s : State) (k : Bank) : Bool :=
  let dep := k.departing s
  s.mce.reqs.any (fun r => r.phase != .held &&
    (((r.cls == .cd || r.cls == .sav) && dep.any (fun p => p.2 == r.port)) || s.taken k r.grain))
    || (s.departingPorts k).any (fun x => s.fpc.ins.any (fun i => i.sl == x.1 && i.port == x.2) || s.fpc.out.any (fun o => o.sl == x.1 && o.port == x.2))

/-- The commit event is raised, or held for its named stamp (R83, R95), once the keys of the new KeyIDs are derived (15 R330). -/
def State.raiseCommit (s : State) (b : Nat) : State :=
  let k := s.bank b
  if !k.keysWanted.isEmpty then s.setBank b { k with drain := .keys }
  else if k.named != 0 then s.setBank b { k with drain := .held }
  else (s.setBank b { k with st := .deciding, drain := .raised }).raise ⟨5, none, Sub.chk, .commit b⟩

/-- DRAIN_DONE (R86): nothing of the affected set is in flight beyond the Binder. -/
def execDrainDone (s : State) : Host.Outcome State Fault Refusal :=
  match s.armed with
  | none => .next s
  | some b =>
    let k := s.bank b
    if k.drain == .memory && !s.drainBusy k then .next (s.raiseCommit b) else .next s

/-- KEYSET_READY (15 R330, R331): the vault has derived the key set it was at; the next one's index is raised and its derivation starts. -/
def execKeysetReady (keyid : Nat) (s : State) : Host.Outcome State Fault Refusal :=
  match s.armed with
  | none => .next s
  | some b =>
    let k := s.bank b
    if k.keysWanted.head? != some keyid || s.vlt.drbgStopped then .next s
    else
      let s := (s.setBank b { k with keysWanted := k.keysWanted.tail }).startKey b
      if k.drain == .keys && k.keysWanted.tail.isEmpty then .next (s.raiseCommit b) else .next s

/-- CHK_MODE_WRITE (R98). -/
def execChkModeWrite (v : Nat) (s : State) : Host.Outcome State Fault Refusal :=
  .next (s.gated 0 R.chkMode v (fun s => s.writeChkMode v))

/-- CHK_TICK_LO_READ (R97): the low half of the last commit's effective tick, its high half latched for the source. -/
def execChkTickLoRead (src : Nat) (s : State) : Host.Outcome State Fault Refusal :=
  .next (if s.readable src R.chkTickLo then (s.wr (srcReg src R.chkTickHi) (s.chk.lastTick / 2 ^ 32)).answerRead src R.chkTickLo (s.chk.lastTick % 2 ^ 32) else s)

/-! ## The effect at T + 2 (R88–R90) -/

/-- Keys at a commit's effective tick: new KeyIDs live under their next index; a continuing slice's old one retires by a walk of what it
keeps; a destroyed slice's is zeroised, its key-retire completion raised (R89, 05 R117–R121). -/
def State.commitKeys (s : State) (old : State) (k : Bank) : State :=
  let s := k.destroys.foldl (fun s n => match old.sdef n with
    | some d =>
      let walkOld := match tget (dflt none) s.mce.walks n with | some w => [w.old] | none => []
      let s := { s with mce := { s.mce with walks := tset (dflt none) s.mce.walks n none } }
      ([d.keyid] ++ walkOld).foldl (fun s i =>
        ((s.zeroiseKey i).modKey i (fun e => { e with st := .retiring })).raise ⟨7, none, Sub.mce, .keyRetire i⟩) s
    | none => s) s
  k.defs.foldl (fun s d =>
    match old.sdef d.slice with
    | none => s.useKey d.keyid d.slice .active
    | some o =>
      if o.keyid = d.keyid then s
      else
        let s := (s.useKey d.keyid d.slice .active).modKey o.keyid (fun e => { e with st := .retiring, owner := d.slice })
        let w : Walk := ⟨o.keyid, d.keyid, s.keptByStack d.slice, [], [], []⟩
        let s := { s with mce := { s.mce with walks := tset (dflt none) s.mce.walks d.slice (some w) } }
        if w.count = 0 then (s.zeroiseKey o.keyid).raise ⟨7, none, Sub.mce, .keyRetire o.keyid⟩ else s) s

/-- A destroyed slice's secret is zeroised and its challenges and vault requests end (15 R346). -/
def State.dropSecrets (s : State) (n : Nat) : State :=
  let cmds := (s.vlt.reqs.filter (fun r => r.owner == n)).map VReq.cmd ++ (s.vlt.chals.filter (fun c => c.sl == n)).map Chal.cmd
  let s := cmds.foldl (fun s c => s.finish c Status.faulted n []) s
  { s with vlt := { s.vlt with secrets := tset (dflt none) s.vlt.secrets n none, reqs := s.vlt.reqs.filter (fun r => r.owner != n),
                               chals := s.vlt.chals.filter (fun c => c.sl != n), chalAt := s.vlt.chalAt.filter (fun a => a.sl != n) } }

/-- PARK bits that change at a commit (23 R507): a slice newly parked stops, one no longer parked resumes; a memory-only slice does neither. -/
def State.parkChange (s : State) : State :=
  let mask := fun (x : State) => x.rd R.srcParkLo + 2 ^ 32 * x.rd R.srcParkHi
  s.slices.foldl (fun s d =>
    let n := d.slice
    let now := bit (mask s) n
    let was := (tget (dflt ParkSt.none) s.src.park n) != .none && (tget (dflt ParkSt.none) s.src.park n) != .leaving
    if d.clusters = 0 || now = was then s
    else
      let s := { s with src := { s.src with park := tset (dflt ParkSt.none) s.src.park n (if now then .stopping else .leaving) } }
      let s := if now then s.withdrawReads n else s
      s.emit .ddl [2, n, if now then 1 else 0] []) s

/-- Every command of opcode `op` that PF0 has running ends (its effect is decided outside the command itself). -/
def State.finishRunning (s : State) (op status detail : Nat) (result : List Byte) : State :=
  ((s.mb pf0).exec.filter (fun e => e.ref.op == op && e.stage == .running && !e.done)).foldl
    (fun s e => s.finish (some e.ref) status detail result) s

/-- A debug authorisation being verified fails because a commit has created a tenant slice (16 R365, 19 R426). -/
def State.abortVerify (s : State) : State :=
  if s.lc.verify.isNone then s
  else
    let s := { s with lc := { s.lc with verify := none } }
    (s.wf R.lcResult 7 0 Status.lcForbids).finishRunning Op.debugCtl Status.lcForbids s.lcCode []

/-- Debug closes (16 R365): cores halted by debug resume, and MODE changes, so the alias key is derived again. -/
def State.closeDebug (s : State) : State :=
  let s := if s.lc.debug then s.lcRecord 2 0 0 else s
  let s := { s with lc := { s.lc with debug := false },
                    ccx := { s.ccx with cores := tmap (dflt Core.init) s.ccx.cores (fun _ c => if c.st == CoreSt.halted then { c with st := .running } else c) } }
  if s.aliasUp then s.deriveAlias else s

/-- The functions a commit touches, `old` being the state before it (17 R370, R380): GEN advances for each VF that presents another slice
than before, or none, or a new one (R90); a VF locked or in RUN whose slice the commit changes or removes goes to ERROR, which advances its GEN. -/
def State.commitGens (s old : State) (k : Bank) (changed : List Nat) : State :=
  let pairs := fun (x : State) => x.slices.map (fun d => (d.vf, d.slice))
  let moved := ((pairs old).filter (fun e => !(pairs s).contains e || k.destroys.contains e.2)).map Prod.fst
    ++ ((pairs s).filter (fun e => !(pairs old).contains e)).map Prod.fst
  let locked := ((pairs old).filter (fun e => changed.contains e.2 && ((s.fn e.1).tdisp == .locked || (s.fn e.1).tdisp == .run))).map Prod.fst
  s.advanceGens (uniq (moved ++ locked)) true

/-- Clusters take their new owners, cleared (R88). -/
def State.commitClusters (s : State) : State :=
  (List.range 64).foldl (fun s c =>
    let o := match s.slices.find? (fun d => bit d.clusters c) with | some d => d.slice | none => 0xFF
    if (s.cluster c).owner = o && !(s.cluster c).departing then s
    else s.modCluster c (fun x => { x with owner := o, departing := false, groups := [], cleared := true, promised := none })) s

/-- The work of destroyed slices ends; the pods of a slice whose POD grains change take their new places (09 R197; assumption log 74), and what the
new extents and quotas leave is counted (R88). -/
def State.commitWork (s old : State) (k : Bank) : State :=
  let s := k.destroys.foldl (fun s n => ((s.cancelSlice n Status.faulted n).dropPods n).dropSecrets n) s
  let s := (uniq (k.slicesIn)).foldl (fun s n => ((s.regrain n (old.ownedOf n .pod)).syncPodUse n).syncSaveUse n) s
  s.resumeSuspended.freeDrained

/-- Capture mode, PARK and debug at a commit (20 R444, 23 R507, 16 R365). -/
def State.commitModes (s old : State) (k : Bank) : State :=
  let s := k.defs.foldl (fun s d => if d.fabMask != 0 then s.modFsl d.slice (fun x => { x with capMode := 0 }) else s) s
  let s := s.parkChange
  let s := if s.lc.debug && old.slices.isEmpty && !s.slices.isEmpty && s.lcCode == 0x11 then s.closeDebug else s
  if k.defs.any (fun d => (old.sdef d.slice).isNone) then s.abortVerify else s

/-- The slices whose statement a commit changes (03 R71). -/
def State.commitChanged (s old : State) (k : Bank) : List Nat :=
  let modeChanged := bit (old.rd R.chkMode) 0 != bit (s.rd R.chkMode) 0
  let created := (k.defs.filter (fun d => (old.sdef d.slice).isNone)).map SliceDef.slice
  (s.slices.filter (fun d => created.contains d.slice || modeChanged || s.stmtFields d.slice != old.stmtFields d.slice)).map SliceDef.slice

/-- Statement versions at a commit: those of destroyed slices return to 0, those of changed slices advance (03 R71). -/
def State.commitVersions (s : State) (k : Bank) (changed : List Nat) (t : Nat) : State :=
  let s := k.destroys.foldl (fun s n =>
    { s with bnd := { s.bnd with vers := tset (dflt ⟨0, 0⟩) s.bnd.vers n ⟨0, 0⟩ },
             flt := { s.flt with slices := tset (dflt FltSlice.init) s.flt.slices n FltSlice.init },
             src := { s.src with park := tset (dflt ParkSt.none) s.src.park n ParkSt.none } }) s
  changed.foldl (fun s n => s.advanceStmt n t) s

/-- Tag lines in a way whose owner a commit changes, and those of the grains it takes, are written back and dropped (11 R259). -/
def State.dropTags (s old : State) : State :=
  let goes := fun (k : Nat) (t : TagLine) => s.wayOwner (k / 512) t.way != old.wayOwner (k / 512) t.way
    || ((old.grain t.grain).st == .owned && (s.grain t.grain).st != .owned)
  let s' := s.mce.tagc.foldl (fun s e => (e.2.filter (goes e.1)).foldl (fun s t => s.writeBack (e.1 / 16) t) s) s
  { s' with mce := { s'.mce with tagc := tmap (dflt []) s'.mce.tagc (fun k l => l.filter (fun t => !goes k t)) } }

/-- LEND begun or ended (11 R267; the scrub rates of the part of an epoch before the first boundary in LEND are those at the commit, DEDUCED, log 73), tags on or off, the versions of sealed images sent to the dies. -/
def State.commitMode (s old : State) (k : Bank) : State :=
  let s := if bit (old.rd R.chkMode) 0 != bit (s.rd R.chkMode) 0
    then
      let t := s.noLend
      { t with bwr := { t.bwr with acc := [], usedPos := [], usedGrant := [], scrubV := if s.lend then s.scrubRates else [] } }
    else s
  let s := if bit (old.rd R.chkMode) 1 != bit (s.rd R.chkMode) 1 then { s with mce := { s.mce with remark := true } } else s
  let s := k.seals.foldl (fun s i =>
    { s with tcu := { s.tcu with dieVer := tset (dflt 0) s.tcu.dieVer i (s.image i).ver } }.emit .ddl [0, i, (s.image i).ver] []) s
  { s with fpc := { s.fpc with firstCommit := true } }

/-- The answers to a commit: the recorder, the functions' generations, the dies and the command's completion. -/
def State.commitTell (s old : State) (b : Nat) (k : Bank) (changed : List Nat) (t stamp : Nat) : State :=
  let s := (s.setBank b Bank.init).chkResult 0 0 0 0
  let s := { s with chk := { s.chk with lastTick := t } }
  let s := s.offer 5 2 stamp 0xFF b 0 [t, lsum (changed.map (fun n => 2 ^ n))]
  let s := s.commitGens old k changed
  let s := s.emit .ddl (1 :: (List.range 64).map (fun c => (s.cluster c).owner)) []
  if k.isBind then s.bindCommitted k t
  else s.finish k.cmd Status.ok 0 (leBytes 8 t ++ leBytes 8 (lsum (changed.map (fun n => 2 ^ n))))

/-- COMMIT_EFFECT (R88): everything the bank staged takes effect together at tick `t`. -/
def State.commitEffect (s : State) (b t stamp : Nat) : State :=
  let old := s
  let k := s.bank b
  let s := ((((((s.applyBank k).dropTags old).commitKeys old k).commitClusters).commitWork old k).commitModes old k)
  let changed := s.commitChanged old k
  let s := (s.commitVersions k changed t).commitMode old k
  (s.commitTell old b k changed t stamp).releaseHeld

/-- COMMIT_MISS (R95): a bank not drained by its named stamp fails, and each multi-package slice it touches faults. -/
def State.commitMiss (s : State) (b : Nat) : State :=
  let k := s.bank b
  let ms := uniq ((s.touched k).filter (fun n => match s.sdef n with | some d => d.fabMask != 0 | none => false))
  let s := ms.foldl (fun s n => s.raiseFault Sub.chk (some n) { FaultEv.base 0x09 2 [n] with addr := k.named }) s
  (s.offer 0 3 s.spn.tick 0 0 Status.checkFailed []).failCommit b .loading ⟨0, Status.checkFailed, 0, 0⟩

/-- Every staging bank emptied by a block reset; an armed bank's COMMIT completes with FAULTED, DETAIL 0xFF (22 R491). -/
def State.emptyBanks (s : State) : State :=
  let s := [0, 1].foldl (fun s b =>
    let k := s.bank b
    let s := (k.departing s).foldl (fun s p => s.modCluster p.2 (fun c => { c with departing := false })) s
    (if k.isBind then s.bindFail Status.faulted 0xFF else s.finish k.cmd Status.faulted 0xFF []).setBank b Bank.init) s
  { s with chk := { s.chk with load := 0 } }

end Sys2Proof.Machine
end

