-- ==== Sys2Proof/Machine/Lifecycle.lean ====
section
/-! DEFINITION. Lifecycle states, tokens, transitions and debug authorisation (16), and the fuse macro (25 R543, R544). -/

namespace Sys2Proof.Machine

/-! ## Transitions (R357–R361) -/

/-- The token a transition uses: `some none` for a pair of R357 without one, `none` for a pair not in its table. -/
def lcPair (i j : Nat) : Option (Option Nat) :=
  if i = 0 && j = 1 then some (some 0)
  else if i ≤ 16 && i % 2 = 1 && j = i + 1 then some none
  else if i ≤ 16 && 2 ≤ i && i % 2 = 0 && j ≤ 15 && j % 2 = 1 && i < j then some (some ((j - 1) / 2))
  else if i ≤ 16 && (j = 17 || j = 18) then some none
  else if i = 17 && j = 18 then some none
  else if (i = 17 || i = 18) && j = 19 then some none
  else if i < 20 && j = 20 then some none
  else none

/-- The bits of a row still to burn to hold `w`. -/
def State.toBurn (s : State) (r w : Nat) : List (Nat × Nat) :=
  ((List.range 64).filter (fun b => bit w b && !bit (s.otpRow r) b)).map (fun b => (r, b))

/-- What a transition burns, in order (R359, R363). -/
def State.burnList (s : State) (target : Nat) (token : Option Nat) : List (Nat × Nat) :=
  (match token with | some k => s.toBurn (3 + 3 * k) 0x38 | none => [])
    ++ (List.range 3).flatMap (fun r => s.toBurn r (lcWord target))
    ++ (if target = 20 then (List.range 14).flatMap (fun r => s.toBurn (27 + r) (2 ^ 64 - 1)) else [])

/-- PHASE of LLY_LC_RESULT while a bit of a row burns. -/
def phaseOf (r : Nat) : Nat := if r < 3 then 3 + r else if r < 27 then 2 else 5

/-- A fresh nonce is drawn, at once or when the DRBG gives output again (R360, 15 R324). -/
def State.newNonce (s : State) : State :=
  if s.vlt.drbgStopped then { s with lc := { s.lc with nonceWait := true } }
  else { s with lc := { s.lc with nonce := s.draws, nonceWait := false } }.drawn

/-- LLY_LC_AUTH as bytes. -/
def State.lcAuth (s : State) (n : Nat) : List Byte := slice ((List.range 48).flatMap (fun i => leBytes 4 (s.rd (R.lcAuth + 4 * i)))) 0 n

/-- LLY_LC_AUTH is zeroed and the nonce replaced after every GO or DBG_OPEN (R360). -/
def State.endAuth (s : State) : State :=
  ((List.range 48).foldl (fun s i => s.wr (R.lcAuth + 4 * i) 0) s).newNonce

/-- The outcome of a transition to `target`: LLY_LC_RESULT.STATUS, its record (24 R516), and the end of an LC_TRANSITION (19 R425). -/
def State.lcEnd (s : State) (target status detail : Nat) : State :=
  let s := (s.wf R.lcResult 7 0 status).lcRecord 1 status target
  s.finishRunning Op.lcTransition status detail (leBytes 1 (s.rf R.lcResult 10 8) ++ leBytes 1 s.tokens.2.2)

/-- A burn that has no bit left ends the transition: PHASE 6, effective at the next cold or warm reset (R361). At a start in SCRAP only the
secrets were completed (R363). -/
def State.burnNext (s : State) : State :=
  match s.lc.burn with
  | none => s
  | some b =>
    match b.bits with
    | (r, _) :: _ => s.wf R.lcResult 10 8 (phaseOf r)
    | [] =>
      let done := s.lc.idx != b.target
      let s := { s with lc := { s.lc with burn := none, pending := s.lc.pending || done, target := if done then b.target else s.lc.target,
                                          resume := s.lc.resume && !done } }
      if done then (s.wf R.lcResult 10 8 6).lcEnd b.target Status.ok 0 else s

/-- An authorisation Q ‖ r ‖ s under a label (R360): SHA-384 of Q is the hash in the six fuse rows from `row`, and the signature covers
label ‖ 0x00 ‖ DEVICE_ID ‖ NONCE, the nonce being that of draw `nonce`. -/
def State.authOk (s : State) (row : Nat) (label : String) (nonce : Nat) (auth : List Byte) : Bool :=
  let q := slice auth 0 96
  sha384 q == (List.range 6).flatMap (fun r => leBytes 8 (s.otpRow (row + r)))
    && ecdsaVerify q (ascii label ++ 0 :: s.deviceId ++ Config.random nonce 32) (slice auth 96 96)

/-- GO (R357, R358): whether TARGET is accepted, and the burn that starts. Answers with the status of a request that fails. -/
def State.lcJudge (s : State) (target : Nat) (auth : Nat → List Byte) : Nat × Option Burn :=
  let i := s.lc.idx
  if s.mce.halted then (Status.halted, none)
  else if target = 0 || (20 < target && target != 0xFF) then (Status.badField, none)
  else if s.lc.burn.isSome then (Status.busyRetry, none)
  else match (if s.lc.lockdown then none else lcPair i target) with
    | none => (Status.lcForbids, none)
    | some tok =>
      let resumed := s.lc.resume && s.lc.target == target
      if !s.slices.isEmpty || s.armed.isSome || !s.pins.vbak
        || (target == 19 && !(tkeys s.mce.keys (fun k e => k != 0 && e.st != .free)).isEmpty) then (Status.lcForbids, none)
      else match tok with
        | some k =>
          if !s.tokFused k || (s.tokSpent k && !resumed) then (Status.lcForbids, none)
          else if slice (sha384 (ascii "LLY-UNLOCK" ++ [0, BitVec.ofNat 8 k] ++ auth 32)) 0 16 != s.tokDigest k then (Status.checkFailed, none)
          else (Status.ok, some ⟨target, s.burnList target (if resumed then none else some k), 0⟩)
        | none =>
          if target = 19 && !s.authOk 47 "LLY-RMA" s.lc.nonce (auth 192) then (Status.checkFailed, none)
          else (Status.ok, some ⟨target, s.burnList target none, 0⟩)

/-- GO of LLY_LC_CTRL (R358): the request of TARGET with the authorisation in LLY_LC_AUTH. -/
def State.lcGo (s : State) : State :=
  let r := s.lcJudge (s.rf R.lcReq 7 0) s.lcAuth
  match r.2 with
  | none =>
    let detail := if r.1 = Status.lcForbids then s.lcCode else if r.1 = Status.badField then dtl 0x0C 0 else 0
    let s := if r.1 = Status.busyRetry then s.wf R.lcResult 7 0 r.1 else ((s.wf R.lcResult 10 8 0).wf R.lcResult 7 0 r.1).finishRunning Op.lcTransition r.1 detail []
    s.endAuth
  | some b =>
    let s := (s.wr R.lcResult 0x100).endAuth
    { s with lc := { s.lc with burn := some b, gone := true } }.burnNext

/-- A write to LLY_LC_CTRL with exactly one of its bits set acts; with none or several it has no effect (LLY_LC_CTRL). SCRAP and LOCKDOWN make the
registers read-only to the DDP, which the DDP row judges (R364). -/
def execGo (s : State) : Host.Outcome State Fault Refusal := .next (s.gated 0 R.lcCtrl 1 State.lcGo)

/-- A fuse bit has finished its burn and verify (R359): it is set, or burnt again up to 3 times. A bit that still fails in copy A or B, or of a token,
stops the burn with CHECK_FAILED; in copy C the transition counts as done, and a secret's bit is passed over. -/
def State.fuseBit (s : State) (ok : Bool) : State :=
  match s.lc.burn with
  | none => s
  | some b =>
    match b.bits with
    | [] => s.burnNext
    | (r, k) :: rest =>
      let set := fun (s : State) (x : Burn) => { s with lc := { s.lc with burn := some x } }
      if ok then (set (s.burnBit r k) { b with bits := rest, tries := 0 }).burnNext
      else if b.tries < 3 then set s { b with tries := b.tries + 1 }
      else if r = 2 || 27 ≤ r then (set s { b with bits := rest.filter (fun x => r != 2 || x.1 != 2), tries := 0 }).burnNext
      else ({ s with lc := { s.lc with burn := none } }).lcEnd b.target Status.checkFailed (if r < 3 then r + 1 else 0)

/-! ## Debug (R365) -/

/-- DBG_OPEN (R365): in DEV, with no tenant slice in effect, the authorisation in LLY_LC_AUTH is verified. -/
def State.lcOpen (s : State) : State :=
  let fail := fun (st : Nat) => ((s.wf R.lcResult 7 0 st).finishRunning Op.debugCtl st (if st = Status.lcForbids then s.lcCode else 0) []).endAuth
  if s.mce.halted then fail Status.halted
  else if s.lcCode != 0x11 || !s.slices.isEmpty then fail Status.lcForbids
  else if s.lc.verify.isSome then (s.wf R.lcResult 7 0 Status.busyRetry).endAuth
  else
    { s with lc := { s.lc with verify := some (leBytes 8 s.lc.nonce ++ s.lcAuth 192) } }.endAuth

/-- DBG_OPEN (R365). -/
def execDbgOpen (s : State) : Host.Outcome State Fault Refusal := .next (s.gated 0 R.lcCtrl 2 State.lcOpen)

/-- LLY_LC_CTRL.DBG_CLOSE (R365): debug closes. -/
def State.lcClose (s : State) : State := if s.lcCode == 0x11 && s.lc.debug then s.closeDebug else s

/-- LLY_LC_CTRL written: one of its four bits acts; a write with more than one of them set has no effect (16, its register table). -/
def State.writeLcCtrl (s : State) (v : Nat) : State :=
  match v % 16 with
  | 1 => s.lcGo
  | 2 => s.lcOpen
  | 4 => s.lcClose
  | 8 => s.newNonce
  | _ => s

/-- DBG_CLOSE (R365): debug closes. -/
def execDbgClose (s : State) : Host.Outcome State Fault Refusal := .next (s.gated 0 R.lcCtrl 4 State.lcClose)

/-- NEW_NONCE (R360): a fresh nonce in LLY_LC_NONCE. -/
def execNewNonce (s : State) : Host.Outcome State Fault Refusal := .next (s.gated 0 R.lcCtrl 8 State.newNonce)

/-- A change of the debug state completes once the new alias key is derived (R426), which waits while the DRBG gives no output (15 R324). -/
def State.debugChanged (s : State) : State :=
  if s.vlt.drbgStopped then s else s.finishRunning Op.debugCtl Status.ok 0 []

/-- DEBUG_VERIFY_DONE (R365): the verification ends; debug opens and MODE changes, or the request fails with CHECK_FAILED. -/
def execDebugVerifyDone (s : State) : Host.Outcome State Fault Refusal :=
  match s.lc.verify with
  | none => .next s
  | some a =>
    let s := { s with lc := { s.lc with verify := none } }
    if s.lcCode != 0x11 || !s.slices.isEmpty then
      .next ((s.wf R.lcResult 7 0 Status.lcForbids).finishRunning Op.debugCtl Status.lcForbids s.lcCode [])
    else if s.authOk 53 "LLY-DBG" (leNat (slice a 0 8)) (slice a 8 192) then
      let s := { s with lc := { s.lc with debug := true } }.lcRecord 2 0 1
      let s := if s.aliasUp then s.deriveAlias else s
      .next (s.wf R.lcResult 7 0 Status.ok).debugChanged
    else .next ((s.wf R.lcResult 7 0 Status.checkFailed).finishRunning Op.debugCtl Status.checkFailed 0 [])

/-! ## Test features -/

/-- TCU_INJECT_WRITE (06 R138): a write to LLY_TCU_INJECT takes effect in BLANK, TEST_UNLOCKED_k and DEV, with no tenant slice; otherwise it is
dropped. With SITE 0, ARM has no effect. -/
def State.writeInject (s : State) (v : Nat) : State :=
  let c := s.lcCode
  if (c == 0 || (decide (c ≤ 15) && c % 2 == 1) || c == 0x11) && s.slices.isEmpty then
    s.wr R.tcuInject (v % 8)
  else s

/-- TCU_INJECT_WRITE (06 R138). -/
def execTcuInjectWrite (v : Nat) (s : State) : Host.Outcome State Fault Refusal :=
  .next (s.gated 0 R.tcuInject v (fun s => s.writeInject v))

/-- The twelve sums of LLY_AUD_SEL. -/
def State.auditSums (s : State) : List Nat := (List.range 12).map (fun k => s.auditSum s.tokens.2.1 s.tokens.2.2 k % 2 ^ 24)

/-- LLY_AUD_SEL written by source `src` (12 R282, 26 R551): the selected sum is latched into its LLY_AUD_VAL in the same cycle; in a halt the sums are those of the
halt's effective tick (R280). -/
def State.selSum (s : State) (src v : Nat) : State :=
  let k := v % 16
  (s.wr (srcReg src R.audSel) k).wr (srcReg src R.audVal) ((if s.mce.halted then s.mce.haltSums else s.auditSums).getD k 0)

/-- AUD_SEL_WRITE (12 R282). -/
def execAudSelWrite (src v : Nat) (s : State) : Host.Outcome State Fault Refusal :=
  .next (s.gated src R.audSel v (fun s => s.selSum src v))

/-- SQ_TAIL (18 R385): a write of LLY_MBX_SQ_TAIL of function `f`. -/
def execSqTail (f v : Nat) (s : State) : Host.Outcome State Fault Refusal :=
  .next (s.gatedFn f R.mbxSqTail V.mbxSqTail v (fun s => s.writeSqTail f v))

end Sys2Proof.Machine
end

