-- ==== Sys2Proof/Machine/Vault.lean ====
section
/-! DEFINITION. The vault (15): entropy, masks, wrapped keys, statements, signing slots and SPDM; TDISP (17 R379–R381). SPDM and TDISP messages are
carried as their code, their numbers and their payload: the standards that frame them are outside the spec (assumption log 12). -/

namespace Sys2Proof.Machine

/-! ## Identity and digests -/

/-- KEY_FP of a KeyID under its index (R328, 03 R72): HMAC-SHA-384 under K_FP over KeyID₁₆ ‖ DIX₁₆, its first 16 bytes. -/
def State.keyFp (s : State) (k : Nat) : List Byte :=
  slice (hmac384 (kdf s.vlt.kmem "LLY-KFP" [] 256) (leBytes 2 k ++ leBytes 2 (s.key k).dix)) 0 16

/-! ## Statements (03 R72, R73) -/

/-- The base copy in use of a slice: that of its lowest granted MIRRORED image, else 0 (03 R72 MODES). -/
def State.copyInUse (s : State) (d : SliceDef) : Nat :=
  match (maskList d.imageGrant 4).find? (fun i => (s.image i).mirrored) with
  | some i => s.copyShown (s.image i) d.baseCopy
  | none => 0

/-- Fault domains of a slice (03 R69): dies, stacks, fabric ports. -/
def State.faultDomains (s : State) (d : SliceDef) : Nat :=
  let dies := lsum ((List.range 4).map (fun k => if bits d.clusters (16 * k + 15) (16 * k) != 0 then 2 ^ k else 0))
  let imgs := (maskList d.imageGrant 4).flatMap (fun i =>
    let im := s.image i
    (if s.copyShown im d.baseCopy = 0 then im.grains0 else im.grains1).map stackOf)
  let stackBits := d.stackSet ||| lsum ((uniq imgs).map (fun k => 2 ^ k))
  dies + 16 * stackBits + 4096 * d.fabMask

/-- The statement of a slice without its signature, bytes 0x000–0x147 (03 R72). -/
def State.statement (s : State) (d : SliceDef) (nonce : List Byte) : List Byte :=
  let n := d.slice
  let v := tget (dflt ⟨0, 0⟩) s.bnd.vers n
  let own := fun a => leBytes 4 (s.ownedOf n a).length
  let nc := popc d.clusters 64
  let dies := bits (s.faultDomains d) 3 0
  leBytes 1 1 ++ leBytes 1 n ++ leBytes 2 0x01A8 ++ leBytes 4 v.ver ++ leBytes 8 v.tick ++ leBytes 8 d.clusters
    ++ leBytes 1 dies ++ leBytes 1 d.stackSet ++ leBytes 2 (4 * nc) ++ leBytes 4 (120 * nc)
    ++ own .priv ++ own .pod ++ own .save ++ own .sharedRo
    ++ leBytes 4 (s.grainsWhere (fun e => e.st == .poison && e.owner == n)).length
    ++ leBytes 2 d.memRes ++ leBytes 2 d.latTarget ++ leBytes 2 d.foldShare ++ leBytes 1 d.fabMask ++ leBytes 1 d.fabRes ++ leBytes 4 d.fsliceId
    ++ leBytes 4 (s.faultDomains d) ++ leBytes 1 (s.rd R.chkMode % 2 + 2 * s.copyInUse d) ++ leBytes 1 d.imageGrant ++ leBytes 1 d.vf ++ leBytes 1 0
    ++ s.keyFp d.keyid ++ s.deviceId ++ slice nonce 0 32 ++ dgBootrom ++ s.dgOf 0 ++ s.dgOf 1 ++ s.dgOf 2

/-- The statement digest (03 R73). -/
def State.stmtDigest (s : State) (d : SliceDef) : List Byte :=
  let b := s.statement d []
  sha384 (slice b 0 0x68 ++ slice b 0x88 0xC0)

/-- What a response to a slice challenge shows: VERSION and the statement digest (R345). -/
def State.chalShown (s : State) (d : SliceDef) : List Byte := leBytes 4 (tget (dflt ⟨0, 0⟩) s.bnd.vers d.slice).ver ++ s.stmtDigest d

/-- A tail write of a VF takes effect: the challenges it submits are answered from the secret, VERSION and digest of this moment (19 R422). What no entry needs any longer
goes. -/
def State.chalTaken (s : State) (f stamp : Nat) : State :=
  match (s.presents f).bind s.sdef with
  | none => s
  | some d =>
    let needed := fun (a : ChalAt) => a.fn != f || (s.mb f).marks.any (fun x => x.2 == a.stamp) || (s.mb f).exec.any (fun e => e.stamp == a.stamp)
    { s with vlt := { s.vlt with chalAt := s.vlt.chalAt.filter needed ++ [⟨d.slice, f, stamp, tget (dflt none) s.vlt.secrets d.slice, s.chalShown d⟩] } }

/-- A signature by the alias key over `d` (R344), its per-message secret a draw of the DRBG. -/
def State.aliasSign (s : State) (d : List Byte) : List Byte := ecdsaSign s.aliasKey (Config.random s.draws 64) d

/-! ## Measurements (R340, R341) -/

/-- The partition layout digest (R341). -/
def State.layoutDigest (s : State) : List Byte :=
  sha384 ((List.range 64).flatMap (fun n => match s.sdef n with | some d => s.stmtDigest d | none => List.replicate 48 0)
    ++ leBytes 1 (s.rd R.chkMode % 2) ++ leBytes 1 (bits (s.rd R.chkMode) 1 1)
    ++ (List.range 4).flatMap (fun i =>
      let im := s.image i
      if im.bound then leBytes 8 im.baseId ++ leBytes 4 im.ver ++ leBytes 1 (if im.mirrored then 1 else 0) ++ leBytes 1 1 else List.replicate 14 0))

/-- Measurement block `i`, 1–12 (R340). Die identifiers other than the hub's fused one are values the spec does not state. -/
def State.measurement (s : State) (i : Nat) : List Byte :=
  match i with
  | 1 => dgBootrom
  | 2 => s.dgOf 1
  | 3 => s.dgOf 0
  | 4 => s.dgOf 2
  | 5 => leBytes 2 s.vlt.svnVault ++ leBytes 2 s.vlt.svnControl
  | 6 => s.deviceId ++ leBytes 8 (s.otpRow 60) ++ (List.range 4).flatMap (fun k => leBytes 8 (Config.freeNat 1 [k]))
  | 7 => s.modeBytes
  | 8 => s.layoutDigest
  | k => let im := s.image (k - 9)
         if im.bound then sha384 im.header else List.replicate 48 0

/-- The blocks an index asks for (R340): 0 the count, 0xFF all. -/
def State.measured (s : State) (idx : Nat) : List Byte :=
  if idx = 0 then [12] else if idx = 0xFF then (List.range 12).flatMap (fun i => s.measurement (i + 1)) else s.measurement idx

/-- The DeviceID certificate fused at manufacture (25 R543, R335). -/
def State.deviceCert (s : State) : List Byte :=
  slice ((List.range 128).flatMap (fun i => leBytes 8 (s.otpRow (62 + i)))) 0 (min 1024 (s.otpRow 61 % 65536))

/-- The certificate chain of SPDM slot 0 (alias) or 1 (binding) (R335). -/
def State.certChain (s : State) (slot : Nat) : List Byte :=
  Config.rootCert ++ s.deviceCert ++ (if slot = 0 then s.vlt.aliasCert else s.vlt.bindCert)

/-! ## Wrapped keys (R347, R348) -/

/-- The context a purpose requires (R347): the image header's identity, or the slice and its active key's fingerprint. -/
def State.wrapContext (s : State) (purpose sl : Nat) (header : List Byte) : List Byte :=
  if purpose = 1 then leBytes 8 (ihBaseId header) ++ leBytes 4 (ihVer header) ++ List.replicate 20 0
  else leBytes 1 sl ++ List.replicate 7 0 ++ (match s.sdef sl with | some d => s.keyFp d.keyid | none => List.replicate 16 0) ++ List.replicate 8 0

/-- Unwrapping (R348): the first failing check with its status and DETAIL (the offset in the wrapped key, or the step), or the key as a number. -/
def State.unwrap (s : State) (purpose sl : Nat) (header w : List Byte) : Fail × Nat :=
  let klen := fieldAt w 6 1
  let p := fieldAt w 5 1
  let fail := fun (st d : Nat) => ((⟨st, d⟩ : Fail), 0)
  match firstOf [
    (fieldAt w 0 4 != 0x4B57594C, Status.badField, dtl 0 0),
    (fieldAt w 4 1 % 16 != 1, Status.badVersion, 0x0301),
    (fieldAt w 4 1 / 16 != 0, Status.rsvd, 4),
    (fieldAt w 7 1 != 0, Status.rsvd, 7),
    (p == 0 || decide (3 < p), Status.badField, dtl 5 0),
    (klen != (if p = 3 then 48 else 32), Status.badField, dtl 6 0),
    (p != purpose, Status.badField, dtl 5 0),
    (slice w 0x08 16 != s.deviceId, Status.checkFailed, 3)] with
  | some f => (f, 0)
  | none =>
    let head := slice w 0 0x98
    match ecdh s.bindingKey (slice w 0x18 96) with
    | none => fail Status.checkFailed 4
    | some z => match gcmOpen (kdf z "LLY-WRAP" head 256) (slice w 0x98 12) head (slice w 0xA4 48) (slice w 0xD4 16) with
      | none => fail Status.checkFailed 5
      | some plain =>
        let key := slice plain 0 klen
        if (plain.drop klen).any (· != 0) || key.all (· == 0) then fail Status.checkFailed 6
        else if slice w 0x78 32 != s.wrapContext purpose sl header then fail Status.checkFailed 7
        else (⟨Status.ok, 0⟩, leNat key)

/-! ## Entropy and masks (R322–R332) -/

/-- A vault tamper (R325): a class 1 event with SOURCE 3. -/
def State.tamper (s : State) : State :=
  ({ s with mce := { s.mce with fenced := true } }).raise ⟨1, none, Sub.vlt, .secHalt 3 0 0 0 0⟩

/-- Draws that waited for the DRBG are made; a running image whose alias key could not be derived gets it now. -/
def State.drbgBack (s : State) : State :=
  let s := { s with vlt := { s.vlt with drbgStopped := false } }
  let s := if s.lc.nonceWait then s.newNonce else s
  let s := if s.vlt.st = 2 && s.ccx.active.isSome then s.deriveAlias else s
  (if s.lc.verify.isNone then s.debugChanged else s).startWork

/-- A health-test failure (R324): the DRBG stops, or within 1 s (3,906,250 tk) of another one it is a tamper. -/
def State.entropyFailure (s : State) : State :=
  let n := s.rd R.vltTrng
  let s := s.wr R.vltTrng (min 0xFF (n + 1))
  let again := match s.vlt.entropyFail with | some t => decide (s.spn.tick ≤ t + 3906250) | none => false
  let s := { s with vlt := { s.vlt with entropyFail := some s.spn.tick, drbgStopped := true } }
  if again then s.tamper else s

/-- REMASK (R332): fresh seeds are sent to every consumer and every key share is masked anew; without DRBG output the round waits. -/
def execRemask (s : State) : Host.Outcome State Fault Refusal :=
  if s.vlt.drbgStopped then .next s
  else
    let seed := slice (Config.random s.draws 32) 0 32
    let s := { s with mce := { s.mce with keys := tmap (dflt KeyE.init) s.mce.keys (fun k e => e.remask seed k) } }
    .next (s.drawn.bump R.vltRemask 1)

/-- DRBG_RESEED (R322): the DRBG is reseeded from the TRNG; a failed entropy source is not used (R324). -/
def execDrbgReseed (s : State) : Host.Outcome State Fault Refusal :=
  if s.vlt.drbgStopped then .next s else .next s.drawn

/-- ENTROPY_FAIL (R324). -/
def execEntropyFail (s : State) : Host.Outcome State Fault Refusal := .next s.entropyFailure

/-- ENTROPY_RETEST (R324): 1 ms after a failure the source is tested again. -/
def execEntropyRetest (pass : Bool) (s : State) : Host.Outcome State Fault Refusal :=
  if !s.vlt.drbgStopped then .next s
  else if pass then .next s.drbgBack
  else .next s.entropyFailure

/-- GLITCH (R325): the secure domain's voltage monitor trips. -/
def execGlitch (s : State) : Host.Outcome State Fault Refusal := .next s.tamper

/-- LOCKSTEP_MISMATCH (R325): the vault core's lockstep copies disagree. -/
def execLockstepMismatch (s : State) : Host.Outcome State Fault Refusal := .next s.tamper

/-- CLOCK_MONITOR_TRIP (25 R531, R325): a reference clock lies outside its bounds; a glitch tamper. -/
def execClockMonitorTrip (s : State) : Host.Outcome State Fault Refusal := .next s.tamper

/-! ## Signing slots (R343) -/

/-- What a request asks (`VReq.what`). -/
def VW.statement : Nat := 0
def VW.podRoot : Nat := 1
def VW.secret : Nat := 2
def VW.image : Nat := 3
def VW.measurements : Nat := 4
def VW.challenge : Nat := 5
def VW.exchange : Nat := 6

/-- The slot running at a tick, and whether the tick is its first or its last (R343). -/
def slotAt (t : Nat) : Nat × Bool × Bool := (t % 402000 / 6000, t % 6000 == 0, t % 6000 == 5999)

/-- Whether an owner may place another request (R343): one for a slice, 16 for a transport or the administrator. -/
def State.vaultRoom (s : State) (owner : Nat) : Bool :=
  decide ((s.vlt.reqs.filter (fun r => r.owner == owner)).length < (if owner < 64 then 1 else 16))

/-- A request placed for its owner's next slot. -/
def State.askVault (s : State) (owner what : Nat) (nums : List Nat) (data : List Byte) (cmd : Option CmdRef) : State :=
  { s with vlt := { s.vlt with reqs := s.vlt.reqs ++ [⟨owner, what, nums, data, s.spn.tick, none, cmd⟩] } }

/-- Operations of a slot that need fresh randomness, the nonce of a signature or an ephemeral key (R324, R344). -/
def VReq.needsRandom (r : VReq) : Bool := r.what != VW.podRoot && r.what != VW.secret && r.what != VW.image

/-- An SPDM connection of a transport (R337). -/
def State.conn (s : State) (t : Nat) : SpdmConn := tget (dflt SpdmConn.init) s.vlt.conns t

/-- What a signing request signs, formed at the first tick of its slot (R340, R344). -/
def State.formed (s : State) (r : VReq) : List Byte :=
  if r.what = VW.statement then
    match s.sdef r.owner with
    | some d => let b := s.statement d r.data
                b ++ s.aliasSign b
    | none => []
  else if r.what = VW.measurements then
    let b := s.measured (r.nums.getD 1 0) ++ r.data
    b ++ s.aliasSign (Config.transcript (s.conn (r.nums.getD 0 0)).ver 0x60 b)
  else if r.what = VW.challenge then r.data ++ s.aliasSign (Config.transcript (s.conn (r.nums.getD 0 0)).ver 0x03 (s.certChain 0 ++ r.data))
  else if r.what = VW.exchange then
    let b := pubKey (privKey (Config.random (s.draws + 1) 64))
    b ++ s.aliasSign (Config.transcript (s.conn (r.nums.getD 0 0)).ver 0x64 (r.data ++ b))
  else r.data

/-- SIGNING_SLOT (R343): a slot begins at its first tick, and its owner's oldest request is carried out; TICK delivers it at the slot's last
tick. At any other tick, after a halt, or while randomness it needs is not to be had, nothing begins. -/
def execSigningSlot (s : State) : Host.Outcome State Fault Refusal :=
  let p := slotAt s.spn.tick
  if !p.2.1 || s.vlt.st == 4 then .next s
  else match s.vlt.reqs.find? (fun r => r.owner == p.1) with
    | none => .next s
    | some r =>
      if r.begun.isSome || (r.needsRandom && (s.vlt.drbgStopped || !s.aliasUp)) then .next s
      else
        let r' : VReq := { r with begun := some s.spn.tick, data := s.formed r,
                                  nums := if r.what = VW.statement then r.nums ++ (match s.sdef r.owner with
                                    | some d => [(tget (dflt ⟨0, 0⟩) s.bnd.vers d.slice).ver, (tget (dflt ⟨0, 0⟩) s.bnd.vers d.slice).tick]
                                    | none => []) else r.nums }
        let s := { s with vlt := { s.vlt with reqs := s.vlt.reqs.map (fun x => if x == r then r' else x) } }
        .next (if r.what = VW.exchange then s.drawn.drawn else if r.needsRandom then s.drawn else s)

/-- A connection changed. -/
def State.modConn (s : State) (t : Nat) (f : SpdmConn → SpdmConn) : State :=
  { s with vlt := { s.vlt with conns := tmod (dflt SpdmConn.init) s.vlt.conns t f } }

/-- An SPDM message leaves on a transport, 0 in-band (PF0's DOE) or 1 sideband: its response code and parameters, and its payload. -/
def State.spdmOut (s : State) (t code : Nat) (ps : List Nat) (d : List Byte) : State := s.emit .spdm (t :: code :: ps) d

/-- SPDM ERROR with an error code. -/
def State.spdmErr (s : State) (t e : Nat) : State := s.spdmOut t 0x7F [e] []

/-- The result of a request delivered at its slot's last tick (R343). -/
def State.deliver (s : State) (r : VReq) : State :=
  let s := { s with vlt := { s.vlt with reqs := s.vlt.reqs.erase r } }
  let cmd := match r.cmd with
    | some c => (s.mb c.fn).exec.find? (fun e => e.ref == c && !e.done)
    | none => none
  let n := fun i => r.nums.getD i 0
  if r.what = VW.statement then
    match cmd with
    | some e => s.cmdOut e (n 0) 0x2C r.data (leBytes 4 (n 1) ++ leBytes 8 (n 2))
    | none => s
  else if r.what = VW.podRoot then
    let u := s.unwrap 2 r.owner [] r.data
    let s := if u.1.status = Status.ok then { s with pcm := { s.pcm with roots := tset (dflt none) s.pcm.roots (2 * r.owner + n 0) (some u.2) } } else s
    s.finish r.cmd u.1.status u.1.detail []
  else if r.what = VW.secret then
    let u := s.unwrap 3 r.owner [] r.data
    let s := if u.1.status = Status.ok then { s with vlt := { s.vlt with secrets := tset (dflt none) s.vlt.secrets r.owner (some u.2) } } else s
    s.finish r.cmd u.1.status u.1.detail []
  else if r.what = VW.image then
    match s.vlt.binding with
    | none => s
    | some b =>
      let u := s.unwrap 1 0 b.header r.data
      if u.1.status = Status.ok then { s with vlt := { s.vlt with binding := some { b with key := u.2 } } }.bindGrains
      else s.bindFail u.1.status (if u.1.status = Status.checkFailed then 2 ^ 30 + u.1.detail else u.1.detail)
  else if r.what = VW.measurements then s.spdmOut (n 0) 0x60 [n 1, 1] r.data
  else if r.what = VW.challenge then s.spdmOut (n 0) 0x03 [0] r.data
  else
    let c := s.conn (n 0)
    let s := s.modConn (n 0) (fun c => { c with sess := c.sess ++ [⟨n 1, false, 0⟩] })
    s.spdmOut (n 0) 0x64 [n 1, c.ver] r.data

/-- The slot that ends at this tick delivers (R343). -/
def State.endSlot (s : State) : State :=
  let p := slotAt s.spn.tick
  if !p.2.2 then s
  else match s.vlt.reqs.find? (fun r => r.owner == p.1 && r.begun == some (s.spn.tick - 5999)) with
    | some r => s.deliver r
    | none => s

/-- CHALLENGE_RESPONSE (R345): the response of slice `n` falls due and is written to host memory. -/
def execChallengeResponse (n : Nat) (s : State) : Host.Outcome State Fault Refusal :=
  match s.vlt.chals.find? (fun c => c.sl == n && decide (c.due ≤ s.spn.tick)) with
  | none => .next s
  | some c =>
    let s := { s with vlt := { s.vlt with chals := s.vlt.chals.erase c } }
    match (match c.cmd with | some r => (s.mb r.fn).exec.find? (fun e => e.ref == r && !e.done) | none => none) with
    | some e => .next (s.cmdOut e c.dst 0x2C c.data [])
    | none => .next s

/-! ## SPDM (R337–R342) -/

/-- Whether a transport hears messages at all: DOE once configuration space answers, the sideband target once it has an address and does
not ignore the bus (25 R545). -/
def State.hears (s : State) (t : Nat) : Bool := if t = 0 then s.hfp.cfgReady else s.pins.i3cAddr.isSome && !s.pins.i3cDeaf

/-- The answer R342 gives before a request is looked at: Busy until the DeviceID key is held, Busy for what needs the alias key until it is, and
in a halt Unspecified for what is no longer answered. -/
def State.spdmGate (s : State) (open' aliasNeeded : Bool) : Option Nat :=
  if s.vlt.st < 2 then some 0x03
  else if s.vlt.st == 4 then (if open' then none else some 0x05)
  else if aliasNeeded && !s.aliasUp then some 0x03
  else none

/-- A request judged by R342, then handled. -/
def State.spdm (s : State) (t : Nat) (open' aliasNeeded : Bool) (f : State → State) : State :=
  let t := t % 2
  if !s.hears t then s
  else match s.spdmGate open' aliasNeeded with
    | some e => s.spdmErr t e
    | none => f s

/-- A request queued for the transport's slot; the 17th is answered Busy (R343). -/
def State.spdmAsk (s : State) (t what : Nat) (nums : List Nat) (d : List Byte) : State :=
  if s.vaultRoom (64 + t) then s.askVault (64 + t) what nums d none else s.spdmErr t 0x03

/-- GET_VERSION (R337): versions 1.2 and 1.3. -/
def execGetVersion (t : Nat) (s : State) : Host.Outcome State Fault Refusal :=
  .next (s.spdm t true false (fun s => (s.modConn (t % 2) (fun c => { c with vca := 1 })).spdmOut (t % 2) 0x04 [0x12, 0x13] []))

/-- GET_CAPABILITIES (R339) at version `ver` (0x12 or 0x13): the flags CERT, CHAL, MEAS 10b, MEAS_FRESH, ENCRYPT, MAC, KEY_EX, HBEAT, KEY_UPD, by name in
that order, and CTExponent 17. -/
def execGetCapabilities (t ver : Nat) (s : State) : Host.Outcome State Fault Refusal :=
  .next (s.spdm t true false (fun s =>
    (s.modConn (t % 2) (fun c => { c with vca := 2, ver := if ver = 0x12 then 0x12 else 0x13 })).spdmOut (t % 2) 0x61 [17, 1, 1, 2, 1, 1, 1, 1, 1, 1] []))

/-- NEGOTIATE_ALGORITHMS (R339): `offered` says whether every field offers the algorithm the vault selects. -/
def execNegotiateAlgorithms (t : Nat) (offered : Bool) (s : State) : Host.Outcome State Fault Refusal :=
  .next (s.spdm t true false (fun s =>
    if offered then (s.modConn (t % 2) (fun c => { c with vca := 3 })).spdmOut (t % 2) 0x63 [384, 384] [] else s.spdmErr (t % 2) 0x01))

/-- GET_DIGESTS (R338): the digests of slots 0 and 1. -/
def execGetDigests (t : Nat) (s : State) : Host.Outcome State Fault Refusal :=
  .next (s.spdm t true false (fun s => s.spdmOut (t % 2) 0x01 [3] (sha384 (s.certChain 0) ++ sha384 (s.certChain 1))))

/-- GET_CERTIFICATE (R335, R338): `len` bytes at `off` of the chain of a slot. -/
def execGetCertificate (t slot off len : Nat) (s : State) : Host.Outcome State Fault Refusal :=
  .next (s.spdm t true false (fun s =>
    if 1 < slot then s.spdmErr (t % 2) 0x01
    else s.spdmOut (t % 2) 0x02 [slot] (((s.certChain slot).drop off).take len)))

/-- SPDM_CHALLENGE (R338): slot 0, signed by the alias key in the transport's slot. -/
def execSpdmChallenge (t slot : Nat) (nonce : List Byte) (s : State) : Host.Outcome State Fault Refusal :=
  .next (s.spdm t false true (fun s =>
    if slot != 0 then s.spdmErr (t % 2) 0x01 else s.spdmAsk (t % 2) VW.challenge [t % 2] (slice nonce 0 32)))

/-- GET_MEASUREMENTS (R338, R340): index 0 the count, 1–12 a block, 0xFF all; signed on request. -/
def execGetMeasurements (t idx : Nat) (signed : Bool) (nonce : List Byte) (s : State) : Host.Outcome State Fault Refusal :=
  .next (s.spdm t false signed (fun s =>
    if 12 < idx && idx != 0xFF then s.spdmErr (t % 2) 0x01
    else if signed then s.spdmAsk (t % 2) VW.measurements [t % 2, idx] (slice nonce 0 32)
    else s.spdmOut (t % 2) 0x60 [idx, 0] (s.measured idx)))

/-- KEY_EXCHANGE (R337, R338): slot 0; at most 4 sessions of a transport, those being opened among them. -/
def execKeyExchange (t slot : Nat) (data : List Byte) (s : State) : Host.Outcome State Fault Refusal :=
  .next (s.spdm t false true (fun s =>
    let c := s.conn (t % 2)
    let coming := (s.vlt.reqs.filter (fun r => r.owner == 64 + t % 2 && r.what == VW.exchange)).length
    if slot != 0 then s.spdmErr (t % 2) 0x01
    else if 4 ≤ c.sess.length + coming then s.spdmErr (t % 2) 0x0A
    else if !s.vaultRoom (64 + t % 2) then s.spdmErr (t % 2) 0x03
    else (s.modConn (t % 2) (fun c => { c with nextSess := c.nextSess + 1 })).askVault (64 + t % 2) VW.exchange [t % 2, c.nextSess] data none))

/-- A session of a transport. -/
def State.sess (s : State) (t id : Nat) : Option Sess := (s.conn t).sess.find? (fun x => x.id == id)

/-- A session changed. -/
def State.modSess (s : State) (t id : Nat) (f : Sess → Sess) : State :=
  s.modConn t (fun c => { c with sess := lmod c.sess (fun x => x.id == id) f })

/-- A session ends. -/
def State.dropSess (s : State) (t id : Nat) : State :=
  s.modConn t (fun c => { c with sess := c.sess.filter (fun x => x.id != id) })

/-- FINISH (R338): the handshake of session `id` completes where its MAC verifies; otherwise the session is dropped. -/
def execFinish (t id : Nat) (mac : List Byte) (s : State) : Host.Outcome State Fault Refusal :=
  .next (s.spdm t false false (fun s =>
    match s.sess (t % 2) id with
    | none => s.spdmErr (t % 2) 0x01
    | some x =>
      if x.up then s.spdmErr (t % 2) 0x01
      else if Config.finishMac (t % 2) id mac then (s.modSess (t % 2) id (fun x => { x with up := true })).spdmOut (t % 2) 0x65 [id] []
      else (s.dropSess (t % 2) id).spdmErr (t % 2) 0x06))

/-- What an established session is asked. -/
def State.inSess (s : State) (t id : Nat) (f : State → State) : State :=
  match s.sess t id with
  | some x => if x.up then f s else s.spdmErr t 0x01
  | none => s.spdmErr t 0x01

/-- KEY_UPDATE (R338): the session's keys are updated. -/
def execKeyUpdate (t id : Nat) (s : State) : Host.Outcome State Fault Refusal :=
  .next (s.spdm t false false (fun s => s.inSess (t % 2) id (fun s =>
    (s.modSess (t % 2) id (fun x => { x with keys := x.keys + 1 })).spdmOut (t % 2) 0x69 [id] [])))

/-- HEARTBEAT (R338): the session is kept alive. -/
def execHeartbeat (t id : Nat) (s : State) : Host.Outcome State Fault Refusal :=
  .next (s.spdm t false false (fun s => s.inSess (t % 2) id (fun s => s.spdmOut (t % 2) 0x68 [id] [])))

/-- END_SESSION (R338). -/
def execEndSession (t id : Nat) (s : State) : Host.Outcome State Fault Refusal :=
  .next (s.spdm t false false (fun s => s.inSess (t % 2) id (fun s => (s.dropSess (t % 2) id).spdmOut (t % 2) 0x6C [id] [])))

/-- SPDM_UNSUPPORTED (R338): any other request is answered UnsupportedRequest. -/
def execSpdmUnsupported (t : Nat) (s : State) : Host.Outcome State Fault Refusal :=
  .next (s.spdm t false false (fun s => s.spdmErr (t % 2) 0x07))

/-! ## TDISP (17 R379–R381) -/

/-- TDISP error codes. -/
def Tdisp.invalidState : Nat := 0x0004
def Tdisp.invalidInterface : Nat := 0x0101
def Tdisp.invalidNonce : Nat := 0x0102
def Tdisp.entropy : Nat := 0x0103

/-- A TDISP message leaves inside session `id`: its response code, parameters and payload. -/
def State.tdispOut (s : State) (id code : Nat) (ps : List Nat) (d : List Byte) : State := s.emit .tdisp (id :: code :: ps) d

/-- TDISP ERROR. -/
def State.tdispErr (s : State) (id e : Nat) : State := s.tdispOut id 0x7F [e] []

/-- A TDISP request arrives as VENDOR_DEFINED_REQUEST inside session `id` of PF0's DOE (R338, R379); `f` is the VF it names. -/
def State.tdisp (s : State) (id f : Nat) (g : State → State) : State :=
  s.spdm 0 false false (fun s => s.inSess 0 id (fun s => if 63 < f then s.tdispErr id Tdisp.invalidInterface else g s))

/-- Code of a TDISP state. -/
def TdispSt.code : TdispSt → Nat
  | .unlocked => 0 | .locked => 1 | .run => 2 | .error => 3

/-- GET_TDISP_VERSION (R379): 1.0. -/
def execGetTdispVersion (id f : Nat) (s : State) : Host.Outcome State Fault Refusal :=
  .next (s.tdisp id f (fun s => s.tdispOut id 0x01 [0x10] []))

/-- GET_TDISP_CAPABILITIES (R379). -/
def execGetTdispCapabilities (id f : Nat) (s : State) : Host.Outcome State Fault Refusal :=
  .next (s.tdisp id f (fun s => s.tdispOut id 0x02 [] []))

/-- LOCK_INTERFACE_REQUEST (R380): the nonce returned is a draw of the DRBG. -/
def execLockInterfaceRequest (id f : Nat) (s : State) : Host.Outcome State Fault Refusal :=
  .next (s.tdisp id f (fun s =>
    let ok := match s.presents f with | some n => s.exists f && !s.inFault n && !(s.fn f).reset | none => false
    if !ok || (s.fn f).tdisp != .unlocked then s.tdispErr id Tdisp.invalidState
    else if s.vlt.drbgStopped then s.tdispErr id Tdisp.entropy
    else
      ((s.modFn f (fun x => { x with tdisp := .locked, nonce := s.draws })).tdispOut id 0x03 [f] (slice (Config.random s.draws 32) 0 32)).drawn))

/-- GET_DEVICE_INTERFACE_REPORT (R381): the BAR0 range, the slice with its statement VERSION and digest, and GEN. -/
def execGetDeviceInterfaceReport (id f : Nat) (s : State) : Host.Outcome State Fault Refusal :=
  .next (s.tdisp id f (fun s =>
    match (if s.exists f then s.presents f else none) with
    | none => s.tdispErr id Tdisp.invalidState
    | some n => match s.sdef n with
      | none => s.tdispErr id Tdisp.invalidState
      | some d =>
        let bar := tget (dflt 0) (s.fn f).cfg 0 + 2 ^ 32 * tget (dflt 0) (s.fn f).cfg 1
        s.tdispOut id 0x04 [bar, 0x40000, n, (tget (dflt ⟨0, 0⟩) s.bnd.vers n).ver, (s.fn f).gen] (s.stmtDigest d)))

/-- GET_DEVICE_INTERFACE_STATE (R379). -/
def execGetDeviceInterfaceState (id f : Nat) (s : State) : Host.Outcome State Fault Refusal :=
  .next (s.tdisp id f (fun s => s.tdispOut id 0x05 [(s.fn f).tdisp.code] []))

/-- START_INTERFACE_REQUEST (R380): CONFIG_LOCKED with the lock's nonce goes to RUN. -/
def execStartInterfaceRequest (id f : Nat) (nonce : List Byte) (s : State) : Host.Outcome State Fault Refusal :=
  .next (s.tdisp id f (fun s =>
    if (s.fn f).tdisp != .locked then s.tdispErr id Tdisp.invalidState
    else if nonce != slice (Config.random (s.fn f).nonce 32) 0 32 then s.tdispErr id Tdisp.invalidNonce
    else (s.modFn f (fun x => { x with tdisp := .run })).tdispOut id 0x06 [f] []))

/-- STOP_INTERFACE_REQUEST (R380): CONFIG_LOCKED, RUN and ERROR go to CONFIG_UNLOCKED; from the first two GEN advances (R370), and from ERROR
host accesses that waited go on (R369). -/
def execStopInterfaceRequest (id f : Nat) (s : State) : Host.Outcome State Fault Refusal :=
  .next (s.tdisp id f (fun s =>
    let st := (s.fn f).tdisp
    let s := (s.modFn f (fun x => { x with tdisp := .unlocked })).tdispOut id 0x07 [f] []
    if st == .locked || st == .run then s.raiseGens [f] else s.pumpHost))

end Sys2Proof.Machine
end

