-- ==== Sys2Proof/Machine/CmdPart.lean ====
section
/-! DEFINITION. The commands of partition, keys, attestation, images and lifecycle (19 R412–R426). -/

namespace Sys2Proof.Machine

/-! ## Carrying out a command -/

/-- A mailbox command of opcode `op` carried out for function `f`: the next one to start, where its entry satisfies `pick`, starts; the first
of `checks` it fails ends it, or it runs. Without such a command nothing happens. -/
def State.commandIf (s : State) (f op : Nat) (pick : ExecCmd → Bool) (checks : State → ExecCmd → List (Bool × Nat × Nat))
    (run : State → ExecCmd → State) : State :=
  match s.toStart f op with
  | none => s
  | some e =>
    if !pick e then s
    else
      let s := s.startCmd e
      match s.judge e (checks s e) with
      | some t => t
      | none => run s e

/-- The same for any entry of the opcode. -/
def State.command (s : State) (f op : Nat) (checks : State → ExecCmd → List (Bool × Nat × Nat)) (run : State → ExecCmd → State) : State :=
  s.commandIf f op (fun _ => true) checks run

/-- A check that fails with BAD_FIELD at a byte and its lowest bit (R402). -/
def badAt (c : Bool) (off low : Nat) : Bool × Nat × Nat := (c, Status.badField, dtl off low)

/-- Whether an OP field of two bits holds `op`, or a value no form of the opcode has: any of its rows ends such a command. -/
def opIs (off op : Nat) (ops : List Nat) (e : ExecCmd) : Bool :=
  let v := fieldAt e.entry off 1 % 4
  v == op || !ops.contains v

/-! ## Slice definitions and grain records (R412–R415) -/

/-- The slice definition in a command (03 R52). -/
def defOf (c : List Byte) : SliceDef :=
  let p := slice c 0x0C 32
  { slice := fieldAt p 0 1, vf := fieldAt p 2 1, baseCopy := fieldAt p 3 1 % 2, keyid := fieldAt p 4 2, memRes := fieldAt p 6 2,
    clusters := fieldAt p 8 8, stackSet := fieldAt p 0x10 1, imageGrant := fieldAt p 0x11 1 % 16, latTarget := fieldAt p 0x12 2,
    foldShare := fieldAt p 0x14 2 % 512, fabMask := fieldAt p 0x16 1, fabRes := fieldAt p 0x17 1 % 128, fsliceId := fieldAt p 0x18 4,
    grains := fieldAt p 0x1C 3 }

/-- The first nonzero reserved byte of a definition, counted within the command (03 R52). -/
def defRsvd (c : List Byte) : Option Nat :=
  ([(0x0D, 4), (0x0F, 1), (0x1D, 4), (0x21, 1), (0x23, 7), (0x2B, 0)].find? (fun e => fieldAt c e.1 1 >>> e.2 != 0)).map Prod.fst

/-- The checks of a definition's fields in field order (03 R52, 00 R559). -/
def defChecks (c : List Byte) (hdr : Nat) : List (Bool × Nat × Nat) :=
  let d := defOf c
  let fab := d.fabMask != 0
  [(fieldAt c 0x0D 1 % 16 != 1, Status.badVersion, 0x0301),
   ((defRsvd c).isSome, Status.rsvd, (defRsvd c).getD 0),
   badAt (decide (63 < d.slice) || d.slice != hdr) 0x0C 0,
   badAt (decide (63 < d.vf)) 0x0E 0,
   badAt (d.keyid == 0 || decide (1023 < d.keyid)) 0x10 0,
   badAt (d.memRes == 0 || decide (19200 < d.memRes)) 0x12 0,
   badAt (d.stackSet == 0 || decide (2400 * popc d.stackSet 8 < d.memRes)) 0x1C 0,
   badAt (decide (256 < d.foldShare) || (d.foldShare == 0) != (d.clusters == 0)) 0x20 0,
   badAt (decide (64 < d.fabRes) || (d.fabRes == 0) == fab) 0x23 0,
   badAt ((d.fsliceId == 0) == fab) 0x24 0,
   badAt (d.grains == 0 || decide (nGrains < d.grains)) 0x28 0]

/-- SLICE_STAGE (R412): the definition replaces one of the same slice in the loading bank. -/
def execSliceStage (s : State) : Host.Outcome State Fault Refusal :=
  .next (s.command pf0 Op.sliceStage
    (fun s e => defChecks e.entry e.slice ++ [badAt ((s.bank s.chk.load).destroys.contains e.slice) 0x0C 0])
    (fun s e =>
      let d := defOf e.entry
      let put : Bank → Bank := fun k => { k with defs := k.defs.filter (fun x => x.slice != d.slice) ++ [d] }
      (s.loading put).finish (some e.ref) Status.ok 0 (leBytes 1 s.chk.load)))

/-- SLICE_DESTROY (R413). -/
def execSliceDestroy (s : State) : Host.Outcome State Fault Refusal :=
  .next (s.command pf0 Op.sliceDestroy
    (fun s e => [badAt ((s.sdef e.slice).isNone || (s.bank s.chk.load).defs.any (fun d => d.slice == e.slice)) 0x0A 0])
    (fun s e =>
      let put : Bank → Bank := fun k => { k with destroys := k.destroys.filter (· != e.slice) ++ [e.slice] }
      (s.loading put).finish (some e.ref) Status.ok 0 (leBytes 1 s.chk.load)))

/-- OP of a grain change record (R415). -/
def recOp (r : List Byte) : Nat := fieldAt r 3 1 % 8
def recAttr (r : List Byte) : Nat := bits (fieldAt r 3 1) 5 3
def recStacks (r : List Byte) : Nat := bits (fieldAt r 4 2) 13 6
def recCount (r : List Byte) : Nat := fieldAt r 6 2

/-- The grain change record of slice `n` in 8 bytes (R415). -/
def recOf (n : Nat) (r : List Byte) : GrainChg :=
  { slice := n, op := (match recOp r with | 1 => .give | 2 => .giveAny | 3 => .take | _ => .setAttr), grain := fieldAt r 0 3,
    attr := GAttr.ofCode (recAttr r), shgrp := fieldAt r 4 1 % 64, onStacks := recStacks r, count := recCount r, image := 0, copy := 0, igrain := 0 }

/-- POD grains a record gives (09 R195). -/
def GrainChg.podGiven (r : GrainChg) : Nat := if (r.op == .give || r.op == .giveAny) && r.attr == .pod then r.count else 0

/-- The checks of one record (R415), where `pods` POD grains are in effect and staged before it (09 R195). -/
def recChecks (r : List Byte) (pods : Nat) : List (Bool × Nat × Nat) :=
  let op := recOp r
  let a := recAttr r
  let rs := if fieldAt r 3 1 / 64 != 0 then some 3 else if fieldAt r 5 1 / 64 != 0 then some 5 else none
  [(rs.isSome, Status.rsvd, rs.getD 0),
   badAt (decide (nGrains ≤ fieldAt r 0 3)) 0 0,
   badAt (op == 0 || decide (4 < op) || (op == 2 && fieldAt r 0 3 != 0)) 3 0,
   badAt (decide (3 < a) || (op == 3 && a != 0) || (op == 4 && a != 0 && a != 3)) 3 3,
   badAt (a != 3 && fieldAt r 4 1 % 64 != 0) 4 0,
   badAt ((recStacks r == 0) == (op == 2)) 4 6,
   badAt (recCount r == 0 || (op != 2 && decide (nGrains < fieldAt r 0 3 + recCount r))
     || ((recOf 0 r).podGiven != 0 && decide (49152 < pods + (recOf 0 r).podGiven))) 6 0]

/-- The records of a list judged in order: the first that fails, its DETAIL with its index, or all of them (R414). -/
def recList (n : Nat) (d : List Byte) (pods i : Nat) : Nat → Fail ⊕ List GrainChg
  | 0 => .inr []
  | k + 1 =>
    let r := slice d (8 * i) 8
    match firstOf (recChecks r pods) with
    | some f => .inl ⟨f.status, f.detail + 65536 * i⟩
    | none => match recList n d (pods + (recOf n r).podGiven) (i + 1) k with
      | .inl f => .inl f
      | .inr l => .inr (recOf n r :: l)

/-- GRAIN_STAGE (R414): every record is checked before any is placed; the bank holds at most 4,096. -/
def execGrainStage (s : State) : Host.Outcome State Fault Refusal :=
  .next (s.command pf0 Op.grainStage
    (fun s e => [(fieldAt e.entry 0x0C 2 == 0, Status.okEmpty, 0),
      badAt (decide (4096 < (s.bank s.chk.load).recs.length + fieldAt e.entry 0x0C 2)) 0x0C 0])
    (fun s e =>
      let held := lsum ((s.bank 0).recs.map GrainChg.podGiven) + lsum ((s.bank 1).recs.map GrainChg.podGiven)
      let now := (s.grainsWhere (fun g => g.st == .owned && g.attr == .pod)).length
      match recList e.slice e.data (now + held) 0 (fieldAt e.entry 0x0C 2) with
      | .inl f => s.finish (some e.ref) f.status f.detail []
      | .inr l =>
        let put : Bank → Bank := fun k => { k with recs := k.recs ++ l }
        let s := s.loading put
        s.finish (some e.ref) Status.ok 0 (leBytes 1 s.chk.load ++ [0] ++ leBytes 2 (s.bank s.chk.load).recs.length)))

/-! ## Checking and committing (R416–R418) -/

/-- BANK of a command. -/
def bankOf (e : ExecCmd) : Nat := fieldAt e.entry 0x0C 1 % 2

/-- CHECK (R416). -/
def execCheck (s : State) : Host.Outcome State Fault Refusal :=
  .next (s.command pf0 Op.check
    (fun s e => [((s.bank (bankOf e)).st == .empty, Status.okEmpty, 0)])
    (fun s e => s.askCheck (bankOf e) (some e.ref)))

/-- COMMIT (R417): AT becomes the bank's named stamp. -/
def execCommit (s : State) : Host.Outcome State Fault Refusal :=
  .next (s.command pf0 Op.commit (fun _ _ => []) (fun s e => s.arm (bankOf e) (fieldAt e.entry 0x10 8) (some e.ref)))

/-- CANCEL (R418). -/
def execCancel (s : State) : Host.Outcome State Fault Refusal :=
  .next (s.command pf0 Op.cancel
    (fun s e => [((s.bank (bankOf e)).st == .empty, Status.okEmpty, 0)])
    (fun s e =>
      let r := s.cancelBank (bankOf e)
      r.1.finish (some e.ref) (if r.2 then Status.ok else Status.busyRetry) 0 []))

/-! ## Keys and attestation (R419–R422) -/

/-- KEY_FIND (R419). -/
def execKeyFind (s : State) : Host.Outcome State Fault Refusal :=
  .next (s.command pf0 Op.keyFind
    (fun _ e => [badAt (decide (1023 < fieldAt e.entry 0x0C 2)) 0x0C 0])
    (fun s e =>
      let lo := max 1 (fieldAt e.entry 0x0C 2)
      let k := ((List.range 1024).find? (fun k => decide (lo ≤ k) && (s.key k).st == .free && decide ((s.key k).dix < 65535))).getD 0
      s.finish (some e.ref) Status.ok 0 (leBytes 2 k ++ leBytes 2 (if k = 0 then 0 else (s.key k).dix))))

/-- The statuses of a command that needs the alias key (15 R336). -/
def State.needsAlias (s : State) : Bool × Nat × Nat := (!s.aliasUp, Status.busyInit, s.rf R.hfpRetry 23 0)

/-- STATEMENT_GET (R420): the slice's request waits for its signing slot. -/
def execStatementGet (f : Nat) (s : State) : Host.Outcome State Fault Refusal :=
  .next (s.command f Op.statementGet
    (fun s e => [s.needsAlias, (!s.vaultRoom e.slice, Status.busyRetry, 0)])
    (fun s e => s.askVault e.slice VW.statement [fieldAt e.entry 0x2C 8] (slice e.entry 0x0C 32) (some e.ref)))

/-- SECRET_INSTALL (R421). -/
def execSecretInstall (f : Nat) (s : State) : Host.Outcome State Fault Refusal :=
  .next (s.command f Op.secretInstall
    (fun s e => [(!s.vaultRoom e.slice, Status.busyRetry, 0)])
    (fun s e => s.askVault e.slice VW.secret [] e.data (some e.ref)))

/-- The response to a slice challenge (15 R345): VERSION and the statement digest, and HMAC-SHA-384 under the slice secret over
"LLY-SLICE-RSP" ‖ 0x00 ‖ NONCE ‖ SLICE ‖ VERSION ‖ digest. -/
def chalBytes (n secret : Nat) (shown nonce : List Byte) : List Byte :=
  shown ++ hmac384 (leBytes 48 secret) (ascii "LLY-SLICE-RSP" ++ 0 :: nonce ++ leBytes 1 n ++ shown)

/-- What a challenge of function `f` submitted at `stamp` is answered from (R422); of a tail write that left nothing, what is in force now. -/
def State.chalFrom (s : State) (f stamp n : Nat) : Option (Nat × List Byte) :=
  match s.vlt.chalAt.find? (fun a => a.fn == f && a.stamp == stamp) with
  | some a => a.secret.map (fun k => (k, a.shown))
  | none => match s.sdef n, tget (dflt none) s.vlt.secrets n with
    | some d, some k => some (k, s.chalShown d)
    | _, _ => none

/-- CHALLENGE (R422): the response falls due 160 tk after the effective tick of the tail write that submitted it. -/
def execChallenge (f : Nat) (s : State) : Host.Outcome State Fault Refusal :=
  .next (s.command f Op.challenge
    (fun s e => [s.needsAlias, ((s.chalFrom e.ref.fn e.stamp e.slice).isNone, Status.badField, 0)])
    (fun s e =>
      match s.chalFrom e.ref.fn e.stamp e.slice with
      | some x =>
        let c : Chal := ⟨e.slice, e.stamp + 162, fieldAt e.entry 0x2C 8, chalBytes e.slice x.1 x.2 (slice e.entry 0x0C 32), some e.ref⟩
        { s with vlt := { s.vlt with chals := s.vlt.chals ++ [c] } }
      | none => s.finish (some e.ref) Status.badField 0 []))

/-! ## Binding an image (R423) -/

/-- Whether some host grant is owned by the system tag (12 R275). -/
def State.systemGrant (s : State) : Bool := (List.range 64).any (fun g => s.grantOwner g == 0xFF)

/-- IMAGE_BIND (R423, 15 R351): phase 1 judges the image, the header and the grants; the content key is asked of slot 66 in phase 2. -/
def execImageBind (s : State) : Host.Outcome State Fault Refusal :=
  .next (s.command pf0 Op.imageBind
    (fun s e =>
      let m := bit (fieldAt e.entry 0x0C 1) 2
      [badAt ((s.image (fieldAt e.entry 0x0C 1 % 4)).bound || bit (s.rd R.chkMode) 1) 0x0C 0,
       (s.vlt.binding.isSome, Status.busyRetry, 0),
       (!s.systemGrant, Status.checkFailed, 0)] ++ s.headerCheck (slice e.data 0 128) m ++ [(!s.vaultRoom 66, Status.busyRetry, 0)])
    (fun s e =>
      let w := slice e.data 128 228
      let b : Bind := {
        image := fieldAt e.entry 0x0C 1 % 4, phase := 2, mirrored := bit (fieldAt e.entry 0x0C 1) 2, addr := fieldAt e.entry 0x10 8,
        header := slice e.data 0 128, key := 0, next := 0, loaded := 0, plain := [], wrote := [], failing := none, cmd := some e.ref }
      ({ s with vlt := { s.vlt with binding := some b } }).askVault 66 VW.image [] w none))

/-- IMAGE_LOAD_DONE (15 R351, 06 R130): every record is loaded and no write of the loader is outstanding. A tile that fails its check or a bad spare
range ends the bind; otherwise the grains written are checksum-verified, and the seal phase starts. -/
def execImageLoadDone (s : State) : Host.Outcome State Fault Refusal :=
  match s.vlt.binding with
  | none => .next s
  | some b =>
    if b.phase != 4 || b.failing.isSome || b.loaded != ihGrains b.header || s.mce.reqs.any (fun r => r.cls == .img) then .next s
    else match b.firstBad with
      | some tix => .next (s.bindFail Status.checkFailed (3 * 2 ^ 30 + tix % 2 ^ 30))
      | none =>
        let table := (List.range (ihSpares b.header)).map b.spareBytes
        if table.any b.spareBad then .next (s.bindFail Status.badField (dtl 0x30 0))
        else
          let im := { s.image b.image with spares := table.map spareAt, loaded := b.wrote }
          let s := { s with bnd := { s.bnd with images := tset (dflt ImageE.init) s.bnd.images b.image im },
                            vlt := { s.vlt with binding := some { b with phase := 5, plain := [] } } }
          .next s.pumpBind

/-! ## Lifecycle and debug (R425, R426) -/

/-- An authorisation written into LLY_LC_AUTH, the rest of which is zero (16 R360). -/
def State.putAuth (s : State) (d : List Byte) : State :=
  (List.range 48).foldl (fun s i => s.wr (R.lcAuth + 4 * i) (fieldAt d (4 * i) 4)) s

/-- LC_TRANSITION (R425): TARGET and the authorisation are written and GO follows. -/
def execLcTransition (s : State) : Host.Outcome State Fault Refusal :=
  .next (s.command pf0 Op.lcTransition
    (fun s e =>
      let t := fieldAt e.entry 0x0C 1
      let n := fieldAt e.entry 0x18 2
      [badAt (t == 0 || (decide (20 < t) && t != 0xFF)) 0x0C 0, badAt (n != 0 && n != 32 && n != 192) 0x18 0,
       (s.lc.burn.isSome, Status.busyRetry, 0)])
    (fun s e => ((s.putAuth e.data).wf R.lcReq 7 0 (fieldAt e.entry 0x0C 1)).lcGo))

/-- The forms of DEBUG_CTL. -/
def debugOps : List Nat := [1, 2]

/-- DEBUG_CTL_OPEN (R426): the authorisation is written into LLY_LC_AUTH and DBG_OPEN follows. -/
def execDebugCtlOpen (s : State) : Host.Outcome State Fault Refusal :=
  .next (s.commandIf pf0 Op.debugCtl (opIs 0x0C 1 debugOps)
    (fun s e => [badAt (fieldAt e.entry 0x0C 1 % 4 != 1) 0x0C 0, (s.lcCode == 0x11 && s.slices.isEmpty && s.lc.verify.isSome, Status.busyRetry, 0)])
    (fun s e => (s.putAuth e.data).lcOpen))

/-- DEBUG_CTL_CLOSE (R426): completes once the new alias key is derived. -/
def execDebugCtlClose (s : State) : Host.Outcome State Fault Refusal :=
  .next (s.commandIf pf0 Op.debugCtl (opIs 0x0C 2 debugOps)
    (fun s e => [badAt (fieldAt e.entry 0x0C 1 % 4 != 2) 0x0C 0, badAt (fieldAt e.entry 0x10 8 != 0) 0x10 0, (!s.lc.debug, Status.okEmpty, 0)])
    (fun s _ => s.closeDebug.debugChanged))

end Sys2Proof.Machine
end

