-- ==== Sys2Proof/Machine/CmdOps.lean ====
section
/-! DEFINITION. The commands of pods, slots, experts and queues (20 R430–R443). -/

namespace Sys2Proof.Machine

/-! ## Pods (R430–R437) -/

/-- HANDLE of a command. -/
def handleOf (e : ExecCmd) : Nat := fieldAt e.entry 0x0C 4

/-- The checks that name HANDLE for a command on a pod: registered, and not RETIRED (R428, 09 R211). -/
def State.podGone (s : State) (e : ExecCmd) : Bool :=
  match s.pod e.slice (handleOf e) with
  | some p => p.life == .retired
  | none => true

/-- POD_OPEN (R430): decided in class 8. -/
def execPodOpen (f : Nat) (s : State) : Host.Outcome State Fault Refusal :=
  .next (s.command f Op.podOpen
    (fun s e =>
      let flags := fieldAt e.entry 0x10 1
      let train := bit flags 1 && !bit flags 0
      let len := fieldAt e.entry 0x14 4
      [badAt ((train || len == 0) && (s.pod e.slice (handleOf e)).isSome) 0x0C 0, badAt train 0x10 1, badAt (len == 0) 0x14 0])
    (fun s e =>
      let flags := fieldAt e.entry 0x10 1
      s.podEv e.slice (handleOf e) PodW.opened
        [fieldAt e.entry 0x18 8, fieldAt e.entry 0x14 4, fieldAt e.entry 0x20 4, flags % 2, bits flags 1 1] (some e.ref)))

/-- The RESULT of POD_QUERY (R432). -/
def State.podQuery (s : State) (sl h : Nat) (p : Pod) : List Byte :=
  leBytes 8 p.pid ++ leBytes 4 p.gen
    ++ leBytes 1 (p.res.code + 8 * p.life.code + 32 * p.train + (if p.unsaved then 128 else 0))
    ++ leBytes 1 (min 255 (s.bindings sl h)) ++ leBytes 2 p.fmode

/-- POD_QUERY (R432): a RETIRED pod is reported until its entry is freed. -/
def execPodQuery (f : Nat) (s : State) : Host.Outcome State Fault Refusal :=
  .next (s.command f Op.podQuery (fun _ _ => [])
    (fun s e =>
      match s.pod e.slice (handleOf e) with
      | none => s.finish (some e.ref) Status.badField (dtl 0x0C 0) []
      | some p => s.finish (some e.ref) Status.ok 0 (s.podQuery e.slice (handleOf e) p)))

/-- The length of the husk a pod now has: as saved, or as it would be written. -/
def Pod.huskSize (p : Pod) : Nat := if p.unsaved then huskLength p.plainF.length p.plainT.length else p.huskLen

/-- A put or rebase takes the next place in admission order and starts when nothing before it holds it back (09 R175, R199). -/
def State.addJob (s : State) (j : PodJob) : State :=
  let j := { j with order := 4096 * s.fld.nextOrder }
  { s with fld := { s.fld with nextOrder := s.fld.nextOrder + 1 }, pcm := { s.pcm with jobs := s.pcm.jobs ++ [j] } }.startWork

/-- POD_PUT (R433, 09 R205). -/
def execPodPut (f : Nat) (s : State) : Host.Outcome State Fault Refusal :=
  .next (s.command f Op.podPut
    (fun s e =>
      let cap := fieldAt e.entry 0x10 4
      let p := s.pod e.slice (handleOf e)
      [badAt (s.podGone e || (match p with | some p => p.res == .absent || p.res == .fetching | none => true)) 0x0C 0,
       badAt (cap == 0 || (match p with | some p => decide (cap < p.huskSize) | none => false)) 0x10 0])
    (fun s e =>
      match s.pod e.slice (handleOf e) with
      | none => s.finish (some e.ref) Status.badField (dtl 0x0C 0) []
      | some p =>
        if !p.unsaved then s.finish (some e.ref) Status.okEmpty 0 (leBytes 4 p.savedGen ++ leBytes 4 p.huskLen ++ leBytes 8 p.pid)
        else s.addJob ⟨e.slice, handleOf e, false, 0, false, fieldAt e.entry 0x18 8, p.huskSize, p.gen, 0, some e.ref⟩))

/-- POD_PIN (R434): decided in class 8. -/
def execPodPin (f : Nat) (s : State) : Host.Outcome State Fault Refusal :=
  .next (s.command f Op.podPin (fun _ _ => []) (fun s e => s.podEv e.slice (handleOf e) PodW.pin [] (some e.ref)))

/-- POD_UNPIN (R434): decided in class 6. -/
def execPodUnpin (f : Nat) (s : State) : Host.Outcome State Fault Refusal :=
  .next (s.command f Op.podUnpin (fun _ _ => []) (fun s e => s.podEv e.slice (handleOf e) PodW.unpin [] (some e.ref)))

/-- POD_EVICT (R434): decided in class 6. -/
def execPodEvict (f : Nat) (s : State) : Host.Outcome State Fault Refusal :=
  .next (s.command f Op.podEvict (fun _ _ => [])
    (fun s e => s.podEv e.slice (handleOf e) PodW.evict [fieldAt e.entry 0x10 1 % 2] (some e.ref)))

/-- POD_CLOSE (R434): decided in class 6. -/
def execPodClose (f : Nat) (s : State) : Host.Outcome State Fault Refusal :=
  .next (s.command f Op.podClose (fun _ _ => [])
    (fun s e => s.podEv e.slice (handleOf e) PodW.close [fieldAt e.entry 0x10 1 % 2] (some e.ref)))

/-- POD_REBASE (R435, 09 R213): starts in class 8 as a STEP does. -/
def execPodRebase (f : Nat) (s : State) : Host.Outcome State Fault Refusal :=
  .next (s.command f Op.podRebase
    (fun s e => [badAt (s.podGone e || (match s.pod e.slice (handleOf e) with | some p => p.opt == 0 || p.train != 2 | none => true)) 0x0C 0])
    (fun s e => s.addJob ⟨e.slice, handleOf e, true, 0, false, 0, 0, fieldAt e.entry 0x10 8, 0, some e.ref⟩))

/-- A pod's FMODE set where `m` has ones (R436): descriptors admitted before now keep the mode they were admitted under (01 R22, 09 R214). -/
def State.setFmode (s : State) (sl h m v : Nat) : State :=
  let s := s.modPod sl h (fun p => { p with fmode := (p.fmode &&& (0xFFFF ^^^ m)) ||| v, modes := p.modes ++ [(4096 * s.fld.nextOrder, p.fmode)] })
  { s with fld := { s.fld with nextOrder := s.fld.nextOrder + 1 } }

/-- POD_SET_MODE (R436, 09 R214). -/
def execPodSetMode (f : Nat) (s : State) : Host.Outcome State Fault Refusal :=
  .next (s.command f Op.podSetMode
    (fun s e =>
      let m := fieldAt e.entry 0x10 2
      let n := match s.pod e.slice (handleOf e) with | some p => if p.fetched then p.layers.length else 0 | none => 0
      [badAt (s.podGone e) 0x0C 0, badAt (m >>> n != 0) 0x10 0, badAt (fieldAt e.entry 0x12 2 &&& (0xFFFF ^^^ m) != 0) 0x12 0,
       (m == 0, Status.okEmpty, 0)])
    (fun s e =>
      (s.setFmode e.slice (handleOf e) (fieldAt e.entry 0x10 2) (fieldAt e.entry 0x12 2)).finish (some e.ref) Status.ok 0 []))

/-- POD_KEY_BIND (R437, 09 R218): the unwrap runs in the slice's signing slot. -/
def execPodKeyBind (f : Nat) (s : State) : Host.Outcome State Fault Refusal :=
  .next (s.command f Op.podKeyBind
    (fun s e => [(!s.vaultRoom e.slice, Status.busyRetry, 0)])
    (fun s e => s.askVault e.slice VW.podRoot [fieldAt e.entry 0x0C 1 % 2] e.data (some e.ref)))

/-! ## Slots and experts (R438, R439) -/

/-- SLOT_CLAIM (R438): decided in class 9; 256 stands for any free slot. -/
def execSlotClaim (f : Nat) (s : State) : Host.Outcome State Fault Refusal :=
  .next (s.command f Op.slotClaim
    (fun s e =>
      let bad := bit (fieldAt e.entry 0x11 1) 0 && fieldAt e.entry 0x10 1 != 0
      [badAt (bad && s.podGone e) 0x0C 0, badAt bad 0x11 0])
    (fun s e => s.raise ⟨9, some e.slice, Sub.pcm,
      .claim e.slice false 0 (if bit (fieldAt e.entry 0x11 1) 0 then 256 else fieldAt e.entry 0x10 1) (handleOf e)
        (fieldAt e.entry 0x13 1 % 4) (fieldAt e.entry 0x14 4) (some e.ref)⟩))

/-- SLOT_RELEASE (R439): decided in class 6. -/
def execSlotRelease (f : Nat) (s : State) : Host.Outcome State Fault Refusal :=
  .next (s.command f Op.slotRelease (fun _ _ => [])
    (fun s e => s.raise ⟨6, some e.slice, Sub.pcm, .release e.slice false 0 (fieldAt e.entry 0x10 1) 0 (some e.ref)⟩))

/-- EXPERT_CLAIM (R438): an ABSENT or FETCHING pod is awaited first; then the claim is decided in class 9. -/
def execExpertClaim (f : Nat) (s : State) : Host.Outcome State Fault Refusal :=
  .next (s.command f Op.expertClaim
    (fun s e => [badAt (s.podGone e) 0x0C 0])
    (fun s e =>
      let h := handleOf e
      let layer := fieldAt e.entry 0x10 2
      let spare := fieldAt e.entry 0x12 1 % 16
      let prio := fieldAt e.entry 0x13 1 % 4
      let seq := fieldAt e.entry 0x14 4
      let away : Bool := match s.pod e.slice h with | some p => p.res == .absent || p.res == .fetching | none => false
      if away then
        let w : PodWait := ⟨e.slice, h, 2, layer, spare, prio, seq, some e.ref⟩
        { s with pcm := { s.pcm with waits := s.pcm.waits ++ [w] } }.wantPod e.slice h
      else s.raise ⟨9, some e.slice, Sub.pcm, .claim e.slice true layer spare h prio seq (some e.ref)⟩))

/-- EXPERT_RELEASE (R439): decided in class 6. -/
def execExpertRelease (f : Nat) (s : State) : Host.Outcome State Fault Refusal :=
  .next (s.command f Op.expertRelease (fun _ _ => [])
    (fun s e => s.raise ⟨6, some e.slice, Sub.pcm,
      .release e.slice true (fieldAt e.entry 0x10 2) (fieldAt e.entry 0x12 1 % 16) 0 (some e.ref)⟩))

/-! ## Queues (R440–R443) -/

/-- QUEUE of a command. -/
def queueOf (e : ExecCmd) : Nat := fieldAt e.entry 0x0C 2 % 4096

/-- A queue command raised for decision (R440–R442). -/
def State.queueEv (s : State) (cls what : Nat) (args : List Nat) (e : ExecCmd) (q : Nat) : State :=
  s.raise ⟨cls, some e.slice, Sub.dpa, .queueOp e.slice q what args (some e.ref)⟩

/-- QUEUE_CREATE (R440): decided in class 8. -/
def execQueueCreate (f : Nat) (s : State) : Host.Outcome State Fault Refusal :=
  .next (s.command f Op.queueCreate
    (fun s e =>
      let b := fieldAt e.entry 0x0C 1
      let kind := b % 16
      let depth := fieldAt e.entry 0x0E 2 % 8192
      let pm := bit b 6 && kind != 1
      let dep := depth == 0 || decide (4096 < depth)
      let sq := fieldAt e.entry 0x10 8 % 4096 != 0
      let cq := fieldAt e.entry 0x18 8 % 4096 != 0
      let barred := match s.sdef e.slice with
        | some d => (kind != 3 && d.clusters == 0) || (kind == 2 && d.foldShare == 0)
        | none => true
      [(bit (s.rd R.chkMode) 1, Status.notPermitted, 1),
       badAt (kind == 0 || decide (3 < kind) || (barred && (pm || dep || sq || cq))) 0x0C 0,
       badAt pm 0x0C 6, badAt dep 0x0E 0, badAt sq 0x10 0, badAt cq 0x18 0])
    (fun s e =>
      let b := fieldAt e.entry 0x0C 1
      s.queueEv 8 0 [b % 16, fieldAt e.entry 0x0E 2 % 8192, bits b 5 4, bits b 6 6, fieldAt e.entry 0x10 8, fieldAt e.entry 0x18 8,
        fieldAt e.entry 0x0D 1 % 32, e.ref.gen] e 0))

/-- QUEUE_DESTROY (R441): decided in class 6. -/
def execQueueDestroy (f : Nat) (s : State) : Host.Outcome State Fault Refusal :=
  .next (s.command f Op.queueDestroy (fun _ _ => []) (fun s e => s.queueEv 6 1 [] e (queueOf e)))

/-- QUEUE_FLUSH (R441): decided in class 6. -/
def execQueueFlush (f : Nat) (s : State) : Host.Outcome State Fault Refusal :=
  .next (s.command f Op.queueFlush (fun _ _ => []) (fun s e => s.queueEv 6 2 [] e (queueOf e)))

/-- QUEUE_SUSPEND with OP `op` (R442), decided in class 10 as queue operation 2 + `op`. A command whose OP is 0 is ended by any of its rows. -/
def State.suspendRow (s : State) (f op : Nat) : State :=
  s.commandIf f Op.queueSuspend (opIs 0x0E op [1, 2, 3])
    (fun s e =>
      let bad := fieldAt e.entry 0x0E 1 % 4 != op
      [badAt (bad && (s.queue e.slice (queueOf e)).isNone) 0x0C 0, badAt bad 0x0E 0])
    (fun s e => s.queueEv 10 (2 + op) [] e (queueOf e))

/-- SUSPEND (R442). -/
def execSuspend (f : Nat) (s : State) : Host.Outcome State Fault Refusal := .next (s.suspendRow f 1)

/-- SUSPEND_SAVE (R442). -/
def execSuspendSave (f : Nat) (s : State) : Host.Outcome State Fault Refusal := .next (s.suspendRow f 2)

/-- RESUME (R442). -/
def execResume (f : Nat) (s : State) : Host.Outcome State Fault Refusal := .next (s.suspendRow f 3)

/-- The 48-byte record of QUEUE_COUNTS (R443). -/
def State.queueCounts (s : State) (sl q : Nat) (x : Queue) : List Byte :=
  leBytes 8 x.submitted ++ leBytes 8 x.admitted ++ leBytes 8 x.refused ++ leBytes 8 x.completed ++ leBytes 8 x.cancelled
    ++ leBytes 2 x.jgen ++ leBytes 1 (s.qstat sl q % 4) ++ List.replicate 5 0

/-- QUEUE_COUNTS (R443). -/
def execQueueCounts (f : Nat) (s : State) : Host.Outcome State Fault Refusal :=
  .next (s.command f Op.queueCounts
    (fun s e => [badAt ((s.queue e.slice (queueOf e)).isNone) 0x0C 0])
    (fun s e =>
      match s.queue e.slice (queueOf e) with
      | none => s
      | some x => s.cmdOut e (fieldAt e.entry 0x10 8) 0x10 (s.queueCounts e.slice (queueOf e) x) []))

end Sys2Proof.Machine
end

