-- ==== Sys2Proof/Machine/Control.lean ====
section
/-! DEFINITION. The control complex (21): firmware load and update, hand-off and rollback, restarts of the control cores with what
becomes of the commands they carried (R401), and the firmware log. Components 0–4 run on cores 0, 1, 2, 3, 3 (R453). -/

namespace Sys2Proof.Machine

/-- The core of a component (R453). -/
def coreOf (comp : Nat) : Nat := if comp = 4 then 3 else comp

/-- The components of a core, as a mask (R453). -/
def compMask (core : Nat) : Nat := if core = 3 then 24 else 2 ^ core

/-- A control core's record. -/
def State.core (s : State) (c : Nat) : Core := tget (dflt Core.init) s.ccx.cores c

/-- The same changed. -/
def State.modCore (s : State) (c : Nat) (f : Core → Core) : State :=
  { s with ccx := { s.ccx with cores := tmod (dflt Core.init) s.ccx.cores c f } }

/-- The control complex changed. -/
def State.modCcx (s : State) (f : Ccx → Ccx) : State := { s with ccx := f s.ccx }

/-- CONTROL, the block-level fault of R463. -/
def State.controlFault (s : State) : State := s.raiseFault Sub.ccx none (FaultEv.base 0x44 5 [])

/-- The boot ROM passes control: every core runs, its components serving (R457). -/
def State.startCores (s : State) : State :=
  (List.range 4).foldl (fun s c => s.modCore c (fun x => { x with st := .running, since := s.spn.tick, running := compMask c, starts := [] })) s

/-- Every core is held in reset and waits for its release (R459, R460). -/
def State.holdCores (s : State) : State :=
  (List.range 4).foldl (fun s c => s.modCore c (fun x => { x with st := .held, since := s.spn.tick, running := 0 })) s

/-! ## Ililo images (R456, R457) -/

/-- OFFSET and LENGTH of section `k` of an image header (R456). -/
def secOff (h : List Byte) (k : Nat) : Nat := fieldAt h (0x20 + 16 * k) 4
def secLen (h : List Byte) (k : Nat) : Nat := fieldAt h (0x24 + 16 * k) 4

/-- The largest section `k` (R456). -/
def secMax (k : Nat) : Nat := if k = 0 then 8388608 else if k = 1 then 131072 else 2097152

/-- Check 1 of R457: a header field breaks R456, or a reserved byte is nonzero. -/
def fwHeaderBad (h : List Byte) (len : Nat) : Bool :=
  let secBad := fun k => secOff h k == 0 || secOff h k % 4096 != 0 || secLen h k == 0 || decide (secMax k < secLen h k)
    || decide (len < secOff h k + secLen h k) || fieldAt h (0x28 + 16 * k) 8 != 0
  fieldAt h 0 4 != 0x4F4C494C || fieldAt h 4 1 != 1 || !zeroIn h 5 8 || fieldAt h 0x0C 4 == 0 || fieldAt h 0x0C 4 != len
    || fieldAt h 0x10 2 == 0 || fieldAt h 0x12 2 == 0 || decide (fieldAt h 0x10 2 < fieldAt h 0x12 2) || !zeroIn h 0x14 0x20
    || (List.range 3).any secBad || !zeroIn h 0x1A0 0x200
    || meets (secOff h 0) (secLen h 0) (secOff h 1) (secLen h 1) || meets (secOff h 0) (secLen h 0) (secOff h 2) (secLen h 2)
    || meets (secOff h 1) (secLen h 1) (secOff h 2) (secLen h 2)

/-- What is kept of an image that has passed. -/
def fwImage (h : List Byte) : FwImage := ⟨fieldAt h 8 2, fieldAt h 0x0A 2, fieldAt h 0x10 2, fieldAt h 0x12 2, slice h 0x50 144⟩

/-- Checks 2–9 of R457 in order: the number of the first that fails. -/
def State.fwCheck (s : State) (j : FwJob) : Option Nat :=
  let h := j.header
  let i := fwImage h
  let key := (List.range 6).flatMap (fun r => leBytes 8 (s.otpRow (41 + r)))
  let run := s.ccx.active
  let upd := fun (p : FwImage → Bool) => j.update && (match run with | some a => p a | none => true)
  ([(sha384 (slice h 0xE0 96) != key, 2),
    (!ecdsaVerify (slice h 0xE0 96) (slice h 0 0x140) (slice h 0x140 96), 3),
    ((List.range 3).any (fun k => sha384 (j.sections.getD k []) != slice h (0x50 + 48 * k) 48), 4),
    (decide (i.vaultSvn < bits (s.otpRow 59) 15 0), 5),
    (decide (i.controlSvn < bits (s.otpRow 59) 31 16), 6),
    (upd (fun a => slice a.digests 48 96 != slice i.digests 48 96), 7),
    (upd (fun a => decide (i.controlSvn < a.controlSvn)), 8),
    (j.update && (decide (s.ccx.ledgerVer < i.ledgerMin) || decide (i.ledgerVer < s.ccx.ledgerVer)), 9)].find? Prod.fst).map Prod.snd

/-- RESULT of FW_LOAD and FW_UPDATE (20 R450). -/
def FwImage.result (i : FwImage) : List Byte := leBytes 2 i.vaultSvn ++ leBytes 2 i.controlSvn

/-- A load or the STAGE phase of an update ends with an error, and what was loaded is zeroed (R457). -/
def State.fwFail (s : State) (status detail : Nat) : State :=
  match s.ccx.job with
  | none => s
  | some j =>
    let s := s.dropAccs (fun a => a.use == .fw)
    let s := s.modCcx (fun c => { c with job := none, phase := if j.update then 0 else c.phase })
    let s := if status = Status.checkFailed then s.wf R.ccxHandoff 15 8 detail else s
    s.finish j.cmd status detail []

/-- The record FIRMWARE (24 R516). -/
def State.fwRecord (s : State) (sub : Nat) (i : FwImage) : State :=
  s.offer 0 0x52 s.spn.tick 0xFF sub 0 [i.controlSvn, i.vaultSvn]

/-- Every check has passed. FW_LOAD: section 0 runs, section 1 starts the vault's self-test, section 2 goes to the dies. FW_UPDATE: section 0 is in the
standby bank and QUIESCE begins (R459). -/
def State.fwPass (s : State) (j : FwJob) : State :=
  let i := fwImage j.header
  if j.update then
    s.modCcx (fun c => { c with job := none, standby := some i, phase := 2, quiesceAt := s.spn.tick, updCmd := j.cmd })
  else
    let s := s.modCcx (fun c => { c with job := none, active := some i, ledgerVer := i.ledgerVer })
    let s := { s with vlt := { s.vlt with st := if s.vlt.st = 0 then 1 else s.vlt.st, svnVault := i.vaultSvn, svnControl := i.controlSvn } }
    let s := (s.emit .ddl [5] (j.sections.getD 2 [])).startCores.fwRecord 1 i
    s.finish j.cmd Status.ok 0 i.result

/-- The next section is read, or the image is judged. -/
def State.fwNext (s : State) : State :=
  match s.ccx.job with
  | none => s
  | some j =>
    if j.sec < 3 then
      s.hostRead .fw 0 (j.sec + 1) 0 pf0 (s.fn pf0).gen (j.src + secOff j.header j.sec) (secLen j.header j.sec)
    else match s.fwCheck j with
      | some n => s.fwFail Status.checkFailed n
      | none => s.fwPass j

/-- The host's answer to the read of the header (`part` 0) or of section `part - 1`; an error ends the command naming SRC (R457). -/
def State.fwAnswer (s : State) (part : Nat) (d : Option (List Byte)) : State :=
  match s.ccx.job, d with
  | none, _ => s
  | some _, none => s.fwFail Status.badField (dtl 0x10 0)
  | some j, some b =>
    if part = 0 then
      if fwHeaderBad b j.len then s.fwFail Status.checkFailed 1
      else (s.modCcx (fun c => { c with job := some { j with header := b } })).fwNext
    else (s.modCcx (fun c => { c with job := some { j with sec := j.sec + 1, sections := j.sections ++ [b] } })).fwNext

/-- A load or update starts: the header is read. -/
def State.fwStart (s : State) (e : ExecCmd) (update : Bool) : State :=
  let j : FwJob := ⟨update, fieldAt e.entry 0x10 8, fieldAt e.entry 0x18 4, [], 0, [], none, some e.ref⟩
  let s := s.modCcx (fun c => { c with job := some j, phase := if update then 1 else c.phase })
  s.hostRead .fw 0 0 0 pf0 (s.fn pf0).gen j.src 512

/-- FW_LOAD (20 R450): the boot ROM reads, verifies and starts an image. A command while one is being read is told to retry. -/
def execFwLoad (s : State) : Host.Outcome State Fault Refusal :=
  .next (s.command pf0 Op.fwLoad
    (fun s e => [badAt (fieldAt e.entry 0x18 4 == 0) 0x18 0, (s.ccx.job.isSome, Status.busyRetry, 0)])
    (fun s e => s.fwStart e false))

/-- FW_UPDATE (20 R451): the live update; one at a time. -/
def execFwUpdate (s : State) : Host.Outcome State Fault Refusal :=
  .next (s.command pf0 Op.fwUpdate
    (fun s e => [badAt (fieldAt e.entry 0x18 4 == 0) 0x18 0,
      (s.ccx.job.isSome || (decide (1 ≤ s.ccx.phase) && decide (s.ccx.phase ≤ 4)), Status.busyRetry, 0)])
    (fun s e => s.fwStart e true))

/-! ## R401: commands interrupted by a restart -/

/-- Whether what a running command asked of hardware is decided or under way in hardware, which goes on through a restart (R462). The others are
the firmware's own work: a POD_PUT, a POD_REBASE not yet begun, what waits in the vault's request queue, a bind, and an update's STAGE. -/
def State.effectCommitted (s : State) (e : ExecCmd) : Bool :=
  let op := e.ref.op
  if op = Op.podRebase then !s.pcm.jobs.any (fun j => j.cmd == some e.ref && !j.started)
  else !(op == Op.podPut || op == Op.secretInstall || op == Op.podKeyBind || op == Op.challenge || op == Op.imageBind || op == Op.statementGet
    || (op == Op.fwUpdate && s.ccx.phase == 1))

/-- The work of a command that is not committed is undone, without side effect (R401). -/
def State.undoCmd (s : State) (e : ExecCmd) : State :=
  let mine := fun (c : Option CmdRef) => c == some e.ref
  let jobs := s.pcm.jobs.filter (fun j => mine j.cmd)
  let s := s.dropAccs (fun a => a.use == .huskPut && jobs.any (fun j => j.sl == a.sl && j.pod == a.a))
  let s := { s with pcm := { s.pcm with jobs := s.pcm.jobs.filter (fun j => !mine j.cmd) },
                    vlt := { s.vlt with reqs := s.vlt.reqs.filter (fun r => !mine r.cmd), chals := s.vlt.chals.filter (fun c => !mine c.cmd) } }
  let s := jobs.foldl (fun s j => s.settlePods j.sl) s
  if e.ref.op = Op.imageBind then s.bindFail Status.busyRetry 0
  else if e.ref.op = Op.fwUpdate then s.fwFail Status.busyRetry 0
  else s

/-- R401 for one command that was executing: a committed effect goes on to its completion; otherwise a replay-marked opcode is executed again once,
and any other ends with BUSY_RETRY. -/
def State.interrupted (s : State) (e : ExecCmd) : State :=
  if s.effectCommitted e then s.modCmd e.ref (fun x => { x with replayed := true })
  else
    let s := s.undoCmd e
    let again := (match opRow 3 e.ref.op with | some r => r.replay | none => false) && e.ledger != .replayed
    if again then s.modCmd e.ref (fun x => { x with stage := .ready, ledger := .replayed, replayed := true })
    else s.finish (some e.ref) Status.busyRetry 0 []

/-- R401 for every executing command of the components in `comps`. -/
def State.interruptedAll (s : State) (comps : Nat) : State :=
  let mine := fun (e : ExecCmd) => match opRow 3 e.ref.op with | some r => bit comps r.comp | none => false
  (List.range 65).foldl (fun s f =>
    ((s.mb f).exec.filter (fun e => e.stage == .running && !e.done && mine e)).foldl (fun s e => s.interrupted e) s) s

/-! ## Update phases (R459, R460) -/

/-- QUIESCE_END (R459): QUIESCE ends once every component has brought its commands to their end, and by S + 20 ms in any case; the cores are held and go to
the standby bank. -/
def execQuiesceEnd (s : State) : Host.Outcome State Fault Refusal :=
  let busy := (List.range 65).any (fun f => (s.mb f).exec.any (fun e => e.stage == .running && !e.done && some e.ref != s.ccx.updCmd))
  if s.ccx.phase != 2 || (busy && decide (s.spn.tick < s.ccx.quiesceAt + 78125)) then .next s
  else .next ((s.modCcx (fun c => { c with phase := 3 })).holdCores)

/-- The rollback of R460: the old image restarts, FW_UPDATE ends with CHECK_FAILED, DETAIL 0x100, and the alias key is derived again. -/
def State.rollback (s : State) : State :=
  match s.ccx.active with
  | none => s
  | some i =>
    let cmd := match s.ccx.job with | some j => j.cmd | none => s.ccx.updCmd
    let s := (s.dropAccs (fun a => a.use == .fw)).finish cmd Status.checkFailed 0x100 []
    let s := (s.modCcx (fun c => { c with job := none, standby := none, phase := 5, updCmd := none })).holdCores
    let s := if s.aliasUp then s.deriveAlias else s
    (s.fwRecord 3 i).irq 13

/-- ADOPT (R459): in phase 4 the new image writes ADOPT; commands left STARTED end under R401, the banks exchange roles, the alias key is derived
for the new image, and FW_UPDATE completes with OK. -/
def execAdopt (s : State) : Host.Outcome State Fault Refusal :=
  match s.ccx.standby with
  | none => .next s
  | some i =>
    if s.ccx.phase != 4 then .next s
    else
      let cmd := s.ccx.updCmd
      let s := s.modCcx (fun c => { c with active := some i, standby := none, phase := 0, updCmd := none, ledgerVer := i.ledgerVer })
      let s := { s with regs := s.keepRegs Surv.h, vlt := { s.vlt with svnControl := i.controlSvn } }
      let s := if s.aliasUp then s.deriveAlias else s
      let s := s.interruptedAll 31
      let s := (List.range 4).foldl (fun s c => s.modCore c (fun x => { x with running := compMask c })) s
      .next (((s.fwRecord 2 i).finish cmd Status.ok 0 i.result).irq 13)

/-- ROLLBACK (R460): ADOPT has not been written by S + 200 ms. -/
def execRollback (s : State) : Host.Outcome State Fault Refusal :=
  if decide (2 ≤ s.ccx.phase) && decide (s.ccx.phase ≤ 4) && decide (s.ccx.quiesceAt + 781250 ≤ s.spn.tick) then .next s.rollback else .next s

/-! ## Core restarts (R461–R463) -/

/-- A restart request of a core in class 4 (R461): from a core that runs. -/
def State.askRestart (s : State) (core why : Nat) : State :=
  if (s.core core).st == .running || (s.core core).st == .halted then s.raise ⟨4, none, Sub.ccx, .coreRestart core why⟩ else s

/-- The effect of a restart request (R461–R463): the core is held and counted. During phases 2–4 of an update it is a rollback (R460). A request before
all components ran, or a fifth restart within 1 s, is a block-level fault. -/
def State.restartEffect (s : State) (core _why stamp : Nat) : State :=
  let c := s.core core
  let n := min 0xFF (s.rf R.ccxRestarts (8 * core + 7) (8 * core) + 1)
  let early := c.running != compMask core && !(2 ≤ s.ccx.phase && s.ccx.phase ≤ 4)
  let recent := (c.starts.filter (fun t => decide (stamp < t + 3906250))) ++ [stamp]
  let s := ((s.wf R.ccxRestarts (8 * core + 7) (8 * core) n).irq 12).offer 4 0x51 stamp 0xFF 1 core []
  let s := if early || 5 ≤ recent.length then (s.offer 4 0x51 stamp 0xFF 3 core []).controlFault else s
  let s := s.modCore core (fun x => { x with st := .restarting, since := s.spn.tick, running := 0, starts := recent })
  if 2 ≤ s.ccx.phase && s.ccx.phase ≤ 4 then s.rollback else s

/-- CORE_WATCHDOG (R461): a component has not serviced its core's watchdog. -/
def execCoreWatchdog (core : Nat) (s : State) : Host.Outcome State Fault Refusal := .next (s.askRestart (core % 4) 1)

/-- MPU_VIOLATION (R454): a component's access outside its domain is not performed; it is recorded and restarts the core. -/
def execMpuViolation (core comp addr : Nat) (s : State) : Host.Outcome State Fault Refusal :=
  let core := core % 4
  if (s.core core).st != .running || !bit (compMask core) comp then .next s
  else
    let v := core + 4 * comp + 32 + 64 * (bits addr 31 6)
    .next ((((s.wr R.ccxMpufault v).irq 12).offer 0 0x51 s.spn.tick 0xFF 2 core [v]).askRestart core 2)

/-- CORE_ECC_ERROR (R461): an uncorrectable error in a core's data SRAM. -/
def execCoreEccError (core : Nat) (s : State) : Host.Outcome State Fault Refusal := .next (s.askRestart (core % 4) 3)

/-- ILLEGAL_INSTRUCTION (R461). -/
def execIllegalInstruction (core : Nat) (s : State) : Host.Outcome State Fault Refusal := .next (s.askRestart (core % 4) 4)

/-- CORE_RELEASE (R461): a held core is released, its data SRAM zeroed. In phase 3 it runs from the standby bank, and once all four run phase 4
begins (R459). Before any image is loaded, the cores stay held. -/
def execCoreRelease (core : Nat) (s : State) : Host.Outcome State Fault Refusal :=
  let core := core % 4
  let st := (s.core core).st
  if s.ccx.active.isNone || !(st == .restarting || st == .held) then .next s
  else
    let s := s.modCore core (fun x => { x with st := .running, since := s.spn.tick, running := 0 })
    let all := (List.range 4).all (fun c => (s.core c).st == .running)
    .next (if s.ccx.phase = 3 && all then s.modCcx (fun c => { c with phase := 4 }) else s)

/-- COMPONENT_RUNNING (R462): a component of a released core has rebuilt its state from the ledger; commands it left STARTED end under R401, and it
serves again. -/
def execComponentRunning (comp : Nat) (s : State) : Host.Outcome State Fault Refusal :=
  let c := s.core (coreOf comp)
  if 4 < comp || c.st != .running || bit c.running comp || (2 ≤ s.ccx.phase && s.ccx.phase ≤ 4) then .next s
  else
    let s := s.modCore (coreOf comp) (fun x => { x with running := x.running ||| 2 ^ comp })
    .next (s.interruptedAll (2 ^ comp))

/-- RUNNING_TIMEOUT (R463): a component has not reported RUNNING within 5 ms of its core's release. -/
def execRunningTimeout (comp : Nat) (s : State) : Host.Outcome State Fault Refusal :=
  let c := s.core (coreOf comp)
  if 4 < comp || c.st != .running || bit c.running comp || (2 ≤ s.ccx.phase && s.ccx.phase ≤ 4) || s.spn.tick < c.since + 19532 then .next s
  else .next (s.offer 0 0x51 s.spn.tick 0xFF 3 (coreOf comp) []).controlFault

/-! ## Trace points and the log ring (R464) -/

/-- TRACE_POINT (R464): component `comp` of a running core reaches trace point `num` of `group`, with 16 bytes of arguments; `busy` says that it finds the log
port busy. -/
def execTracePoint (comp group num : Nat) (args : List Byte) (busy : Bool) (s : State) : Host.Outcome State Fault Refusal :=
  let core := coreOf (comp % 5)
  if !bit s.ccx.logMask (group % 64) || (s.core core).st != .running then .next s
  else if busy then .next (s.wf R.ccxLog 31 18 (min 0x3FFF (s.rf R.ccxLog 31 18 + 1)))
  else
    let e : LogE := ⟨s.spn.tick, core, comp % 5, group % 64, num % 65536, slice args 0 16⟩
    .next (s.modCcx (fun c => { c with log := tset (dflt none) c.log (c.logCount % 262144) (some e), logCount := c.logCount + 1 }))

/-- The 32 bytes of a log entry (R464). -/
def LogE.bytes (e : LogE) : List Byte :=
  leBytes 8 e.tick ++ leBytes 1 e.core ++ leBytes 1 e.comp ++ leBytes 1 e.group ++ [0] ++ leBytes 2 e.num ++ leBytes 2 0 ++ e.args

/-- The log ring's bytes from `off`, `n` of them. -/
def State.logBytes (s : State) (off n : Nat) : List Byte :=
  let first := off / 32
  let k := if n = 0 then 0 else (off + n - 1) / 32 + 1 - first
  slice ((List.range k).flatMap (fun i =>
    match tget (dflt none) s.ccx.log (first + i) with
    | some e => e.bytes
    | none => List.replicate 32 0)) (off % 32) n

/-- LOG_MASK (20 R449): the RESULT holds the mask before. -/
def execLogMask (s : State) : Host.Outcome State Fault Refusal :=
  .next (s.command pf0 Op.logMask (fun _ _ => [])
    (fun s e =>
      let old := s.ccx.logMask
      (s.modCcx (fun c => { c with logMask := fieldAt e.entry 0x10 8 })).finish (some e.ref) Status.ok 0 (leBytes 8 old)))

/-- LOG_READ (20 R449): part of the ring is copied as it stands; the write offset counts bytes, as OFFSET does (DEDUCED, log 90). -/
def execLogRead (s : State) : Host.Outcome State Fault Refusal :=
  .next (s.command pf0 Op.logRead
    (fun _ e =>
      let off := fieldAt e.entry 0x0C 4 % 2 ^ 23
      let n := fieldAt e.entry 0x10 4
      [(n == 0, Status.okEmpty, 0), badAt (decide (8388608 < off + n)) 0x10 0])
    (fun s e =>
      s.cmdOut e (fieldAt e.entry 0x18 8) 0x18 (s.logBytes (fieldAt e.entry 0x0C 4 % 2 ^ 23) (fieldAt e.entry 0x10 4))
        (leBytes 4 (32 * (s.ccx.logCount % 262144)) ++ leBytes 4 (min 0xFFFFFFFF (s.ccx.logCount / 262144)))))

end Sys2Proof.Machine
end

