-- ==== Sys2Proof/Machine/Fabric.lean ====
section
/-! DEFINITION. The fabric ports (13): links, training, admission, degrade, bypass; and what the transport (14) sends on a link. -/

namespace Sys2Proof.Machine

/-! ## Ports and links (R283, R284) -/

/-- Links of a port at its width setting (R283): 0 1×32, 1 2×16, 2 4×8. -/
def linkCount (w : Nat) : Nat := if w = 1 then 2 else if w = 2 then 4 else 1

/-- The width setting a port runs at. -/
def State.widthOf (s : State) (p : Nat) : Nat := tget (dflt 0) s.fpc.width p

/-- Links of a port, and the lanes of each. -/
def State.nLinks (s : State) (p : Nat) : Nat := linkCount (s.widthOf p)
def State.nLanes (s : State) (p : Nat) : Nat := 32 / s.nLinks p

/-- The link whose management lane is quarter `q` (R283). -/
def State.linkOfQuarter (s : State) (p q : Nat) : Option Nat :=
  let n := s.nLinks p
  if n = 4 then (if q < 4 then some q else none) else if n = 2 then (if q = 0 then some 0 else if q = 2 then some 1 else none)
  else (if q = 0 then some 0 else none)

/-- A pair's bypass (R299). -/
def State.bypass (s : State) (k : Nat) : BypSt × Nat := tget (dflt (BypSt.closed, 0)) s.fpc.byp k

/-- The same set. -/
def State.setBypass (s : State) (k : Nat) (b : BypSt × Nat) : State :=
  { s with fpc := { s.fpc with byp := tset (dflt (BypSt.closed, 0)) s.fpc.byp k b } }

/-- BYP_OPEN_n[k] (R298, R299). -/
def State.bypHigh (s : State) (k : Nat) : Bool := (s.bypass k).1 == .opened || (s.bypass k).1 == .closing

/-- The alignment parent port in effect (02 R41). -/
def State.parentPort (s : State) : Option Nat :=
  let v := s.rd R.spnAlignCfg
  if bit v 0 && !bit v 1 && bits v 7 4 < 8 then some (bits v 7 4) else none

/-- Whether this package is the timing root in effect (02 R41). -/
def State.alignRoot (s : State) : Bool := bit (s.rd R.spnAlignCfg) 0 && bit (s.rd R.spnAlignCfg) 1

/-- Whether a slice in effect holds a port. -/
def State.portHeld (s : State) (p : Nat) : Bool := s.slices.any (fun d => bit d.fabMask p)

/-- STATE of LLY_FPC_LINK. -/
def LinkSt.code : LinkSt → Nat
  | .down | .off => 0 | .training => 1 | .ready => 2 | .up => 3 | .degrading => 4

def BypSt.code : BypSt → Nat
  | .closed => 0 | .waitAck => 1 | .opened => 2 | .closing => 3

/-- States of the status word (R285), numbered by the model: the spec names them without codes. -/
def Word.notReady : Nat := 0
def Word.training : Nat := 1
def Word.down : Nat := 5
def Word.insertReq : Nat := 6
def Word.insertAck : Nat := 7
def Word.closing : Nat := 8

/-- Whether this package may acknowledge an insertion on a port (R300). -/
def State.mayInsert (s : State) (p : Nat) : Bool :=
  bit (s.rd (R.fpcCfg + 4 * p)) 3 && !s.portHeld p && s.parentPort != some p

/-- The state this package's status word carries on a link (R285, R299, R300). -/
def State.wordState (s : State) (p l : Nat) : Nat :=
  let x := s.link p l
  match (s.bypass (p / 2)).1 with
  | .closing => if (s.bypass (p / 2)).2 != 0 then Word.closing else x.st.code
  | .waitAck => if x.peerState = Word.insertReq && s.mayInsert p then Word.insertAck else Word.insertReq
  | .closed => Word.notReady
  | .opened =>
    if x.peerState = Word.insertReq && s.mayInsert p then Word.insertAck
    else if x.st == .down then Word.down else x.st.code

/-- The status word of a link as sent: quarter, state, gen 2 support, width, failed receive lanes, bypass, fingerprint (R285). -/
def State.statusWord (s : State) (p l q : Nat) : List Nat :=
  let cfg := s.rd (R.fpcCfg + 4 * p)
  [1, p, q, s.wordState p l, if bit cfg 2 then 0 else 1, bits cfg 1 0, (s.link p l).ownMask, (s.bypass (p / 2)).1.code, s.packageFp]

/-! ## Sealing and sending flits (14 R303, R310, R311) -/

/-- The header of a flit as a number (R303), its GENF 1 and its reserved bits 0. -/
def flitHeader (type vc keysel seq ack holder crVc count retry : Nat) : Nat :=
  type + 2 ^ 4 * vc + 2 ^ 7 * keysel + 2 ^ 8 * seq + 2 ^ 20 * ack + 2 ^ 32 * holder + 2 ^ 40 * crVc + 2 ^ 43 * count + 2 ^ 48 + 2 ^ 52 * retry

/-- The 256 bytes of a flit (R303, R311): header, payload sealed with AES-256-GCM under the key and salt of `key` and the flit counter, most significant byte
first, and tag. The header is authenticated; a SYNC's bytes 224–231 are too, and go in clear. -/
def sealFlit (key : List Byte) (ctr hdr : Nat) (payload : List Byte) : List Byte :=
  let h := leBytes 8 hdr
  let p := slice payload 0 232
  let clear := if hdr % 16 = 1 then p.drop 224 else []
  let e := gcmSeal (slice key 0 32) (slice key 32 4 ++ beBytes 8 ctr) (h ++ clear) (p.take (232 - clear.length))
  h ++ e.1 ++ clear ++ e.2

/-- A flit waiting in or kept by a replay buffer: its type, VC and payload. -/
def flitOut (type vc : Nat) (d : List Byte) : Output := ⟨.flit, [type, vc], d⟩

/-- Whether a link sends flits now: up, or in phase 4 of training and later (R288, R291). -/
def Link.sends (x : Link) : Bool := x.st == .up || x.st == .ready || x.st == .training

/-- One flit leaves, unless the device is fenced (05 R114): `seq` 0 for IDLE and SYNC; ACK names the last flit accepted in order, RETRY a gap not told yet (R310);
`cr` are the credits it returns: holder, VC, count. Its slot consumes one count. -/
def State.emitFlit (s : State) (p l type vc seq : Nat) (cr : List Nat) (d : List Byte) : State :=
  if s.mce.fenced then s
  else
    let x := s.link p l
    let retry := x.gap && !x.gapTold
    let h := flitHeader type vc (if x.keysel then 1 else 0) seq ((x.rxSeq + 4095) % 4096) (cr.getD 0 0) (cr.getD 1 0) (cr.getD 2 0) (if retry then 1 else 0)
    (s.emit .flit [p, l, h, x.txCtr] (sealFlit x.keyTx x.txCtr h d)).modLink p l
      (fun x => { x with txCtr := x.txCtr + 1, gapTold := x.gapTold || retry })

/-- Flits of the replay buffer that may go out do: 2,048 may await acknowledgement (R310). None is sealed at a counter of 2^40 (R316). -/
def State.flushLink (s : State) (p l : Nat) : Nat → State
  | 0 => s
  | n + 1 =>
    let x := s.link p l
    let sent := (x.txSeq + 4096 - x.acked) % 4096
    if !x.sends || s.mce.fenced || 2 ^ 40 ≤ x.txCtr || 2048 ≤ sent then s
    else match x.replay[sent]? with
      | none => s
      | some o =>
        let s := s.emitFlit p l (o.nums.getD 0 0) (o.nums.getD 1 0) x.txSeq [] o.data
        (s.modLink p l (fun x => { x with txSeq := (x.txSeq + 1) % 4096 })).flushLink p l n

/-- The order in which a link serves its VCs (R305): VC 0, then responses, then requests and signals, the lower VC first. -/
def vcRank (v : Nat) : Nat := if v = 0 then 0 else if v = 3 || v = 4 then v - 2 else v + 2

/-- A numbered flit to send (R310): behind those sent, and behind the waiting ones its VC does not go before (R305). -/
def State.sendFlit (s : State) (p l type vc : Nat) (d : List Byte) : State :=
  let put := fun (x : Link) =>
    let sent := (x.txSeq + 4096 - x.acked) % 4096
    let ahead := (x.replay.drop sent).takeWhile (fun o => decide (vcRank (o.nums.getD 1 0) ≤ vcRank vc))
    let n := sent + ahead.length
    { x with replay := x.replay.take n ++ flitOut type vc d :: x.replay.drop n }
  (s.modLink p l put).flushLink p l 2048

/-- A packet: a HEAD flit of up to 208 data bytes after its 24-byte header, then BODY flits of 232 (R307). -/
def State.sendPacket (s : State) (p l vc : Nat) (d : List Byte) : State :=
  (List.range (ceilDiv d.length 232)).foldl (fun s i => s.sendFlit p l (if i = 0 then 2 else 3) vc (slice d (232 * i) (min 232 (d.length - 232 * i)))) s

/-- A SYNC flit, the first of a session and after a degrade (R312). -/
def State.sendSync (s : State) (p l : Nat) : State := s.emitFlit p l 1 0 0 [] (zeros 224 ++ leBytes 8 (s.link p l).txCtr)

/-! ## Credits (12 R277, 14 R308) -/

/-- A holder's part on one link: equal whole slots, the remainder with link 0 (R284). -/
def State.linkPart (s : State) (p l v h : Nat) : Nat :=
  let n := s.nLinks p
  let t := if h < 64 then s.slotPart p v h else s.slotRest p v
  t / n + (if l = 0 then t % n else 0)

/-- Credits of a link's holder as receiver brought to its part; what is occupied or returning is never dropped (12 R273). -/
def State.advertise (s : State) (p l v h : Nat) : State :=
  let part := if (s.link p l).st.carries then s.linkPart p l v h else 0
  s.modFab p l v h (fun c =>
    let adv := max part (c.rxOcc + c.rxRet)
    { c with rxAdv := adv, rxPartner := adv - (c.rxOcc + c.rxRet) })

/-- The holders of a port: the slices whose FAB_MASK holds it, and the system tag. -/
def State.fabHolders (s : State) (p : Nat) : List Nat := ((s.slices.filter (fun d => bit d.fabMask p)).map SliceDef.slice) ++ [0xFF]

/-- An entry of a CREDIT flit (R308): FSLICE_ID, 0 for the system tag, the holder's index here, and its part on each of the eight VCs. -/
def creditEntry (e : Nat × Nat × List Nat) : List Byte :=
  leBytes 4 e.1 ++ leBytes 1 e.2.1 ++ (List.range 8).flatMap (fun v => leBytes 4 (e.2.2.getD v 0))

/-- The payload of the `i`-th CREDIT flit of an advertisement: its number, how many entries, and up to 6 of them (assumption log 85). -/
def creditPayload (i : Nat) (es : List (Nat × Nat × List Nat)) : List Byte := leBytes 1 i ++ leBytes 1 es.length ++ es.flatMap creditEntry

/-- CREDIT flits of one link (14 R308): they list every holder. -/
def State.sendCredits (s : State) (p l : Nat) : State :=
  let known := (tkeys s.tpl.fab (fun k _ => k / 2048 == 4 * p + l)).map (· % 256)
  let s := (uniq (s.fabHolders p ++ known)).foldl (fun s h => (List.range 8).foldl (fun s v => s.advertise p l v h) s) s
  let es := (s.fabHolders p).map (fun h => ((s.sdef h).elim 0 SliceDef.fsliceId, h, (List.range 8).map (fun v => s.linkPart p l v h)))
  (List.range (ceilDiv es.length 6)).foldl (fun s i => s.sendFlit p l 4 0 (creditPayload i ((es.drop (6 * i)).take 6))) s

/-- CREDIT flits of every link in service of a port (R308). -/
def State.sendPortCredits (s : State) (p : Nat) : State :=
  (List.range (s.nLinks p)).foldl (fun s l => if (s.link p l).st == .up then s.sendCredits p l else s) s

/-- All credit counts of a link set back, and what was on it discarded (12 R277). -/
def State.clearLink (s : State) (p l : Nat) : State :=
  let mine := fun (k : Nat) => k / 2048 == 4 * p + l
  { s with tpl := { s.tpl with fab := s.tpl.fab.filter (fun e => !mine e.1) },
           fpc := { s.fpc with out := s.fpc.out.filter (fun x => !(x.port == p && x.link == l)),
                               ins := s.fpc.ins.filter (fun x => !(x.port == p && x.link == l)),
                               entries := tdel s.fpc.entries (4 * p + l), meter := s.fpc.meter.filter (fun e => e.1 / 64 != 4 * p + l) } }

/-! ## Training (R288–R290) -/

/-- A link starts training. What the management lane knows of the partner, the stored settings and TFAIL are kept. The port takes its width
setting in effect once none of its links is in service (R22). -/
def State.startTraining (s : State) (p l : Nat) (full : Bool) : State :=
  let free := (List.range 4).all (fun j => j == l || !((s.link p j).st.carries || (s.link p j).st == .ready || (s.link p j).st == .training))
  let s := if free then { s with fpc := { s.fpc with width := tset (dflt 0) s.fpc.width p (s.rf (R.fpcCfg + 4 * p) 1 0) } } else s
  let x := s.link p l
  (s.clearLink p l).modLink p l (fun _ => { Link.init with
    st := .training, reason := x.reason, tfail := x.tfail, trainAt := s.spn.tick, full := full, fps := x.fps, lastRx := x.lastRx, silent := x.silent,
    peerState := x.peerState, peerFp := x.peerFp, peerGen2 := x.peerGen2, peerWidth := x.peerWidth, peerMask := x.peerMask })

/-- A link goes DOWN with a reason (R288, R297). Out of training it counts a failed training; otherwise the event PORT_DOWN is raised. -/
def State.linkDown (s : State) (p l reason : Nat) : State :=
  let x := s.link p l
  let trained := x.st == .ready || x.st == .up || x.st == .degrading
  if !trained && x.st != .training then s
  else
    let s := (s.clearLink p l).modLink p l (fun x => { Link.init with
      st := .down, reason := reason, tfail := if trained then x.tfail else min 0xFF (x.tfail + 1), failAt := s.spn.tick, fps := x.fps,
      lastRx := x.lastRx, silent := x.silent, peerState := x.peerState, peerFp := x.peerFp, peerGen2 := x.peerGen2, peerWidth := x.peerWidth,
      peerMask := x.peerMask, ack := x.ack })
    if trained then s.raise ⟨3, none, Sub.fpc, .portDown p l reason⟩ else s

/-- The lanes a link uses (R294): the first aligned group of its lanes, widest first, without a failed one: (first, how many). -/
def laneGroup (w mask : Nat) : Option (Nat × Nat) :=
  let groups := [(w, 1), (w / 2, 2), (w / 4, 4)].flatMap (fun e => (List.range e.2).map (fun i => (i * e.1, e.1)))
  groups.find? (fun g => (List.range g.2).all (fun i => !bit mask (g.1 + i)))

/-- TRAINING_DONE (R288): training of a link ends: `locked` is the mask of its lanes that locked, `fast` whether stored settings served. With
keys in hand it is READY; without a locked lane, or without a clean group, it goes DOWN. -/
def execTrainingDone (p l locked : Nat) (fast reversed : Bool) (s : State) : Host.Outcome State Fault Refusal :=
  let p := p % 8
  let x := s.link p l
  if x.st != .training then .next s
  else
    let w := s.nLanes p
    let own := (2 ^ w - 1) ^^^ (locked % 2 ^ w)
    if locked % 2 ^ w = 0 then .next (s.linkDown p l 4)
    else match laneGroup w (own ||| x.peerMask) with
      | none => .next (s.linkDown p l 5)
      | some g =>
        if !x.keyed then .next s
        else
          let known := x.fps.contains x.peerFp
          .next (s.modLink p l (fun x => { x with
            st := .ready, gen2 := x.peerGen2 && !bit (s.rd (R.fpcCfg + 4 * p)) 2, lane0 := g.1, lanes := g.2, ownMask := own,
            fast := fast && known && !x.full, reversed := reversed,
            fps := (x.peerFp :: x.fps.filter (· != x.peerFp)).take 2 }))

/-- TRAINING_TIMEOUT (R288): training has not reached READY within 240 ms (937,500 tk). -/
def execTrainingTimeout (p l : Nat) (s : State) : Host.Outcome State Fault Refusal :=
  let x := s.link (p % 8) l
  if x.st == .training && decide (x.trainAt + 937500 ≤ s.spn.tick) then .next (s.linkDown (p % 8) l 6) else .next s

/-- TRAINING_RETRY (R289): a DOWN link whose pair is open trains again at the first epoch boundary at least 4,000 tk after its failure. -/
def execTrainingRetry (p l : Nat) (s : State) : Host.Outcome State Fault Refusal :=
  let p := p % 8
  let x := s.link p l
  if x.st == .down && (s.bypass (p / 2)).1 == .opened && decide (l < s.nLinks p) && s.spn.tick % 4000 == 0
      && decide (x.failAt + 4000 ≤ s.spn.tick) then .next (s.startTraining p l false) else .next s

/-- A port retrained, or the write dropped (R290). -/
def State.retrain (s : State) (p : Nat) : State :=
  if s.portHeld p || s.parentPort == some p || (s.bypass (p / 2)).1 != .opened then s.wf R.fpcAdmit 16 16 1
  else
    let s := (List.range 4).foldl (fun s l => (s.clearLink p l).modLink p l (fun x => { x with st := .off })) s
    let s := { s with fpc := { s.fpc with width := tset (dflt 0) s.fpc.width p (s.rf (R.fpcCfg + 4 * p) 1 0) } }
    (List.range (s.nLinks p)).foldl (fun s l => s.startTraining p l true) s

/-- LLY_FPC_CTL written (R290): each port of RETRAIN. -/
def State.writeFpcCtl (s : State) (v : Nat) : State := (maskList v 8).foldl (fun s p => s.retrain p) s

/-- FPC_CTL_RETRAIN (R290): a write of LLY_FPC_CTL. -/
def execFpcCtlRetrain (v : Nat) (s : State) : Host.Outcome State Fault Refusal :=
  .next (s.gated 0 R.fpcCtl v (fun s => s.writeFpcCtl v))

/-! ## Keys of a session, as training and status words use them (14 R313) -/

/-- The payload of a KEYX HELLO (R313): its kind, the nonce and the package fingerprint (layout: assumption log 85). -/
def helloPayload (nonce fp : Nat) : List Byte := slice ([1] ++ leBytes 32 nonce ++ leBytes 4 fp) 0 232

/-- The first HELLO of phase 4: a fresh nonce goes out; it waits while the TRNG gives none (15 R324). -/
def State.sendHello (s : State) (p l : Nat) : State :=
  if s.vlt.drbgStopped || (s.link p l).nonceOwn != 0 then s
  else
    let n := leNat (slice (Config.random s.draws 32) 0 32)
    let s := s.drawn.modLink p l (fun x => { x with nonceOwn := n + 1, keyAt := s.spn.tick })
    s.sendFlit p l 5 0 (helloPayload n s.packageFp)

/-! ## The management lane (R285, R300) -/

/-- A degrade (R293–R295): the union of both masks picks a new group; none takes the link DOWN, another one than in use is a degrade, which
raises PORT_DEGRADE. -/
def State.laneChange (s : State) (p l : Nat) : State :=
  let x := s.link p l
  if !(x.st == .ready || x.st.carries) then s
  else match laneGroup (s.nLanes p) (x.ownMask ||| x.peerMask) with
    | none => s.linkDown p l 5
    | some g =>
      if g = (x.lane0, x.lanes) then s
      else
        let up := x.st.carries
        let wasUp := if x.st == .degrading then x.wasUp else x.st == .up
        let s := s.modLink p l (fun x => { x with st := .degrading, wasUp := wasUp, lane0 := g.1, lanes := g.2 })
        if up then s.raise ⟨3, none, Sub.fpc, .portDegrade p l g.2⟩ else s

/-- STATUS_WORD (R285): a word arrives on management lane `q` of port `p`, and this package's own goes out. A partner of another width ends a
training; one that has been inserted or has announced its close leads to a retraining, and any other that is no longer there takes the
link DOWN (R297, R300, R301). -/
def execStatusWord (p q state : Nat) (gen2 : Bool) (width mask byp fp : Nat) (s : State) : Host.Outcome State Fault Refusal :=
  let p := p % 8
  if s.mce.fenced || s.src.deep != 0 then .next s
  else match s.linkOfQuarter p q with
    | none => .next s
    | some l =>
      let x := s.link p l
      let s := (s.emit .signal (s.statusWord p l q) []).modLink p l (fun x => { x with
        lastRx := s.spn.tick, silent := false, peerState := state, peerFp := fp, peerGen2 := gen2, peerWidth := width,
        peerMask := mask % 2 ^ s.nLanes p, ack := state == Word.insertAck })
      if x.st == .training then
        if width != s.rf (R.fpcCfg + 4 * p) 1 0 then .next (s.linkDown p l 2)
        else if state = Word.training then .next (s.sendHello p l) else .next s
      else if x.st == .ready || x.st.carries then
        if state = Word.training && x.peerState = Word.insertReq && s.mayInsert p && byp = 2 then .next (s.startTraining p l false)
        else if state != Word.closing && x.peerState = Word.closing then .next (s.startTraining p l false)
        else if state = Word.down || (state = Word.notReady && x.peerState != Word.notReady) then .next (s.linkDown p l 0)
        else .next (s.laneChange p l)
      else .next s

/-- MGMT_LANE_SILENT (R285): nothing has been received on a management lane for 4,000 tk: a training ends with NO_PARTNER, a link in service
goes DOWN. -/
def execMgmtLaneSilent (p q : Nat) (s : State) : Host.Outcome State Fault Refusal :=
  let p := p % 8
  match s.linkOfQuarter p q with
  | none => .next s
  | some l =>
    if (s.link p l).lastRx + 4000 ≤ s.spn.tick then
      let s := s.modLink p l (fun x => { x with silent := true, peerState := 0, ack := false })
      .next (s.linkDown p l 1)
    else .next s

/-! ## Lanes (R293–R296) -/

/-- LANE_FAIL (R293): lane `lane` of port `p` has lost lock, or has corrected `corr` symbols in the epoch, which fails it above
LLY_FPC_DEG_THR.CORR where that is not 0. -/
def execLaneFail (p lane : Nat) (lock : Bool) (corr : Nat) (s : State) : Host.Outcome State Fault Refusal :=
  let p := p % 8
  let w := s.nLanes p
  let l := lane % 32 / w
  let thr := s.rf R.fpcDegThr 15 0
  if !lock && !(thr != 0 && decide (thr < corr)) then .next s
  else .next ((s.modLink p l (fun x => { x with ownMask := x.ownMask ||| 2 ^ (lane % w) })).laneChange p l)

/-- DEGRADE_DONE (R295): the chosen group has locked: flits flow again behind a SYNC flit. -/
def execDegradeDone (p l : Nat) (s : State) : Host.Outcome State Fault Refusal :=
  let p := p % 8
  let x := s.link p l
  if x.st != .degrading then .next s
  else
    let s := s.modLink p l (fun x => { x with st := if x.wasUp then .up else .ready })
    .next ((s.sendSync p l).flushLink p l 2048)

/-! ## Bypass (R298–R302) -/

/-- The pairs at a tick (R299, R301): with OPEN_k = 1 in effect and the conditions of R291 a closed pair waits for acknowledgements; with
OPEN_k = 0 an open one closes, sending CLOSING once no slice holds its ports. -/
def State.pumpBypass (s : State) : State :=
  let may := s.fpc.firstCommit && decide (2 ≤ s.vlt.st) && s.vlt.st != 4 && !s.mce.fenced && s.src.deep == 0
  (List.range 4).foldl (fun s k =>
    let want := bit (s.rd R.fpcByp) k
    match s.bypass k with
    | (.closed, _) => if want && may then s.setBypass k (.waitAck, 0) else s
    | (.waitAck, _) => if want && may then s else s.setBypass k (.closed, 0)
    | (.opened, _) => if want then s else s.setBypass k (.closing, 0)
    | (.closing, t) =>
      if t = 0 && !((List.range' (2 * k) 2).any (fun p => s.portHeld p || s.parentPort == some p)) then s.setBypass k (.closing, s.spn.tick) else s) s

/-- BYPASS_OPEN (R300): every link of the pair is acknowledged, by a silent lane or by INSERT_ACK; the bypass opens and every link trains. -/
def execBypassOpen (k : Nat) (s : State) : Host.Outcome State Fault Refusal :=
  let k := k % 4
  let ports := [2 * k, 2 * k + 1]
  let width := fun (s : State) (p : Nat) => { s with fpc := { s.fpc with width := tset (dflt 0) s.fpc.width p (s.rf (R.fpcCfg + 4 * p) 1 0) } }
  let ok := ports.all (fun p => (List.range (linkCount (s.rf (R.fpcCfg + 4 * p) 1 0))).all (fun l => (s.link p l).silent || (s.link p l).ack))
  if (s.bypass k).1 != .waitAck || !ok then .next s
  else
    let s := s.setBypass k (.opened, 0)
    .next (ports.foldl (fun s p =>
      let s := width s p
      (List.range (s.nLinks p)).foldl (fun s l => (s.modLink p l (fun x => { x with tfail := 0 })).startTraining p l false) s) s)

/-- A pair's links are gone, without PORT_DOWN; `reason` 8 for a halt or reset. The settings stored for partners stay. -/
def State.closePair (s : State) (k reason : Nat) : State :=
  let s := s.setBypass k (.closed, 0)
  let s := [2 * k, 2 * k + 1].foldl (fun s p => (List.range 4).foldl (fun s l =>
    (s.clearLink p l).modLink p l (fun x => { Link.init with
      fps := x.fps, lastRx := x.lastRx, silent := x.silent, peerState := x.peerState, peerFp := x.peerFp, peerGen2 := x.peerGen2,
      peerWidth := x.peerWidth, reason := if reason = 0 then x.reason else reason })) s) s
  { s with fpc := { s.fpc with admitted := s.fpc.admitted.filter (fun p => p / 2 != k) } }

/-- BYPASS_CLOSE (R301): CLOSING has been sent for 4 tk. -/
def execBypassClose (k : Nat) (s : State) : Host.Outcome State Fault Refusal :=
  let b := s.bypass (k % 4)
  if b.1 == .closing && b.2 != 0 && decide (b.2 + 4 ≤ s.spn.tick) then .next (s.closePair (k % 4) 0) else .next s

/-- Every pair closed at once by a halt, a reset or the entry to DEEP (R301). -/
def State.closeFabric (s : State) (reason : Nat) : State := (List.range 4).foldl (fun s k => s.closePair k reason) s

/-! ## Admission (R291, R292) -/

/-- The links READY at an epoch boundary (R292): those of the lowest port not yet admitted, and those of the ports admitted before, become UP and
advertise their parts. -/
def State.admitPorts (s : State) : State :=
  if !s.fpc.firstCommit || s.vlt.st < 2 || s.vlt.st = 4 then s
  else
    let ready := fun (p : Nat) => (List.range (s.nLinks p)).any (fun l => (s.link p l).st == .ready)
    let new := ((List.range 8).find? (fun p => ready p && !s.fpc.admitted.contains p)).toList
    let s := { s with fpc := { s.fpc with admitted := s.fpc.admitted ++ new } }
    s.fpc.admitted.foldl (fun s p => (List.range (s.nLinks p)).foldl (fun s l =>
      if (s.link p l).st == .ready then (s.modLink p l (fun x => { x with st := .up, wasUp := true })).sendCredits p l else s) s) s

end Sys2Proof.Machine
end

