-- ==== Sys2Proof/Machine/Transport.lean ====
section
/-! DEFINITION. The fabric transport (14): flits as received, transactions, retry, link keys and rekey, and the abort. A command of an arriving flit gives
whether one of its codewords was uncorrectable (`ue`), its header, its payload as its fields, and its 16-byte tag as received: the tag is verified here, under
the receive key and the flit's position (R311). A packet's flits carry the HEAD's header with TYPE BODY and their own SEQ. -/

namespace Sys2Proof.Machine

/-! ## Flit headers (R303) -/

def hdrType (h : Nat) : Nat := bits h 3 0
def hdrVc (h : Nat) : Nat := bits h 6 4
def hdrSeq (h : Nat) : Nat := bits h 19 8
def hdrAck (h : Nat) : Nat := bits h 31 20
def hdrHolder (h : Nat) : Nat := bits h 39 32
def hdrCrVc (h : Nat) : Nat := bits h 42 40
def hdrCount (h : Nat) : Nat := bits h 47 43
def hdrRetry (h : Nat) : Bool := bit h 52

/-- Whether a header keeps R303 and the VCs of R304: GENF 1, reserved bits zero, a type never sent absent, packets on VCs 1–5. -/
def hdrGood (h : Nat) : Bool :=
  bits h 51 48 == 1 && bits h 63 53 == 0 && decide (hdrType h < 8)
    && (if hdrType h = 2 || hdrType h = 3 then decide (1 ≤ hdrVc h) && decide (hdrVc h ≤ 5) else hdrVc h == 0)

/-- A 16-bit count of a register holding two of them, the upper where `hi`, counted up and saturating at 0xFFFF. -/
def State.bump16 (s : State) (a : Nat) (hi : Bool) : State :=
  if hi then s.wf a 31 16 (min 0xFFFF (s.rf a 31 16 + 1)) else s.wf a 15 0 (min 0xFFFF (s.rf a 15 0 + 1))

/-- One more protocol discard (LLY_FPC_LNKCNT.PROTO). -/
def State.proto (s : State) : State := s.bump16 R.fpcLnkcnt true

/-! ## Credits and acknowledgements of a flit (12 R277, R310) -/

/-- The partner's part for a holder of its own that is our slice `h` (255: the system tag) on a VC (R308). -/
def State.peerPart (s : State) (p l v h : Nat) : Nat :=
  let fs := (s.sdef h).elim 0 SliceDef.fsliceId
  match (tget (dflt []) s.fpc.entries (4 * p + l)).find? (fun e => e.1 == fs) with
  | some e => e.2.2 / 2 ^ (24 * v) % 2 ^ 24
  | none => 0

/-- Credits of a sender brought to the partner's part; those of flits in flight stay spent. -/
def State.creditTx (s : State) (p l v h : Nat) (out : Nat → Nat) : State :=
  let part := s.peerPart p l v h
  s.modFab p l v h (fun c =>
    let o := out c.txOut
    { c with txOut := o, txGranted := max part o, txHeld := max part o - o })

/-- The holder here that the partner's holder index names (R308). -/
def State.holderOf (s : State) (p l i : Nat) : Option Nat :=
  match (tget (dflt []) s.fpc.entries (4 * p + l)).find? (fun e => e.2.1 == i) with
  | some e => if e.1 = 0 then some 0xFF else (s.slices.find? (fun d => d.fsliceId == e.1)).map SliceDef.slice
  | none => none

/-- ACK and RETRY of an arriving flit (R310): entries up to ACK are freed; RETRY sends the rest again, counted in LLY_FPC_RETRY. -/
def State.ackFlit (s : State) (p l : Nat) (h : Nat) : State :=
  let x := s.link p l
  let sent := (x.txSeq + 4096 - x.acked) % 4096
  let n := (hdrAck h + 1 + 4096 - x.acked) % 4096
  let freed := if n ≤ sent then n else 0
  let s := s.modLink p l (fun x => { x with replay := x.replay.drop freed, acked := (x.acked + freed) % 4096 })
  let s := if hdrRetry h then (s.bump R.fpcRetry (sent - freed)).modLink p l (fun x => { x with txSeq := x.acked }) else s
  s.flushLink p l 2048

/-- Credits a flit returns go to the one holder they name (12 R277). -/
def State.creditFlit (s : State) (p l : Nat) (h : Nat) : State :=
  match s.holderOf p l (hdrHolder h) with
  | some n => s.creditTx p l (hdrCrVc h) n (fun o => o - hdrCount h)
  | none => s

/-- The flits of a message (R307): header and payload of each. -/
def flitsOf (hdr : Nat) (d : List Byte) : List (Nat × List Byte) :=
  (List.range (max 1 (ceilDiv d.length 232))).map (fun i =>
    (if i = 0 then hdr else hdr - hdr % 16 + 3 - 2 ^ 8 * hdrSeq hdr + 2 ^ 8 * ((hdrSeq hdr + i) % 4096), slice (d.drop (232 * i)) 0 232))

/-- The receive key for a flit (R315): while the old key is kept, all but a SYNC with the new KEYSEL. -/
def Link.rxKey (x : Link) (hdr : Nat) : List Byte :=
  if x.oldKey && !(hdrType hdr = 1 && bit hdr 7 == x.keysel) then x.keyPrev else x.keyRx

/-- Whether the tags of a message's flits verify (R311), the first at position `ctr`. -/
def tagsOk (key : List Byte) (ctr : Nat) (fs : List (Nat × List Byte)) (tags : List Byte) : Bool :=
  fs.zipIdx.all (fun e => (sealFlit key (ctr + e.2) e.1.1 e.1.2).drop 240 == slice (tags.drop (16 * e.2)) 0 16)

/-- A message of one or more flits arrives on a link (R303, R304, R310, R314): discarded where its codewords or a tag fail or its SEQ is not the next, with
RETRY told once per gap; otherwise acknowledged, and passed on if its header keeps the rules. `keyx` marks the messages a link takes in training. A SYNC is
verified under the counter it carries (R312), any other flit under its position. -/
def State.rxFlit (s : State) (p l hdr : Nat) (d : List Byte) (ue : Bool) (tags : List Byte) (keyx : Bool) : State × Bool :=
  let x := s.link p l
  let serves := x.st.carries || (keyx && (x.st == .training || x.st == .ready))
  if !serves || s.mce.fenced then (s, false)
  else
    let fs := flitsOf hdr d
    let n := fs.length
    let s := s.modLink p l (fun x => { x with rxCtr := x.rxCtr + n })
    let lose := fun (s : State) => s.modLink p l (fun x => { x with gap := true, gapTold := x.gap && x.gapTold })
    if ue then (lose s, false)
    else if !tagsOk (x.rxKey hdr) (if hdrType hdr = 1 then fieldAt d 224 8 else x.rxCtr) fs tags then
      let s := (lose (s.bump16 R.fpcLnkcnt false)).modLink p l (fun x => { x with gcmBad := x.gcmBad + 1 })
      (if x.st.carries && s.rf R.fpcGcmLimit 7 0 < x.gcmBad + 1 then s.linkDown p l 7 else s, false)
    else
      let numbered := hdrType hdr != 0 && hdrType hdr != 1
      if numbered && hdrSeq hdr != x.rxSeq then (lose s, false)
      else
        let s := if numbered then s.modLink p l (fun x => { x with rxSeq := (x.rxSeq + n) % 4096, gap := false, gapTold := false }) else s
        let s := (s.ackFlit p l hdr).creditFlit p l hdr
        if hdrGood hdr then (s, true) else (s.proto, false)

/-- A flit of a system message (R304): its header must carry TYPE `type`. -/
def State.rxSystem (s : State) (p l hdr type : Nat) (d : List Byte) (ue : Bool) (tag : List Byte) (keyx : Bool) : State × Bool :=
  let r := s.rxFlit p l hdr d ue tag keyx
  if r.2 && hdrType hdr != type then (r.1.proto, false) else r

/-- IDLE (R304): a flit with nothing but acknowledgements and credits. -/
def execIdle (p l hdr : Nat) (ue : Bool) (tag : List Byte) (s : State) : Host.Outcome State Fault Refusal :=
  .next (s.rxSystem (p % 8) l hdr 0 [] ue tag false).1

/-- SYNC (R312): the receiver's count restarts at the counter the flit carries, where that exceeds every one accepted in the session. With the new
KEYSEL of a rekey it starts the new session's count, and the old key is zeroised (R315). -/
def execSync (p l hdr ctr : Nat) (ue : Bool) (tag : List Byte) (s : State) : Host.Outcome State Fault Refusal :=
  let p := p % 8
  let r := s.rxSystem p l hdr 1 (zeros 224 ++ leBytes 8 ctr) ue tag true
  let x := s.link p l
  if !r.2 then .next r.1
  else if x.oldKey && bit hdr 7 == x.keysel then
    .next (r.1.modLink p l (fun x => { x with rxCtr := ctr + 1, oldKey := false, keyPrev := [], rekey := 0 }))
  else if x.rxCtr ≤ ctr then .next (r.1.modLink p l (fun x => { x with rxCtr := ctr + 1 }))
  else .next r.1

/-- CREDIT (R308): the partner's holders with their indices and parts on each VC; flit `i` of an advertisement, the first of which replaces the entries held. The
sender's credits follow them. -/
def execCredit (p l hdr i : Nat) (entries : List (Nat × Nat × List Nat)) (ue : Bool) (tag : List Byte) (s : State) : Host.Outcome State Fault Refusal :=
  let p := p % 8
  let r := s.rxSystem p l hdr 4 (creditPayload i (entries.take 6)) ue tag false
  if !r.2 then .next r.1
  else
    let es := (entries.take 6).map (fun e => (e.1, e.2.1, lsum ((List.range 8).map (fun v => e.2.2.getD v 0 % 2 ^ 24 * 2 ^ (24 * v)))))
    let all := (if i = 0 then [] else tget (dflt []) r.1.fpc.entries (4 * p + l)) ++ es
    let s := { r.1 with fpc := { r.1.fpc with entries := tset (dflt []) r.1.fpc.entries (4 * p + l) all } }
    .next ((s.fabHolders p).foldl (fun s h => (List.range 8).foldl (fun s v => s.creditTx p l v h id) s) s)

/-! ## Transactions (R307–R309) -/

/-- Flits of a packet carrying `n` bytes. -/
def packetFlits (n : Nat) : Nat := ceilDiv (24 + n) 232

/-- A transaction header (R307). -/
def txHeader (fslice op result len addr rtag aux : Nat) : List Byte :=
  leBytes 4 fslice ++ leBytes 1 op ++ leBytes 1 result ++ leBytes 2 len ++ leBytes 6 addr ++ leBytes 2 rtag ++ leBytes 8 aux

/-! ### A slice's share of a link (13 R284, 11 R265) -/

/-- Whether a slice's share lets it send on a link now: what it has sent above its rate is less than a tick's worth (assumption log 86). -/
def State.mayFab (s : State) (p l n : Nat) : Bool := decide (tget (dflt 0) s.fpc.meter (64 * (4 * p + l) + n) < s.fabRate p l n)

/-- `k` flits sent of a slice's share, which count as its use of the port in the epoch. -/
def State.payFab (s : State) (p l n k : Nat) : State :=
  let s := { s with fpc := { s.fpc with meter := tmod (dflt 0) s.fpc.meter (64 * (4 * p + l) + n) (· + k * flitUnit) } }
  s.modAcc n (fun a => { a with used := tmod (dflt 0) a.used (25 + p) (· + k * 544 * 64) })

/-- A slice's flits have waited for a port in this tick (11 R265). -/
def State.claimFab (s : State) (p n : Nat) : State := s.modAcc n (fun a => a.claim (25 + p))

/-- A tick's share given to every slice on every link. -/
def State.repayFab (s : State) : State :=
  { s with fpc := { s.fpc with meter := tmap (dflt 0) s.fpc.meter (fun k v => v - s.fabRate (k / 64 / 4) (k / 64 % 4) (k % 64)) } }

/-! ### Answers, and requests to the partner -/

/-- An answer sent, where the sender has the credits of its slice on the link and its share (R308, R309); it waits otherwise. The flit slots of the request are
freed and returned. Answers whether it went. -/
def State.respond (s : State) (x : FabIn) : State × Bool :=
  let vc := x.vc + 2
  let ok := x.bad = 0
  let data := if x.write || !ok then [] else
    slice (x.got.flatMap (fun e => e.2)) (x.addr % 256) x.len
  let n := packetFlits data.length
  let c := s.fab x.port x.link vc x.sl
  let free := x.bad = 3 || (s.sdef x.sl).isNone
  if !free && (c.txHeld < n || !s.mayFab x.port x.link x.sl) then (s.claimFab x.port x.sl, false)
  else
    let s := if free then s else
      (s.modFab x.port x.link vc x.sl (fun c => { c with txHeld := c.txHeld - n, txOut := c.txOut + n })).payFab x.port x.link x.sl n
    let s := s.modFab x.port x.link x.vc x.sl (fun c => { c with rxOcc := c.rxOcc - min c.rxOcc x.slots, rxRet := c.rxRet + min c.rxOcc x.slots })
    let op := if !ok then 5 else if x.write then 4 else 3
    (s.sendPacket x.port x.link vc (txHeader x.fslice op x.bad (if ok then x.len else 0) x.addr x.rtag 0 ++ data), true)

/-- Response slots a slice has reserved on a link and response VC for its reads that await their answer (R309). -/
def State.reserved (s : State) (p l vc n : Nat) : Nat :=
  lsum ((s.fpc.out.filter (fun o => o.sent && o.op == 1 && o.port == p && o.link == l && o.vc + 2 == vc && o.sl == n)).map (fun o => packetFlits o.len))

/-- Whether a request may leave (R305, R308, R309): its link is up and its slice not contained; it holds the credits of its flits and its share; and a read finds,
in its slice's own part of the response VC, the flit slots of the whole response. -/
def State.mayAsk (s : State) (o : FabOut) : Bool :=
  let n := packetFlits (if o.op = 2 then o.len else 0)
  (s.link o.port o.link).st == .up && !s.contained o.sl && decide (n ≤ (s.fab o.port o.link o.vc o.sl).txHeld) && s.mayFab o.port o.link o.sl
    && (o.op != 1 || decide (s.reserved o.port o.link (o.vc + 2) o.sl + packetFlits o.len ≤ s.linkPart o.port o.link (o.vc + 2) o.sl))

/-- A request leaves and awaits its answer. -/
def State.askPartner (s : State) (o : FabOut) : State :=
  let n := packetFlits (if o.op = 2 then o.len else 0)
  let s := { s with fpc := { s.fpc with out := lmod s.fpc.out (· == o) (fun o => { o with sent := true }) } }
  let s := (s.modFab o.port o.link o.vc o.sl (fun c => { c with txHeld := c.txHeld - n, txOut := c.txOut + n })).payFab o.port o.link o.sl n
  s.sendPacket o.port o.link o.vc (txHeader ((s.sdef o.sl).elim 0 SliceDef.fsliceId) o.op 0 o.len o.addr o.rtag 0 ++ if o.op = 2 then o.data else [])

/-- Requests of this package that may leave do, each slice's on a link and VC in their order. -/
def State.pumpOut (s : State) : State :=
  ((s.fpc.out.filter (fun o => !o.sent)).foldl (fun (acc : State × List FabOut) o =>
    if acc.2.any (fun b => b.sl == o.sl && b.port == o.port && b.link == o.link && b.vc == o.vc) then acc
    else if acc.1.mayAsk o then (acc.1.askPartner o, acc.2)
    else (acc.1.claimFab o.port o.sl, acc.2 ++ [o])) (s, [])).1

/-- Answers that are due go out, then requests, and credits return (R277, R305, R307). A request whose lines the Binder denied is answered with the reason. -/
def State.pumpFab (s : State) : State :=
  let s := s.fpc.ins.foldl (fun s x =>
    let waits := s.mce.reqs.any (fun r => r.id == x.id)
    let x := if x.left != 0 && !waits && x.bad = 0 then
        { x with bad := (match s.filter .fab x.sl x.port x.fslice x.addr x.len (!x.write) x.write with | .deny 10 => 2 | _ => 1) }
      else x
    if waits && x.left != 0 then s
    else
      let r := s.respond x
      if r.2 then { r.1 with fpc := { r.1.fpc with ins := r.1.fpc.ins.filter (fun y => y.id != x.id) } } else r.1) s
  let s := s.pumpOut
  (s.tpl.fab.filter (fun e => e.2.rxRet != 0)).foldl (fun s e =>
    let h := e.1 % 256
    let v := e.1 / 256 % 8
    let p := e.1 / 2048 / 4
    let l := e.1 / 2048 % 4
    if !(s.link p l).sends || s.mce.fenced then s
    else
      let n := min 31 e.2.rxRet
      let s := s.modFab p l v h (fun c => { c with rxRet := c.rxRet - n })
      (s.advertise p l v h).emitFlit p l 0 0 0 [h, v, n] []) s

/-- The fabric at a tick: shares are given, and what may leave does. -/
def State.fabTick (s : State) : State := if s.mce.fenced then s else s.repayFab.pumpFab

/-- A task's request for the memory of its partner on a link of its slice (R306, R307): port, link, the priority class of its queue, which picks the VC (R305), and
its tag. On a port its slice does not hold nothing is asked. -/
def State.farRequest (s : State) (n addr len : Nat) (write : Bool) (data : List Byte) (far : Nat × Nat × Nat × Nat) : State :=
  let p := far.1 % 8
  match s.sdef n with
  | some d =>
    if !bit d.fabMask p || s.contained n || 4096 < len || s.nLinks p ≤ far.2.1 then s
    else
      let o : FabOut := ⟨n, p, far.2.1, far.2.2.2 % 65536, if write then 2 else 1, if far.2.2.1 < 2 then 1 else 2, addr, len, if write then slice data 0 len else [], false⟩
      { s with fpc := { s.fpc with out := s.fpc.out ++ [o] } }.pumpOut
  | none => s

/-- MEMORY_REQUEST (03 R60, R309): a request `id` of class code `cls` arrives at its port; with `far` it is one for the partner's memory. Behind the fence of a halt
nothing is answered (05 R114); a held request waits undecided (04 R86); a contained slice's is answered with an error and no event (22 R471). -/
def execMemoryRequest (id cls tag addr len : Nat) (write : Bool) (mask : Nat) (data : List Byte) (port aux sub : Nat)
    (far : Option (Nat × Nat × Nat × Nat)) (s : State) : Host.Outcome State Fault Refusal :=
  if s.mce.fenced then .next s
  else match far with
    | some x => .next (s.farRequest tag addr len write data x)
    | none => .next (s.enterRequest (id % 2 ^ 40) (RClass.ofCode cls) tag port aux addr (max 1 len) write mask data (s.now sub))

/-- A packet arrives (R307): its HEAD passes as a flit, on a VC of `vcs` (R305). Answers the state and whether the packet is served. -/
def State.rxPacket (s : State) (p l hdr : Nat) (head data : List Byte) (vcs : List Nat) (ue : Bool) (tag : List Byte) : State × Bool :=
  let r := s.rxFlit p l hdr (head ++ data) ue tag false
  if !r.2 then r
  else if hdrType hdr != 2 || !vcs.contains (hdrVc hdr) then (r.1.proto, false)
  else r

/-- The local slice a packet names (R308). -/
def State.fabSlice (s : State) (fslice : Nat) : Option SliceDef :=
  if fslice = 0 then none else s.slices.find? (fun d => d.fsliceId == fslice)

/-- RD and WR (R307, R308, R320): the request takes the tag of the local slice it names and passes the Binder as class FAB; one that names no local
slice is answered NO_SLICE, one of a contained slice ABORTED, one of no bytes at once. -/
def State.serveFab (s : State) (p l hdr fslice result len addr rtag : Nat) (write : Bool) (data : List Byte) (ue : Bool) (tag : List Byte) : State :=
  let r := s.rxPacket p l hdr (txHeader fslice (if write then 2 else 1) result len addr rtag 0) (if write then slice data 0 len else []) [1, 2] ue tag
  if !r.2 then r.1
  else if result != 0 || 4096 < len then r.1.proto
  else
    let s := r.1
    let id := 2 ^ 51 + s.draws
    let n := packetFlits (if write then len else 0)
    let x : FabIn := ⟨id, 0xFF, fslice, p, l, hdrVc hdr, rtag, write, addr, len, 0, [], 0, 0⟩
    let s := s.drawn
    match s.fabSlice fslice with
    | none => (s.respond { x with bad := 3 }).1.proto
    | some d =>
      let s := s.modFab p l (hdrVc hdr) d.slice (fun c => { c with rxPartner := c.rxPartner - min c.rxPartner n, rxOcc := c.rxOcc + min c.rxPartner n })
      let x := { x with sl := d.slice, slots := n }
      let put := fun (s : State) (x : FabIn) => { s with fpc := { s.fpc with ins := s.fpc.ins ++ [x] } }
      if s.contained d.slice then (put s { x with bad := 4 }).pumpFab
      else if len = 0 then (put s x).pumpFab
      else
        let lines := (linesOf addr len (2 ^ len - 1) (slice data 0 len)).length
        (put s { x with left := lines }).enterRequest id .fab d.slice p fslice addr len write (2 ^ len - 1) (slice data 0 len) (s.now 0)

/-- RD (R307). -/
def execRd (p l hdr fslice result len addr rtag : Nat) (ue : Bool) (tag : List Byte) (s : State) : Host.Outcome State Fault Refusal :=
  .next (s.serveFab (p % 8) l hdr fslice result len addr rtag false [] ue tag)

/-- WR (R307). -/
def execWr (p l hdr fslice result len addr rtag : Nat) (data : List Byte) (ue : Bool) (tag : List Byte) (s : State) : Host.Outcome State Fault Refusal :=
  .next (s.serveFab (p % 8) l hdr fslice result len addr rtag true data ue tag)

/-- RDRSP, WRACK and ERR (R307): the request outstanding on that link with that tag ends with RESULT and the data, and its flits' slots and what was reserved for
it are free again; an answer to nothing outstanding counts as a protocol discard. -/
def State.fabAnswer (s : State) (p l hdr fslice op result addr rtag : Nat) (ops : List Nat) (data : List Byte) (ue : Bool) (tag : List Byte) : State :=
  let r := s.rxPacket p l hdr (txHeader fslice op result data.length addr rtag 0) data [3, 4] ue tag
  if !r.2 then r.1
  else
    let s := r.1
    match (s.fabSlice fslice).bind (fun d =>
      s.fpc.out.find? (fun o => o.sent && o.sl == d.slice && o.port == p && o.link == l && o.rtag == rtag && ops.contains o.op)) with
    | none => s.proto
    | some o =>
      let n := packetFlits data.length
      let s := s.modFab p l (hdrVc hdr) o.sl (fun c =>
        let k := min c.rxPartner n
        { c with rxPartner := c.rxPartner - k, rxRet := c.rxRet + k })
      { s with fpc := { s.fpc with out := s.fpc.out.erase o } }.emit .memDone [o.sl, o.rtag, result] (slice data 0 (if o.op = 1 && result = 0 then o.len else 0))

/-- RDRSP (R307). -/
def execRdrsp (p l hdr fslice addr rtag : Nat) (data : List Byte) (ue : Bool) (tag : List Byte) (s : State) : Host.Outcome State Fault Refusal :=
  .next (s.fabAnswer (p % 8) l hdr fslice 3 0 addr rtag [1] data ue tag)

/-- WRACK (R307). -/
def execWrack (p l hdr fslice addr rtag : Nat) (ue : Bool) (tag : List Byte) (s : State) : Host.Outcome State Fault Refusal :=
  .next (s.fabAnswer (p % 8) l hdr fslice 4 0 addr rtag [2] [] ue tag)

/-- ERR (R307). -/
def execErr (p l hdr fslice result addr rtag : Nat) (ue : Bool) (tag : List Byte) (s : State) : Host.Outcome State Fault Refusal :=
  .next (s.fabAnswer (p % 8) l hdr fslice 5 (max 1 result) addr rtag [1, 2] [] ue tag)

/-- SIGNAL (R307): a sync counter of the slice named becomes max(counter, AUX). -/
def execSignal (p l hdr fslice result len aux : Nat) (ue : Bool) (tag : List Byte) (s : State) : Host.Outcome State Fault Refusal :=
  let p := p % 8
  let r := s.rxPacket p l hdr (txHeader fslice 6 result len 0 0 aux) [] [5] ue tag
  if !r.2 then .next r.1
  else match r.1.fabSlice fslice with
    | none => .next r.1.proto
    | some d =>
      if result != 0 || 255 < len || !bit d.fabMask p then .next r.1.proto
      else if r.1.contained d.slice then .next r.1
      else .next (r.1.syncSet d.slice len (aux % 2 ^ 64))

/-! ## Link keys (R313–R316) -/

/-- The fabric domain secret (15 R328, 25 R543): fuse rows 31–34. -/
def State.fds (s : State) : List Byte := (List.range 4).flatMap (fun r => leBytes 8 (s.otpRow (31 + r)))

/-- What the link's keys are derived for (R313): nonce_L ‖ nonce_H ‖ fp_L ‖ fp_H ‖ session number, side L having the lower nonce. -/
def State.linkContext (s : State) (x : Link) (n : Nat) : List Byte :=
  let low := decide (x.nonceOwn < x.noncePeer)
  let ns := (leBytes 32 (x.nonceOwn - 1), leBytes 32 (x.noncePeer - 1))
  let fp := (leBytes 4 s.packageFp, leBytes 4 x.peerFp)
  (if low then ns.1 ++ ns.2 ++ fp.1 ++ fp.2 else ns.2 ++ ns.1 ++ fp.2 ++ fp.1) ++ leBytes 4 n

/-- Both nonces are known: the keys of session `n` are derived under the fabric domain secret (R313): K and salt of L→H, then of H→L. The transmit count starts at 0. -/
def State.newSession (s : State) (p l n : Nat) : State :=
  let x := s.link p l
  let c := s.linkContext x n
  let k := kdf s.fds "LLY-LINK" c 576
  let low := decide (x.nonceOwn < x.noncePeer)
  s.modLink p l (fun x => { x with
    session := n, keysel := n % 2 == 1, txCtr := 0, keyCf := kdf s.fds "LLY-LINK-CF" c 384,
    keyTx := slice k (if low then 0 else 36) 36, keyRx := slice k (if low then 36 else 0) 36 })

/-- What a CONFIRM carries (R313): HMAC-SHA-384 of the two HELLO payloads, side L's first, under the confirmation key. -/
def State.confirmMac (s : State) (x : Link) : List Byte :=
  let a := helloPayload (x.nonceOwn - 1) s.packageFp
  let b := helloPayload (x.noncePeer - 1) x.peerFp
  hmac384 x.keyCf (if x.nonceOwn < x.noncePeer then a ++ b else b ++ a)

/-- HELLO (R313): the partner's nonce and fingerprint; the keys of session 1 follow, and SYNC and CONFIRM go out under them. Equal nonces end the training with
KEY, as does an unfused fabric domain secret (15 R329). -/
def execHello (p l hdr nonce fp : Nat) (ue : Bool) (tag : List Byte) (s : State) : Host.Outcome State Fault Refusal :=
  let p := p % 8
  let x := s.link p l
  if x.st != .training || x.noncePeer != 0 then .next s
  else
    let r := s.rxSystem p l hdr 5 (helloPayload nonce fp) ue tag true
    if !r.2 then .next r.1
    else
      let s := r.1.sendHello p l
      let x := s.link p l
      if x.nonceOwn = 0 then .next s
      else if x.nonceOwn = nonce % 2 ^ 256 + 1 || s.fds.all (· == 0) then .next (s.linkDown p l 7)
      else
        let s := (s.modLink p l (fun x => { x with noncePeer := nonce % 2 ^ 256 + 1, peerFp := fp })).newSession p l 1
        .next ((s.sendSync p l).sendFlit p l 5 0 ([2] ++ s.confirmMac (s.link p l)))

/-- CONFIRM (R313): under the new key, with the HMAC of the two HELLO payloads, it completes phase 4; one whose tag or HMAC fails ends training with KEY. -/
def execConfirm (p l hdr : Nat) (mac : List Byte) (ue : Bool) (tag : List Byte) (s : State) : Host.Outcome State Fault Refusal :=
  let p := p % 8
  let x := s.link p l
  if x.st != .training || x.noncePeer = 0 || x.keyed || s.mce.fenced then .next s
  else
    let r := s.rxSystem p l hdr 5 ([2] ++ mac) ue tag true
    if ue then .next r.1
    else if !tagsOk x.keyRx x.rxCtr (flitsOf hdr ([2] ++ mac)) tag || mac != s.confirmMac x then .next (r.1.linkDown p l 7)
    else if !r.2 then .next r.1
    else .next (r.1.modLink p l (fun x => { x with keyed := true }))

/-- KEYX_TIMEOUT (R313): no CONFIRM within 1 ms (3,907 tk) of this side's HELLO. -/
def execKeyxTimeout (p l : Nat) (s : State) : Host.Outcome State Fault Refusal :=
  let p := p % 8
  let x := s.link p l
  if x.st == .training && x.nonceOwn != 0 && !x.keyed && decide (x.keyAt + 3907 ≤ s.spn.tick) then .next (s.linkDown p l 7) else .next s

/-- A rekey asked of the partner with a fresh nonce (R315). -/
def State.askRekey (s : State) (p l : Nat) : State :=
  if s.vlt.drbgStopped then s
  else
    let n := leNat (slice (Config.random s.draws 32) 0 32)
    let s := s.drawn.modLink p l (fun x => { x with rekey := 1, nonceOwn := n + 1, keyAt := s.spn.tick })
    s.sendFlit p l 5 0 ([3] ++ leBytes 32 n)

/-- REKEY_THRESHOLD (R315): a direction's count has reached 2^39, IDLE flits included: the transmit one, and this side asks; or the receive one where `rx`, and the
partner asks. -/
def execRekeyThreshold (p l : Nat) (rx : Bool) (s : State) : Host.Outcome State Fault Refusal :=
  let p := p % 8
  let x := s.link p l
  if !x.st.carries || x.rekey != 0 then .next s
  else if rx then .next (s.modLink p l (fun x => { x with rxCtr := max x.rxCtr (2 ^ 39) }))
  else .next ((s.modLink p l (fun x => { x with txCtr := max x.txCtr (2 ^ 39) })).askRekey p l)

/-- The keys of the next session are taken into use (R315): SYNC with counter 0 under the new transmit key; the old receive key is kept until the
partner's SYNC. -/
def State.switchKeys (s : State) (p l nonce : Nat) : State :=
  let s := (s.modLink p l (fun x => { x with noncePeer := nonce % 2 ^ 256 + 1, rekey := 2, oldKey := true, keyPrev := x.keyRx })).newSession p l ((s.link p l).session + 1)
  s.sendSync p l

/-- REKEY_REQ (R315): the partner asks; REKEY_ACK answers with this side's nonce, and the keys switch. -/
def execRekeyReq (p l hdr nonce : Nat) (ue : Bool) (tag : List Byte) (s : State) : Host.Outcome State Fault Refusal :=
  let p := p % 8
  let r := s.rxSystem p l hdr 5 ([3] ++ leBytes 32 nonce) ue tag false
  if !r.2 || r.1.vlt.drbgStopped then .next r.1
  else
    let s := r.1
    let n := leNat (slice (Config.random s.draws 32) 0 32)
    let s := (s.drawn.modLink p l (fun x => { x with nonceOwn := n + 1 })).sendFlit p l 5 0 ([4] ++ leBytes 32 n)
    .next (s.switchKeys p l nonce)

/-- REKEY_ACK (R315): the partner's nonce; the keys switch. -/
def execRekeyAck (p l hdr nonce : Nat) (ue : Bool) (tag : List Byte) (s : State) : Host.Outcome State Fault Refusal :=
  let p := p % 8
  let r := s.rxSystem p l hdr 5 ([4] ++ leBytes 32 nonce) ue tag false
  if r.2 && (r.1.link p l).rekey = 1 then .next (r.1.switchKeys p l nonce) else .next r.1

/-- REKEY_TIMEOUT (R315): a request 1 ms old without its answer is made again at an epoch boundary, with a new nonce. -/
def execRekeyTimeout (p l : Nat) (s : State) : Host.Outcome State Fault Refusal :=
  let p := p % 8
  let x := s.link p l
  if x.rekey = 1 && decide (x.keyAt + 3907 ≤ s.spn.tick) && s.spn.tick % 4000 == 0 then .next (s.askRekey p l) else .next s

/-- COUNTER_LIMIT (R316): a direction past 2^39 without switched keys has reached 2^40: its link goes DOWN with KEY. -/
def execCounterLimit (p l : Nat) (s : State) : Host.Outcome State Fault Refusal :=
  let p := p % 8
  let x := s.link p l
  if x.st.carries && x.rekey != 2 && (decide (2 ^ 39 ≤ x.txCtr) || decide (2 ^ 39 ≤ x.rxCtr)) then .next (s.linkDown p l 7) else .next s

/-! ## Abort (R318–R320) -/

/-- The payload of an ABORT (R318): FSLICE_ID, HOPS, KIND, 16 reserved bits, X, ORIGIN, and the reserved bytes from 0x14. -/
def abortPayload (fslice hops kind res x origin : Nat) (rest : List Byte) : List Byte :=
  leBytes 4 fslice ++ leBytes 1 hops ++ leBytes 1 kind ++ leBytes 2 res ++ leBytes 8 x ++ leBytes 4 origin ++ slice rest 0 208

/-- ABORT sent on every UP link of a slice's ports but the one it came in on (R318, R319). -/
def State.sendAbort (s : State) (d : SliceDef) (x hops kind origin : Nat) (but : Option (Nat × Nat)) : State :=
  let pay := abortPayload d.fsliceId hops kind 0 x origin []
  (maskList d.fabMask 8).foldl (fun s p => (List.range (s.nLinks p)).foldl (fun s l =>
    if (s.link p l).st == .up && but != some (p, l) then s.sendFlit p l 7 0 pay else s) s) s

/-- The abort tick a slice holds (R319). -/
def State.abortTick (s : State) (n : Nat) : Option Nat := tget (dflt none) s.fpc.abortAt n

/-- The same set. -/
def State.setAbort (s : State) (n : Nat) (x : Option Nat) : State :=
  { s with fpc := { s.fpc with abortAt := tset (dflt none) s.fpc.abortAt n x } }

/-- ABORT (R319): an earlier tick than the one held is adopted, forwarded, and raised as a class 3 event. `res` and `rest` are the payload's
reserved fields. -/
def execAbort (p l hdr fslice hops kind x origin res : Nat) (rest : List Byte) (ue : Bool) (tag : List Byte) (s : State) : Host.Outcome State Fault Refusal :=
  let p := p % 8
  let r := s.rxSystem p l hdr 7 (abortPayload fslice hops kind res x origin rest) ue tag false
  if !r.2 then .next r.1
  else
    let s := r.1
    match (if x = 0 || res != 0 || rest.any (· != 0) then none else s.fabSlice fslice) with
    | none => .next s.proto
    | some d =>
      if !bit d.fabMask p then .next s.proto
      else if (match s.abortTick d.slice with | some y => decide (y ≤ x) | none => false) then .next s
      else
        let s := ((s.setAbort d.slice (some x)).bump16 R.fpcAbort false).sendAbort d x (hops + 1) kind origin (some (p, l))
        .next (s.raise ⟨3, some d.slice, Sub.fpc, .abortIn fslice x hops kind origin p⟩)

end Sys2Proof.Machine
end

