-- ==== Sys2Proof/Machine/Faults.lean ====
section
/-! DEFINITION. The Fault manager (22): fault records, containment, capture, recovery, slice reset and block reset, and the watchdogs
and compute-die reports that raise faults. -/

namespace Sys2Proof.Machine

/-! ## Records (R475–R479) -/

/-- The 64 bytes of a fault record (R476). -/
def FaultRec.bytes (r : FaultRec) : List Byte :=
  let e := r.ev
  let b := leBytes 4 r.fseq ++ leBytes 1 (1 + 16 * (e.scope % 8) + (if r.primary then 128 else 0)) ++ leBytes 1 e.kind ++ leBytes 1 r.slice
    ++ leBytes 1 e.cluster ++ leBytes 8 r.tick ++ leBytes 8 e.taskId ++ leBytes 2 e.queue ++ leBytes 2 e.jgen
    ++ leBytes 1 (match e.engine with | some k => k % 4 + 4 | none => 0) ++ leBytes 1 e.sub ++ leBytes 2 e.aux
    ++ leBytes 4 (if e.engine.isSome then e.instr else 0) ++ leBytes 4 e.da ++ leBytes 6 e.addr ++ leBytes 2 0
    ++ leBytes 4 e.db ++ leBytes 4 e.dc ++ leBytes 2 r.lost ++ leBytes 1 r.capture ++ [0]
  b ++ leBytes 4 (crc32c b)

/-- What PF0 sees of a fault or report (R479), and its interrupt cause (26 R556). `sl` 0xFF and scope 0 for a BLOCK kind. -/
def State.showFault (s : State) (kind scope sl : Nat) : State :=
  ((s.wr R.fltLast (kind + 256 * scope + 65536 * sl)).bump R.fltCount 1).irq 2

/-- LLY_ALERT_n (R490, 25 R529): asserted for a block fault from its effective tick, a block reset, FAILED, a supply warning or a thermal trip. -/
def State.syncAlert (s : State) : State :=
  let coming := s.spn.effs.any (fun e => match e.ev.body with | .blockReset _ => decide (e.stamp + 2 ≤ s.spn.tick) | _ => false)
  { s with pins := { s.pins with alertN := !(s.flt.block != 0 || coming || s.src.warn || s.src.tripAlert) } }

/-- A fault on a cluster that names no queue takes queue, job generation and TASK_ID from the slice's task there (R476). -/
def State.named (s : State) (n : Nat) (e : FaultEv) : FaultEv :=
  if e.cluster < 64 && e.queue == 0xFFFF then
    match s.taskOn e.cluster with
    | some t => if t.sl = n then { e with queue := t.queue, jgen := t.jgen, taskId := fieldAt t.desc 8 8 } else e
    | none => e
  else e

/-- A record of slice `n` written (R475–R478): stored where one of the 64 places is free, copied to the recorder (24 R516) in class `cls`, the VF's
FAULT event signalled. -/
def State.writeFault (s : State) (n cls tick : Nat) (e : FaultEv) (primary : Bool) (capture : Nat) : State :=
  let x := s.fsl n
  let r : FaultRec := ⟨(x.fseq + 1) % 2 ^ 32, primary, n, tick, e, x.lost, capture⟩
  let full := decide (64 ≤ x.store.length)
  let upd : FltSlice → FltSlice := fun x => { x with
    fseq := r.fseq, store := if full then x.store else x.store ++ [r], lost := if full then min 0xFFFF (x.lost + 1) else 0 }
  let s := s.modFsl n upd
  let d1 := e.cluster % 256 + (match e.engine with | some k => 256 * (k % 4) + 1024 | none => 0) + 2048 * (e.scope % 8)
    + (if primary then 16384 else 0) + 65536 * (e.sub % 256) + 2 ^ 24 * r.lost + 2 ^ 40 * capture
  let s := s.offer cls 0x10 tick n e.kind e.aux [r.fseq + 2 ^ 32 * (e.queue % 65536) + 2 ^ 48 * (e.jgen % 65536), d1]
  match s.vfOf n with
  | some v => s.hfpEvt v 2
  | none => s

/-- A report of the Fault manager's own, which no event of the Spindle carries (R485, R486). -/
def State.report (s : State) (n : Nat) (e : FaultEv) : State :=
  (s.showFault e.kind 4 n).writeFault n 0 s.spn.tick { e with scope := 4 } false 0

/-- RECOVERY_END with its outcome (R484, R485): the FSEQ of the primary record, and the time since its stamp in whole milliseconds. -/
def State.recoveryEnd (s : State) (n outcome : Nat) : State :=
  let x := s.fsl n
  s.report n { FaultEv.base 0x34 4 [n] with sub := outcome, da := x.primSeq, db := (s.spn.tick - x.stamp) * 256 / 1000000 }

/-! ## Domains (R69, R474) -/

/-- The slices that list a fault domain: bit 0–3 a die, 4–11 a stack, 12–19 a port. -/
def State.listing (s : State) (b : Nat) : List Nat := (s.slices.filter (fun d => bit (s.faultDomains d) b)).map SliceDef.slice

/-- The slices an event concerns. -/
def State.concerned (s : State) (e : FaultEv) : List Nat :=
  match e.domain with
  | some b => s.listing b
  | none => e.slices.filter (fun n => (s.sdef n).isSome)

/-! ## Containment (R471–R473) -/

/-- What happens to a slice at its containment tick (R471, R472): its clusters are told to halt, its fold positions stop, requests beyond neither the
Binder nor a fabric port end with an error. -/
def State.containActs (s : State) (n : Nat) : State :=
  let mine := fun (r : MemReq) => r.tag == n && (r.phase == .held || r.phase == .waiting)
  let gone := s.mce.reqs.filter mine
  let s := { s with mce := { s.mce with reqs := s.mce.reqs.filter (fun r => !mine r) } }
  let s := gone.foldl (fun s r => s.refuseReq r.id r.cls n 0 r.addr) s
  let fin : FabIn → FabIn := fun x => { x with left := 0, bad := 4 }
  let s := { s with fpc := { s.fpc with out := s.fpc.out.filter (fun o => o.sl != n), ins := lmod s.fpc.ins (fun x => x.sl == n) fin } }
  let s := s.stopPositions ((List.range 256).filter (fun p => s.posOwner p == n)) false
  let cl := s.clustersOf n
  (s.modFsl n (fun x => { x with acted := true, notStopped := cl })).emit .ddl [6, n] []

/-- The fault that starts a slice's containment (R467, R471, R484): at the effective tick of its stamp, or at the abort tick the slice holds; one
earlier than the stamp + 2 is counted late (14 R320). -/
def State.startContain (s : State) (n stamp : Nat) (e : Option FaultEv) : State :=
  let x := s.fsl n
  let late := match s.abortTick n with | some t => decide (t < stamp + 2) | none => false
  let c := match s.abortTick n with | some t => max t (stamp + 2) | none => stamp + 2
  let recent := if e.isSome then x.starts.filter (fun t => decide (stamp ≤ t + 234375000)) ++ [stamp] else x.starts
  let upd : FltSlice → FltSlice := fun x => { x with
    phase := .contain, containAt := c, acted := false, since := c, stamp := stamp, primary := e, primSeq := 0, pend := [], starts := recent,
    hold := decide (4 ≤ recent.length), domainOut := false, notStopped := [], inReset := [] }
  let s := s.modFsl n upd
  let s := if late then s.bump16 R.fpcAbort true else s
  if c ≤ s.spn.tick then s.containActs n else s

/-- A TASK fault ends the descriptor whose request failed (R470): a task of a failing CD request with FAULTED, one that saves or restores as
cancelled, its image lost. Passes, fetches and transfers end where their reads are answered. -/
def State.endTask (s : State) (n : Nat) (e : FaultEv) : State :=
  match (if e.cluster < 64 then s.taskOn e.cluster else none) with
  | none => s
  | some t =>
    if t.sl != n then s
    else if e.sub = RClass.cd.code && t.st == .running then
      (((s.dropTask t).withdrawFrom (fun c => c == e.cluster)).complete n t.queue t.entry Status.faulted e.cluster t.saves 0 t.desc 1 0).settleSuspend n t.queue
    else if e.sub = RClass.sav.code && (t.st == .saving || t.st == .restoring) then
      (((s.dropTask t).syncSaveUse n).cancelEntry n t.queue t.entry).settleSuspend n t.queue
    else s

/-- One fault or report of slice `n` at its effective tick (R467). Records behind a containment's first wait until that one is written. -/
def State.sliceFault (s : State) (n stamp : Nat) (e : FaultEv) : State :=
  let e := s.named n e
  let s := s.showFault e.kind e.scope n
  let x := s.fsl n
  let busy := x.phase != .none || s.flt.block != 0
  if e.scope = 2 && !busy || e.scope = 3 && !busy then s.startContain n stamp (some e)
  else
    let s := if e.kind = 0x08 && x.phase == .contain && !x.acted && decide (e.addr < x.containAt) then
        s.modFsl n (fun x => { x with containAt := max e.addr (stamp + 2) }) else s
    let s := if e.scope != 4 && x.phase == .contain && x.primary.isSome && x.primSeq = 0 then
        s.modFsl n (fun x => { x with pend := x.pend ++ [(stamp, e)] })
      else s.writeFault n 3 stamp e false 0
    if e.scope = 1 && !s.contained n then s.endTask n e else s

/-! ## Retraining (R486, R492) -/

/-- Requests of the ports `ps` are held at the Binder (R474, R486). -/
def State.holdPorts (s : State) (ps : List Nat) : State :=
  { s with flt := { s.flt with heldPorts := uniq (s.flt.heldPorts ++ ps) } }

/-- A MEM_TIMEOUT counted for its memory port: the third within 1,000,000 tk retrains the channel, its requests held meanwhile (R486). -/
def State.countTimeout (s : State) (stamp port : Nat) : State :=
  let l := s.flt.memTimeouts.filter (fun e => decide (stamp ≤ e.2 + 1000000)) ++ [(port, stamp)]
  if (l.filter (fun e => e.1 == port)).length < 3 || s.flt.heldPorts.contains port then { s with flt := { s.flt with memTimeouts := l } }
  else
    let s := ({ s with flt := { s.flt with memTimeouts := l.filter (fun e => e.1 != port) } }).holdPorts [port]
    let k := port / 32
    (s.listing (4 + k)).foldl (fun s n => s.report n { FaultEv.base 0x32 4 [n] with da := k, db := 2 ^ (port % 32) }) s

/-- What a slice's recovery retrains, by its primary record (R486). -/
def FaultEv.retrains (e : FaultEv) : List Retrain :=
  if e.kind = 0x20 then (List.range 5).map (fun k => .group (e.da % 4) k)
  else if e.kind = 0x21 then [.stack (e.da % 8)]
  else if e.kind = 0x01 && e.sub = 2 then [.module (e.cluster % 64 / 16) (e.module % 20)]
  else []

/-! ## Effects of the fault events of class 3 -/

/-- A fault or report takes effect (R465–R474). A BLOCK fault is shown to PF0 and recorded; its block reset is an event of its own (R490). -/
def State.faultEffect (s : State) (stamp : Nat) (e : FaultEv) : State :=
  if e.scope = 5 then ((s.showFault e.kind 0 0xFF).offer 3 0x11 stamp 0xFF e.kind 0 []).syncAlert
  else
    let ns := s.concerned e
    let k := e.da % 8
    let whole := e.kind == 0x21 && (e.sub == 2 || (e.sub == 3 && e.db == 0xFFFFFFFF))
    let s := if whole then s.poisonGrains ((List.range stackGrains).map (· + k * stackGrains)) s.spn.tick else s
    let s := if e.kind = 0x20 then s.emit .ddl [9, e.da % 4] [] else s
    let s := if e.kind = 0x21 && !(e.sub == 3 && whole) then s.holdPorts ((List.range 32).map (· + 32 * k)) else s
    let s := ns.foldl (fun s n => s.sliceFault n stamp e) s
    let s := if e.sub = 3 && whole then ns.foldl (fun s n => s.modFsl n (fun x => { x with hold := true, domainOut := true })) s else s
    if e.kind = 0x11 then s.countTimeout stamp e.da else s

/-- A line poisoning takes effect (05 R112): the owner's report, and the ninth makes its grain POISON. -/
def State.linePoisonEffect (s : State) (stamp grain line port cause : Nat) : State :=
  let (s, ninth) := s.countPoison grain
  let o := (s.grain grain).owner
  let e := { FaultEv.base 0x35 4 [o] with sub := cause, da := port, addr := grain * 2 ^ 21 + line * 256, db := grain }
  let s := if o < 64 && (s.sdef o).isSome then s.sliceFault o stamp e else s
  if ninth then s.raise ⟨3, if o < 64 then some o else none, Sub.bnd, .grainPoison grain 1 8⟩ else s

/-- A link gone DOWN takes effect (13 R297). -/
def State.portDownEffect (s : State) (stamp port link reason : Nat) : State :=
  ((s.bump16 R.fpcEvcnt true).irq 5).faultEffect stamp { FaultEv.base 0x22 3 [] with sub := reason, aux := link, da := port }

/-- A degrade takes effect (13 R296): a report to the slices that list the port. -/
def State.portDegradeEffect (s : State) (stamp port link lanes : Nat) : State :=
  ((s.bump16 R.fpcEvcnt false).irq 5).faultEffect stamp { FaultEv.base 0x30 4 [] with aux := link, da := port, db := lanes }

/-- An abort adopted takes effect (14 R319, R320). -/
def State.abortEffect (s : State) (n stamp x hops kind origin : Nat) : State :=
  s.faultEffect stamp { FaultEv.base 0x08 2 [n] with sub := kind, aux := hops, da := origin, addr := x }

/-- An event of class 3 or 4 of slice `n` decided at stamp `t` on a package that hosts it with others (14 R318): where the slice is not in fault
handling and holds no abort tick, X = t + 64 is set and sent. -/
def State.mayOriginate (s : State) (n : Nat) : Bool :=
  match s.sdef n with
  | none => false
  | some d => d.fabMask != 0 && !s.inFault n && (s.abortTick n).isNone

/-- The origin holds abort tick `x` for slice `n` and sends its ABORT flits (14 R318). -/
def State.abortSend (s : State) (n x kind : Nat) : State :=
  match s.sdef n with
  | none => s
  | some d => if (s.abortTick n).isSome then s else (s.setAbort n (some x)).sendAbort d x 0 kind s.packageFp none

/-! ## Slice reset (R487–R489) -/

/-- The transfers of a slice's pods that had not completed end (R220, R487): fetches and puts with FAULTED, promotions with their shelf units freed, and an interrupted
STEP or REBASE leaves its pod ABSENT. A pod that a POD_PIN wanted pinned is no longer wanted so; one that has only left its units is (09 R210). -/
def State.endPodWork (s : State) (n : Nat) : State :=
  let s := s.dropAccs (fun a => a.sl == n && (a.use == .huskF || a.use == .huskT || a.use == .huskPut))
  let s := (s.pcm.fetches.filter (fun f => f.sl == n)).foldl (fun s f => s.podFailed n f.pod f.secT Status.faulted n) s
  let js := s.pcm.jobs.filter (fun j => j.sl == n)
  let s := { s with pcm := { s.pcm with jobs := s.pcm.jobs.filter (fun j => j.sl != n) } }
  let s := js.foldl (fun s j => s.finish j.cmd Status.faulted n []) s
  let ws := s.pcm.waits.filter (fun w => w.sl == n)
  let s := { s with pcm := { s.pcm with waits := s.pcm.waits.filter (fun w => w.sl != n) } }
  let s := ws.foldl (fun s w => (if w.cmd.isSome then s.modPod n w.pod (fun p => { p with pinWant := p.pinWant && w.what != 1 }) else s).finish w.cmd Status.faulted n []) s
  let s := (s.pcm.promos.filter (fun p => p.1 == n)).foldl (fun s p => s.dropPromo n p.2) s
  ((s.podsOf n).filter (fun e => e.2.life == .stepping)).foldl (fun s e => s.abortStep n e.1) s

/-- The registers of VF `v`'s window that a slice reset of its slice resets (00 R13). -/
def State.resetVfRegs (s : State) (v : Nat) : State :=
  { s with regs := tmap regReset s.regs (fun k w => if k / 0x1000000 = v + 1 then regKeep Surv.s k w else w) }

/-- The slice reset itself, at its effective tick R (R487). -/
def State.resetSlice (s : State) (n : Nat) (flr : Bool) : State :=
  let upd : FltSlice → FltSlice := fun x => { x with
    phase := .reset, since := s.spn.tick, acted := true, containAt := if x.phase == .none then s.spn.tick else x.containAt, hold := false, domainOut := false }
  let s := s.modFsl n upd
  let s := s.endPodWork n
  let s := (s.cancelSlice n Status.faulted n).emit .ddl [7, n] []
  let s := { s with bwr := { s.bwr with reports := tset (dflt none) s.bwr.reports n none } }
  match s.vfOf n with
  | none => s
  | some v => ((s.advanceGens [v] (!flr)).resetVfRegs v).modFn v (fun x => { x with reset := true, stale := 0 })

/-- A slice reset request takes effect (R488): cause 1 recovery, 2 an FLR of the slice's VF, 3 SLICE_RESET. One that finds the slice in fault handling
joins it, and an FLR advances GEN all the same; SLICE_RESET of a held slice runs the recovery from its phase 4 (R484); a multi-package
slice is contained first (R489). -/
def State.sliceResetEffect (s : State) (n cause stamp : Nat) (cmd : Option CmdRef) : State :=
  if (s.sdef n).isNone then s.finish cmd Status.faulted n []
  else
    let x := s.fsl n
    let wait : FltSlice → FltSlice := fun x => { x with flr := x.flr || cause == 2, waiters := x.waiters ++ cmd.toList }
    let s := s.modFsl n wait
    let gen := fun (s : State) => match s.vfOf n with | some v => if cause = 2 then s.advanceGen v false else s | none => s
    if cause = 1 then (if x.phase == .recover then s.resetSlice n false else s)
    else if s.flt.block = 0 && x.phase == .held && cause = 3 then (s.modFsl n (fun x => { x with retrain := [] })).resetSlice n false
    else if s.flt.block != 0 || x.phase != .none then gen s
    else if (s.abortTick n).isSome then (gen s).startContain n stamp none
    else (s.modFsl n (fun x => { x with stamp := stamp, primary := none, primSeq := 0, pend := [] })).resetSlice n (cause == 2)

/-- The fault manager has no more to do for a slice: it leaves fault handling, and those who waited for the reset's end are told (R376, R446, R485). -/
def State.leaveFault (s : State) (n status detail : Nat) : State :=
  let x := s.fsl n
  let s := (s.setAbort n none).modFsl n (fun x => { x with
    phase := .none, acted := false, primary := none, primSeq := 0, pend := [], hold := false, domainOut := false, notStopped := [], inReset := [],
    retrain := [], waiters := [], flr := false })
  let s := match s.vfOf n with
    | some v => (let s := s.modFn v (fun y => { y with reset := false }); if x.flr then s.emit .signal [4, v] [] else s)
    | none => s
  let s := ((s.podsOf n).filter (fun e => e.2.pinWant)).foldl (fun s e => s.podPin n e.1 none) s
  x.waiters.foldl (fun s c => s.finish (some c) status detail []) s

/-! ## Capture (R480–R483) -/

/-- What a capture's first MiB holds before its zeros (R481). The places of the header's and the queue records' fields are not given: their bytes are
free values of those fields. -/
def State.captureHead (s : State) (n mode : Nat) (primary : List Byte) : List Byte :=
  let qs := s.queuesOf n
  let cl := s.clustersOf n
  let adm := fun (q : Nat) => ((s.admQueue n).map JoinQ.queue).findIdx (· == q)
  let kindNo := fun (k : QKind) => match k with | .task => 0 | .fold => 1 | .dma => 2
  primary ++ leBytes 0xFC0 (Config.freeNat 2 ([1, mode, cl.length] ++ cl ++ [qs.length, s.spn.tick]))
    ++ (List.range 256).flatMap (fun k => leBytes 8 (s.syncOf n k)) ++ List.replicate 0x800 0
    ++ qs.flatMap (fun e => leBytes 64 (Config.freeNat 3 [kindNo e.2.kind, e.2.prio, if e.2.preemptTask then 1 else 0, e.2.depth, e.2.jgen, e.2.rel, e.2.tail,
        adm e.1, e.2.submitted, e.2.admitted, e.2.refused, e.2.completed, e.2.cancelled]))

/-- Byte `off` on of a capture, `len` bytes. -/
def Capture.read (c : Capture) (off len : Nat) : List Byte :=
  let low := if off < 1048576 then min len (1048576 - off) else 0
  slice c.head off low ++ slice c.body (off + low - 1048576) (len - low)

/-- The mode of a slice's next capture: 0 none is taken, 1 STATE, 2 SAMPLE (R480). -/
def State.captureMode (s : State) (n : Nat) : Nat :=
  let x := s.fsl n
  match s.sdef n with
  | none => 0
  | some d =>
    if x.capture.isSome || x.primary.isNone || d.clusters = 0 || s.slotsOf n = 0 then 0
    else if x.capMode != 0 then x.capMode
    else if d.fabMask = 0 && decide (popc d.clusters 64 ≤ 16) then 1 else 2

/-- Completions of a queue are written to host memory now, while its generation is the current one (R487). -/
def State.flushCpls (s : State) (n q : Nat) : State :=
  (s.dpa.cpls.filter (fun c => c.sl == n && c.queue == q)).foldl (fun s _ => s.writeCpl n q false) s

/-- The descriptor that the primary record names completes with FAULTED under the old GEN (R487). -/
def State.endPrimary (s : State) (n : Nat) (e : FaultEv) : State :=
  let t := s.dpa.tasks.find? (fun t => t.sl == n && t.queue == e.queue && t.jgen == e.jgen && fieldAt t.desc 8 8 == e.taskId)
  let p := s.fld.passes.find? (fun p => p.sl == n && p.queue == e.queue && p.jgen == e.jgen && fdTask p.desc == e.taskId)
  match t, p with
  | some t, _ => (((s.dropTask t).syncSaveUse n).complete n t.queue t.entry Status.faulted t.cluster t.saves 0 t.desc 1 0).flushCpls n t.queue
  | none, some p =>
    let s := if p.kind == .step then s.abortStep n (fieldAt p.desc 0x10 4) else s
    (s.endPass p Status.faulted false).flushCpls n p.queue
  | none, none => s

/-- The primary record is written, those that waited behind it after it (R472, R467). -/
def State.writePrimary (s : State) (n mode : Nat) : State :=
  let x := s.fsl n
  match x.primary with
  | none => s
  | some e =>
    let s := s.writeFault n 3 x.stamp e true mode
    let s := s.modFsl n (fun y => { y with primSeq := y.fseq, pend := [] })
    x.pend.foldl (fun s p => s.writeFault n 3 p.1 p.2 false 0) s

/-- The slice is held, contained with its capture, until PF0 resets or a commit destroys it (R484). -/
def State.holdSlice (s : State) (n : Nat) : State :=
  (s.modFsl n (fun x => { x with phase := .held })).recoveryEnd n (if (s.fsl n).domainOut then 3 else 2)

/-- After the capture (R484, R485): the slice is held, or its retrainings start and its slice reset is raised in class 4. -/
def State.afterCapture (s : State) (n : Nat) : State :=
  let x := s.fsl n
  let hold := x.hold || x.domainOut || bit (s.rd (R.fltPolicyLo + 4 * (n / 32))) (n % 32)
  if hold && x.primary.isSome then s.holdSlice n
  else
    let ts := (x.primary.map FaultEv.retrains).getD []
    let s := s.modFsl n (fun x => { x with phase := .recover, since := s.spn.tick, retrain := ts })
    let s := ts.foldl (fun s t => match t with
      | .module die k => (s.listing die).foldl (fun s m => if m = n then s else
          s.report m { FaultEv.base 0x31 4 [m] with da := die, db := 2 ^ k }) s
      | _ => s) s
    s.raise ⟨4, some n, Sub.flt, .sliceReset n 1 none⟩

/-- CONTAINED (R472, R480): by C + 89 every engine of slice `n` has stopped or its cluster is in reset; the primary record is written, the descriptor it
names ends, and the capture starts in the highest save slot, whose saved image is discarded. -/
def execContained (n : Nat) (s : State) : Host.Outcome State Fault Refusal :=
  let x := s.fsl n
  if x.phase != .contain || !x.acted || s.spn.tick < x.containAt + 89 || s.flt.block != 0 then .next s
  else
    let mode := s.captureMode n
    let s := s.writePrimary n mode
    let s := match x.primary with | some e => s.endPrimary n e | none => s
    if mode = 0 then .next (s.afterCapture n)
    else
      let slot := s.slotsOf n - 1
      let s := (s.dpa.tasks.filter (fun t => t.sl == n && t.st.image && t.slot == slot)).foldl (fun s t =>
        (s.dropTask t).cancelEntry n t.queue t.entry) s
      let k := popc ((s.sdef n).elim 0 SliceDef.clusters) 64
      let seq := (s.fsl n).primSeq
      let prim := match (s.fsl n).store.find? (fun r => r.fseq == seq) with
        | some r => r.bytes
        | none => (match x.primary with | some e => (FaultRec.mk seq true n x.stamp e 0 mode).bytes | none => [])
      let c : Capture := ⟨mode, if mode = 1 then (1 + k) * 1048576 else 1048576 + k * 491520, s.captureHead n mode prim, [], seq, true⟩
      .next ((s.modFsl n (fun x => { x with phase := .capture, since := s.spn.tick, capture := some c })).syncSaveUse n)

/-- The image a capture holds: its clusters' bytes as read, zero for a cluster that is in reset (R481). -/
def State.captureBody (s : State) (n mode : Nat) (data : List Byte) : List Byte :=
  let x := s.fsl n
  let cl := s.clustersOf n
  let per := if mode = 1 then 1048576 else 491520
  if x.inReset.isEmpty then data else (List.range cl.length).flatMap (fun i =>
    if mode = 1 && x.inReset.contains (cl.getD i 64) then List.replicate per 0 else slice data (per * i) per)

/-- CAPTURE_DONE (R480–R483): the capture of slice `n` has been written; `data` is what the compute dies gave of its clusters in ascending order, zeros in a
STATE capture for one held in cluster reset. -/
def execCaptureDone (n : Nat) (data : List Byte) (s : State) : Host.Outcome State Fault Refusal :=
  match (s.fsl n).capture with
  | none => .next s
  | some c =>
    if (s.fsl n).phase != .capture || !c.taking then .next s
    else
      let c' : Capture := { c with body := s.captureBody n c.mode data, taking := false }
      .next ((s.modFsl n (fun x => { x with capture := some c' })).afterCapture n)

/-! ## Recovery (R484–R486, R492) -/

/-- ABORT_TICK (14 R320): at the abort tick the member contains the slice. -/
def execAbortTick (n : Nat) (s : State) : Host.Outcome State Fault Refusal :=
  let x := s.fsl n
  if x.phase == .contain && !x.acted && decide (x.containAt ≤ s.spn.tick) && s.flt.block = 0 then .next (s.containActs n) else .next s

/-- When the containment in force of a cluster's slice began. -/
def State.containedAt (s : State) (n : Nat) : Option Nat :=
  let x := s.fsl n
  if x.phase == .contain && x.acted then some x.containAt else if s.flt.block = 1 then some s.flt.blockAt else none

/-- ENGINE_STOP_ACK (R472): the compute die acknowledges that the engines of a contained cluster have stopped. -/
def execEngineStopAck (cl : Nat) (s : State) : Host.Outcome State Fault Refusal :=
  let n := (s.cluster cl).owner
  .next (if n < 64 then s.modFsl n (fun x => { x with notStopped := x.notStopped.erase cl }) else s)

/-- CLUSTER_RESET (R473): engines not stopped by C + 66 put their cluster in cluster reset. -/
def execClusterReset (cl : Nat) (s : State) : Host.Outcome State Fault Refusal :=
  let n := (s.cluster cl).owner
  match (if n < 64 && (s.fsl n).notStopped.contains cl then s.containedAt n else none) with
  | none => .next s
  | some c =>
    if s.spn.tick < c + 66 then .next s
    else .next ((s.modFsl n (fun x => { x with notStopped := x.notStopped.erase cl, inReset := x.inReset ++ [cl] })).emit .ddl [8, cl] [])

/-- CLUSTER_OUT_OF_SERVICE (R473, R484): a cluster reset not complete by C + 80 takes the cluster out of service, and its slice is held. -/
def execClusterOutOfService (cl : Nat) (s : State) : Host.Outcome State Fault Refusal :=
  let n := (s.cluster cl).owner
  match (if n < 64 && (s.fsl n).inReset.contains cl then s.containedAt n else none) with
  | none => .next s
  | some c =>
    if s.spn.tick < c + 80 then .next s
    else
      let s := s.modCluster cl (fun x => { x with oos := true })
      .next (if (s.fsl n).phase == .contain then s.modFsl n (fun x => { x with hold := true, domainOut := true }) else s)

/-- A lane group of a die is bad, or good again. -/
def State.markGroup (s : State) (die g : Nat) (bad : Bool) : State :=
  { s with flt := { s.flt with badGroups := tmod (dflt 0) s.flt.badGroups die (fun m => if bad then m ||| 2 ^ g else m - (if bit m g then 2 ^ g else 0)) } }

/-- A retraining of a die's lanes failed: the group is bad and the failure is reported; with every group bad the die's clusters are out of service and the
slices it held stay held (R486). -/
def State.dieFail (s : State) (die g mask : Nat) : State :=
  let s := (s.markGroup die g true).raiseFault Sub.flt none { FaultEv.base 0x20 3 [] with da := die, db := mask }
  if tget (dflt 0) s.flt.badGroups die != 31 then s
  else
    let s := (List.range 16).foldl (fun s i => s.modCluster (16 * die + i) (fun x => { x with oos := true })) s
    (s.listing die).foldl (fun s n => if (s.fsl n).phase != .none then s.modFsl n (fun x => { x with hold := true, domainOut := true }) else s) s

/-- What a retraining leaves: no slice waits for it any more, and its outcome is marked or reported (R485, R486). -/
def State.retrained (s : State) (t : Retrain) (ports : List Nat) (ok : Bool) : State :=
  let s := (List.range 64).foldl (fun s n => s.modFsl n (fun x => { x with retrain := x.retrain.filter (fun r => r != t) })) s
  let s := { s with flt := { s.flt with heldPorts := s.flt.heldPorts.filter (fun p => !ports.contains p) } }
  match t with
  | .group die g => if ok then s.markGroup die g false else s.dieFail die g (15 * 2 ^ (4 * g))
  | .module die m => if ok then s.markGroup die (m / 4) false else s.dieFail die (m / 4) (2 ^ m)
  | .stack j => if ok then s else s.raiseFault Sub.flt none { FaultEv.base 0x21 3 [] with sub := 3, da := j, db := 0xFFFFFFFF }
  | .channel p => if ok then s else s.raiseFault Sub.flt none { FaultEv.base 0x21 3 [] with sub := 3, da := p / 32, db := 2 ^ (p % 32) }

/-- RETRAIN_DONE (R486, R492): a module group (kind 0: die `idx`, group `k`), one module (1), the channels of a stack (2: stack `idx`) or one channel (3: port
`idx`) finish retraining, or fail: modules then raise DIE_FAIL, channels STACK_FAIL. A die none of whose groups retrains has its clusters out
of service. -/
def execRetrainDone (kind idx k : Nat) (ok : Bool) (s : State) : Host.Outcome State Fault Refusal :=
  let t : Retrain := match kind with
    | 0 => .group (idx % 4) (k % 5) | 1 => .module (idx % 4) (k % 20) | 2 => .stack (idx % 8) | _ => .channel (idx % 256)
  let ports := match t with | .stack j => (List.range 32).map (· + 32 * j) | .channel p => [p] | _ => []
  let asked := s.flt.slices.any (fun e => e.2.retrain.contains t) || ports.any (fun p => s.flt.heldPorts.contains p)
  if !asked then .next s else .next (s.retrained t ports ok).releaseHeld

/-- SLICE_RESET_END (R485, R487): the clear is done and every retraining has ended; `failed` is the mask of clusters that failed the clear, which go out of
service and hold the slice (R473). A recovery writes RECOVERY_END. -/
def execSliceResetEnd (n failed : Nat) (s : State) : Host.Outcome State Fault Refusal :=
  let x := s.fsl n
  if x.phase != .reset || !x.retrain.isEmpty || s.flt.block != 0 then .next s
  else
    let cl := s.clustersOf n
    let bad := cl.filter (fun c => bit failed c)
    let s := bad.foldl (fun s c => s.modCluster c (fun y => { y with oos := true })) s
    let s := (cl.filter (fun c => !bit failed c)).foldl (fun s c => s.modCluster c (fun y => { y with cleared := true })) s
    if !bad.isEmpty || x.domainOut then
      let s := s.modFsl n (fun x => { x with domainOut := true, waiters := [] })
      let s := match s.vfOf n with | some v => s.modFn v (fun y => { y with reset := false }) | none => s
      .next ((x.waiters.foldl (fun s c => s.finish (some c) Status.faulted n []) s).holdSlice n)
    else
      let s := if x.primSeq != 0 then s.recoveryEnd n 1 else s
      .next (s.leaveFault n Status.ok 0).pumpHost

/-- RECOVERY_PHASE_TIMEOUT (R484, R485, R492): a phase beyond its bound holds the slice; a capture not yet written is dropped. -/
def execRecoveryPhaseTimeout (n : Nat) (s : State) : Host.Outcome State Fault Refusal :=
  let x := s.fsl n
  let groups := (x.retrain.filter (fun t => match t with | .group _ _ | .module _ _ => true | _ => false)).length
  let anyStack := x.retrain.any (fun t => match t with | .stack _ | .channel _ => true | _ => false)
  let bound := match x.phase with
    | .contain => if x.acted then some (x.containAt + 89) else none
    | .capture => some (x.since + 128907)
    | .recover | .reset => some (x.since + max 240 (max (781250 * groups) (if anyStack then 976563 else 0)))
    | _ => none
  match (if s.flt.block = 0 then bound else none) with
  | none => .next s
  | some b =>
    if s.spn.tick ≤ b then .next s
    else
      let s := if x.phase == .contain then s.writePrimary n 0 else s
      let s := match x.capture with
        | some c => if c.taking then (s.modFsl n (fun x => { x with capture := none })).syncSaveUse n else s
        | none => s
      .next (s.holdSlice n)

/-! ## Block reset (R490–R493) -/

/-- FAILED (R493): every slice contained, no traffic admitted. -/
def State.failDevice (s : State) (at' : Nat) : State :=
  let s := if s.flt.block = 0 then (s.slices.map SliceDef.slice).foldl (fun s n => s.containActs n) s else s
  let at'' := if s.flt.block = 0 then at' else s.flt.blockAt
  ((({ s with flt := { s.flt with block := 2, blockAt := at'' } }.wf R.audStatus 8 8 0).irq 3).syncAlert)

/-- A pod whose shelf units are lost (09 R221): one held there is in T1 again, and one pinned there is to be pinned afterwards. -/
def Pod.down (p : Pod) : Pod :=
  { p with pinWant := p.pinWant || p.res == .pinned, res := if p.res == .t0 || p.res == .pinned then .t1 else p.res, shelf := [] }

/-- What a block reset leaves of one slice's started work (R491): every descriptor, pass, transfer and saved image that had started completes with
FAULTED; queues and unstarted descriptors are kept, pods in T0 return to T1 (09 R221). -/
def State.blockSlice (s : State) (n : Nat) : State :=
  let started := fun (t : Task) => t.sl == n && t.st != .waiting && t.st != .ready
  let s := (s.dpa.tasks.filter started).foldl (fun s t => ((s.dropTask t).complete n t.queue t.entry Status.faulted t.cluster t.saves 0 t.desc 1 0).settleSuspend n t.queue) s
  let s := s.syncSaveUse n
  let s := s.endPodWork n
  let s := (s.fld.passes.filter (fun p => p.sl == n && (p.st != .waiting || p.tiles != 0))).foldl (fun s p => s.endPass p Status.faulted false) s
  let s := (s.dpa.dmas.filter (fun d => d.sl == n)).foldl (fun s d => s.endDma d Status.faulted) s
  let gl := s.tpl.accs.filter (fun a => a.use == .glist && a.sl == n)
  let s := s.dropAccs (fun a => a.sl == n && a.use.ofSlice)
  let s := gl.foldl (fun s a => s.glistAnswer n a.a a.b false) s
  let again : Nat → Option Queue → Option Queue := fun k q => if k / 4096 = n then q.map (fun x => { x with reading := false }) else q
  let s := { s with dpa := { s.dpa with queues := tmap (dflt none) s.dpa.queues again } }
  let s := (s.clustersOf n).foldl (fun s c => s.modCluster c (fun x => { x with groups := [], promised := none, notBefore := 0, cleared := true })) s
  (s.podsOf n).foldl (fun s e => s.modPod n e.1 Pod.down) s

/-- A block reset request takes effect at B (R490, R491): everything is contained, the bypasses close, the banks empty, the tag caches are written back, and what
does not survive a block reset is reset. A second within 10 s of READY fails the device (R492). -/
def State.blockEffect (s : State) (stamp : Nat) : State :=
  let soon := match s.flt.readyTick with | some r => decide (stamp < r + 39062500) | none => false
  if s.flt.block = 2 then s
  else if soon then s.failDevice s.spn.tick
  else if s.flt.block = 1 then s
  else
    let ns := s.slices.map SliceDef.slice
    let s := s.closeFabric 8
    let s := ns.foldl (fun s n => s.containActs n) s
    let s := { s with flt := { s.flt with block := 1, blockAt := s.spn.tick, blockStamp := stamp, blocks := min 0xFF (s.flt.blocks + 1) } }
    let s := s.emptyBanks
    let s := s.mce.tagc.foldl (fun s e => e.2.foldl (fun s t => s.writeBack (e.1 / 16) t) s) s
    let s := ns.foldl (fun s n => s.blockSlice n) s
    let s := (s.grainsWhere (fun e => e.st == .scrubbing)).foldl (fun s g => s.modGrain g (fun e => { e with st := .dirty })) s
    let drop : FltSlice → FltSlice := fun x => { x with capture := match x.capture with | some c => if c.taking then none else some c | none => none }
    let bare : Pass → Pass := fun p => { p with gathers := [], ids := [], out := [] }
    let noBuf : HostReq → HostReq := fun r => { r with chan := 112 }
    let s := { s with
      mce := { s.mce with tagc := [], reqs := [], colls := [] },
      bwr := { s.bwr with regs := [], reports := [] },
      fld := { s.fld with passes := s.fld.passes.map bare, acc := [], fbuf := [], reads := [], held := [] },
      pcm := { s.pcm with xfer := [] },
      bnd := { s.bnd with scrub := [] },
      fpc := { s.fpc with ins := [], out := [], entries := [] },
      flt := { s.flt with slices := tmap (dflt FltSlice.init) s.flt.slices (fun _ x => drop x), heldPorts := [], memTimeouts := [] },
      tpl := { s.tpl with free := 16384, use := [], fab := [], reqs := s.tpl.reqs.map noBuf } }
    let s := ns.foldl (fun s n => s.syncSaveUse n) s
    let s := (List.range 4).foldl (fun s c => if (s.core c).st == .held then s else
      s.modCore c (fun x => { x with st := .restarting, since := s.spn.tick, running := 0 })) s
    let s := if 1 ≤ s.ccx.phase && s.ccx.phase ≤ 4 then s.rollback else s
    let s := { s with regs := s.keepRegs Surv.b, chk := { s.chk with lastTick := 0 } }.clearStale
    (s.irq 3).syncAlert

/-- BLOCK_RESET_READY (R490–R492): after the retrainings the audit runs (12 R281). Where it passes, traffic is admitted, every slice receives its record, and
recoveries that were under way have ended; where it fails, the device is FAILED. -/
def execBlockResetReady (s : State) : Host.Outcome State Fault Refusal :=
  if s.flt.block != 1 || s.spn.tick < s.flt.blockAt + 92 then .next s
  else if s.auditFails != 0 then
    .next (((s.wf R.audStatus 7 0 (s.rf R.audStatus 7 0 ||| s.auditFails)).irq 4).failDevice s.flt.blockAt)
  else
    let ns := s.slices.map SliceDef.slice
    let s := { s with flt := { s.flt with block := 0, readyTick := some s.spn.tick } }.wf R.audStatus 8 8 1
    let s := ns.foldl (fun s n =>
      (s.showFault 0x33 4 n).writeFault n 4 s.flt.blockStamp { FaultEv.base 0x33 4 [n] with da := s.flt.blockAt % 2 ^ 32 } false 0) s
    let s := ns.foldl (fun s n =>
      let x := s.fsl n
      if x.phase == .none || x.phase == .held then (if x.flr || !x.waiters.isEmpty then
          (if x.phase == .none then s.leaveFault n Status.faulted 0xFF else s) else s)
      else
        let s := if x.phase == .contain then s.writePrimary n 0 else s
        let s := if (s.fsl n).primSeq != 0 then s.recoveryEnd n 1 else s
        s.leaveFault n Status.faulted 0xFF) s
    let s := ns.foldl (fun s n => ((s.podsOf n).filter (fun e => e.2.pinWant)).foldl (fun s e => s.podPin n e.1 none) s) s
    let s := (s.releaseHeld.resumeSuspended.startWork)
    let s := s.allQueues.foldl (fun s e => s.readTurn e.1 e.2.1) s
    .next ((s.pumpHost.irq 3).syncAlert)

/-- BLOCK_READY_TIMEOUT (R492): a block reset not at READY within 1 s of B leaves the device FAILED. -/
def execBlockReadyTimeout (s : State) : Host.Outcome State Fault Refusal :=
  if s.flt.block = 1 && decide (s.flt.blockAt + 3906250 ≤ s.spn.tick) then .next (s.failDevice s.flt.blockAt) else .next s

/-! ## Watchdogs and reports that raise faults (R466, R468) -/

/-- ENGINE_HANG (R468): an engine of a cluster that runs a task has retired no instruction for `ticks`. -/
def execEngineHang (cl engine ticks instr : Nat) (s : State) : Host.Outcome State Fault Refusal :=
  match s.taskOn cl with
  | none => .next s
  | some t =>
    if s.contained t.sl || ticks < 1024 * max 1 (s.rf R.fltWdEngine 15 0) then .next s
    else .next (s.raiseFault Sub.flt (some t.sl)
      { FaultEv.base 0x05 2 [t.sl] with cluster := cl, engine := some (engine % 4), instr := instr, da := ticks })

/-- MEM_TIMEOUT (R468): a request issued to a memory controller has had no response for LLY_FLT_WD_MEM; it receives an error response, and a TASK fault
is raised for its slice. -/
def execMemTimeout (id addr sub : Nat) (s : State) : Host.Outcome State Fault Refusal :=
  let now := s.now sub
  match s.mce.reqs.find? (fun r => r.id == id && r.addr == addr && r.phase == .issued) with
  | none => .next s
  | some r =>
    if now < r.issued + 4096 * max 16 (s.rf R.fltWdMem 15 0) || s.mce.fenced then .next s
    else
      let port := s.dataPort r.grain r.line
      let t := s.answer r .error [] now
      let f := { FaultEv.base 0x11 1 (if r.tag < 64 then [r.tag] else []) with
        cluster := match r.cls with | .cd | .sav => r.port | _ => 0xFF
        sub := r.cls.code, da := port, addr := r.addr }
      .next (if r.tag < 64 && s.contained r.tag then t else t.raiseFault Sub.mce (if r.tag < 64 then some r.tag else none) f)

/-- DIE_FAIL (R468): the DDL port of module `m` of die `die` has had no acknowledgement for 40 tk; nothing further where every slice of the die is
contained. -/
def execDieFail (die m : Nat) (s : State) : Host.Outcome State Fault Refusal :=
  let ns := s.listing (die % 4)
  if s.inReset || (!ns.isEmpty && ns.all (fun n => s.contained n)) then .next s
  else .next (s.raiseFault Sub.flt none { FaultEv.base 0x20 3 [] with da := die % 4, db := 2 ^ (m % 20) })

/-- UNIT_HANG (R468): hub unit `unit` (00 numbering of sources) holds work and makes no progress for 4,000 tk. -/
def execUnitHang (unit : Nat) (s : State) : Host.Outcome State Fault Refusal :=
  if s.flt.block != 0 || s.inReset then .next s else .next (s.raiseFault Sub.flt none { FaultEv.base 0x43 5 [] with sub := unit })

/-- ENGINE_ERROR (R466): a compute die reports an illegal instruction, an engine trap or a parity error in engine state. -/
def execEngineError (cl engine code detail instr : Nat) (s : State) : Host.Outcome State Fault Refusal :=
  let n := (s.cluster cl).owner
  if 64 ≤ n then .next s
  else .next (s.raiseFault Sub.flt (some n)
    { FaultEv.base 0x06 2 [n] with cluster := cl, engine := some (engine % 4), instr := instr, sub := code % 256, da := detail })

/-- SCRATCH_UE (R466): uncorrectable ECC in a cluster's scratchpad, at byte `off`. -/
def execScratchUe (cl off : Nat) (s : State) : Host.Outcome State Fault Refusal :=
  let n := (s.cluster cl).owner
  if 64 ≤ n then .next s
  else .next (s.raiseFault Sub.flt (some n) { FaultEv.base 0x07 2 [n] with cluster := cl, addr := off })

/-! ## Commands (20 R444–R446) -/

/-- CAPTURE_MODE (20 R444). -/
def execCaptureMode (f : Nat) (s : State) : Host.Outcome State Fault Refusal :=
  .next (s.command f Op.captureMode
    (fun s e =>
      let m := fieldAt e.entry 0x0C 1 % 4
      let fab := match s.sdef e.slice with | some d => d.fabMask != 0 | none => false
      [badAt (m == 3 || (m == 1 && fab)) 0x0C 0])
    (fun s e => (s.modFsl e.slice (fun x => { x with capMode := fieldAt e.entry 0x0C 1 % 4 })).finish (some e.ref) Status.ok 0 []))

/-- What CAPTURE_READ reads: FSEQ, its bytes, mode, length. FSEQ 0 is the capture held, else the latest record; a stored record without a capture reads as its 64
bytes (R478, R480). -/
def State.captureOf (s : State) (n fseq : Nat) : Option (Nat × Nat × Nat × (Nat → Nat → List Byte)) :=
  let x := s.fsl n
  let cap := x.capture.bind (fun c => if fseq = 0 || c.fseq = fseq then some c else none)
  let rec' := if fseq = 0 then x.store.getLast? else x.store.find? (fun r => r.fseq == fseq)
  match cap, rec' with
  | some c, _ => some (c.fseq, c.mode, c.bytes, c.read)
  | none, some r => some (r.fseq, 0, 64, fun o l => slice r.bytes o l)
  | none, none => none

/-- CAPTURE_READ (20 R445): part of a capture is copied to the host; with RELEASE it is freed after the copy. -/
def execCaptureRead (f : Nat) (s : State) : Host.Outcome State Fault Refusal :=
  let off := fun (e : ExecCmd) => fieldAt e.entry 0x10 4
  let len := fun (e : ExecCmd) => fieldAt e.entry 0x14 4
  let seq := fun (e : ExecCmd) => fieldAt e.entry 0x0C 4
  .next (s.command f Op.captureRead
    (fun s e =>
      let c := s.captureOf e.slice (seq e)
      let taking := match (s.fsl e.slice).capture with | some k => k.taking && (seq e == 0 || seq e == k.fseq) | none => false
      [badAt c.isNone 0x0C 0, (taking, Status.busyRetry, 0), (len e == 0, Status.okEmpty, 0),
       badAt (match c with | some k => decide (k.2.2.1 < off e + len e) | none => true) 0x14 0])
    (fun s e =>
      match s.captureOf e.slice (seq e) with
      | none => s
      | some c => s.cmdOut e (fieldAt e.entry 0x18 8) 0x18 (c.2.2.2 (off e) (len e)) (leBytes 4 c.1 ++ leBytes 4 c.2.2.1 ++ leBytes 1 c.2.1)))

/-- SLICE_RESET (20 R446): a slice reset request in class 4; the command completes when the reset ends. -/
def execSliceReset (f : Nat) (s : State) : Host.Outcome State Fault Refusal :=
  .next (s.command f Op.sliceReset (fun _ _ => [])
    (fun s e => s.raise ⟨4, some e.slice, Sub.ccx, .sliceReset e.slice 3 (some e.ref)⟩))

end Sys2Proof.Machine
end

