-- ==== Sys2Proof/Machine/Power.lean ====
section
/-! DEFINITION. Supplies, resets, start-up, parking and DEEP (23): what each reset leaves, the supply events, and the rows of the start-up
timeline. -/

namespace Sys2Proof.Machine

/-! ## Cold and warm reset (R500–R502, R511) -/

/-- A KeyID across a cold or warm reset (R511): FREE, KeyID 0 SYSTEM, its key-table entry empty, its index kept until a full clear has completed (05 R117). -/
def KeyE.startOf (k : Nat) (e : KeyE) : KeyE := ⟨if k = 0 then .system else .free, if k = 0 then 0xFF else 0, e.dix, false, [], []⟩

/-- What a cold or warm reset leaves (R502, R511): the state of `State.reset`, with the tick count, grain table, derivation indices, K_MEM and its boot nonce as they
stand for the kind of reset, the fuse macro, the recorder, the pins, and the register fields that survive. `cause` is LLY_SRC_CAUSE.LAST. -/
def State.resetBlock (s : State) (cold : Bool) (cause : Nat) : State :=
  let z := State.reset
  let s := if s.lc.debug then s.lcRecord 2 0 0 else s
  let worn := !cold && (65535 ≤ (s.key 0).dix || s.src.wantClear)
  let kept : Nat → GrainE → GrainE := fun _ e => if e.st == .owned then e.taken else e
  let t : State := { z with
    pending := s.pending
    draws := s.draws
    out := s.out
    regs := s.keepRegs (if cold then Surv.c else Surv.w)
    spn := { z.spn with tick := if cold then 0 else s.spn.tick, counting := !cold && s.spn.counting, rot := if cold then 0 else s.spn.rot }
    bnd := { z.bnd with gt := if cold then [] else tmap (dflt GrainE.blank) s.bnd.gt kept }
    mce := { z.mce with keys := tmap (dflt KeyE.init) s.mce.keys KeyE.startOf }
    flt := { z.flt with blocks := if cold then 0 else s.flt.blocks }
    bwr := { z.bwr with epoch := if cold then 0 else s.bwr.epoch }
    hfp := { z.hfp with cfgReady := !cold && s.hfp.cfgReady }
    vlt := { z.vlt with
      nb := if cold then [] else s.vlt.nb, kmem := if cold then [] else s.vlt.kmem,
      devPub := if cold then [] else s.vlt.devPub, known := !cold && s.vlt.known }
    lc := { z.lc with otp := s.lc.otp, nonce := s.lc.nonce }
    src := { z.src with
      hold := if cause = 5 || cause = 6 then cause else 0, backupAt := s.src.backupAt, low := s.src.low,
      carved := !cold && !worn && s.src.carved, cleared := !cold && !worn && s.src.cleared, wantClear := worn, otpSensed := false }
    evr := { s.evr with clearCmd := none, reading := 0, boot := if cold then (s.evr.boot + 1) % 256 else s.evr.boot }
    pins := { s.pins with haltN := true, alertN := true, i3cAddr := none, i3cDeaf := false, wrstLatched := 0 } }
  t.wr R.srcCause cause

/-- A reset ends at the next tick boundary (25 R528): the fuses are sensed (16 R354), a nonce is drawn, and a lifecycle code that is none raises the
security halt (05 R114). Nothing while something else still holds the block in reset. -/
def State.endReset (s : State) : State :=
  if s.inReset then s
  else
    let s := s.senseLc
    let s := { s with lc := { s.lc with nonce := s.draws }, src := { s.src with otpSensed := true, upAt := s.spn.tick } }.drawn
    if s.lc.lockdown then ({ s with mce := { s.mce with fenced := true } }).raise ⟨1, none, Sub.vlt, .secHalt 4 0 0 0 0⟩ else s

/-- A warm reset asserted (R501, R502): at once, but held back by a lifecycle burn (16 R361), and by a wake where the block is in DEEP. -/
def State.warmReset (s : State) (cause : Nat) : State :=
  if s.pins.porst || (!s.pins.vddSec && !s.pins.vbak) then s
  else if s.lc.burn.isSome || s.src.deep != 0 then
    { s with pins := { s.pins with wrstLatched := if s.pins.wrstLatched = 0 then cause else s.pins.wrstLatched } }
  else s.resetBlock false cause

/-- A latched warm reset takes effect (16 R361, R510). -/
def State.latchedReset (s : State) : State :=
  if s.pins.wrstLatched = 0 then s else (s.resetBlock false s.pins.wrstLatched).endReset

/-- COLD_RESET (R501): LLY_PORST_n asserted, ahead of every event; a burn is interrupted. -/
def execColdReset (s : State) : Host.Outcome State Fault Refusal :=
  .next ({ s with pins := { s.pins with porst := true } }.resetBlock true 1)

/-- PORST_RELEASE (25 R527, R528): LLY_PORST_n released, with VDD_LLY good. -/
def execPorstRelease (s : State) : Host.Outcome State Fault Refusal :=
  if s.pins.porst then .next { s with pins := { s.pins with porst := false, vddLly := true } }.endReset else .next s

/-- WARM_RESET (R501, R502): LLY_WRST_n asserted. In DEEP it wakes the device first (R510). -/
def execWarmReset (s : State) : Host.Outcome State Fault Refusal :=
  if s.pins.wrst then .next s
  else
    let wakes := s.src.deep == 1 || s.src.deep == 2
    let s := { s with pins := { s.pins with wrst := true } }
    let s := if s.inReset && (s.pins.tapHold || s.src.hold != 0) then s else s.warmReset 4
    .next (if wakes then { s with src := { s.src with deep := 3 } } else s)

/-- WRST_RELEASE (25 R528): LLY_WRST_n released; no effect while LLY_PORST_n is asserted. -/
def execWrstRelease (s : State) : Host.Outcome State Fault Refusal :=
  if !s.pins.wrst then .next s
  else
    let s := { s with pins := { s.pins with wrst := false } }
    .next (if s.pins.wrstLatched != 0 then s else s.endReset)

/-- FUSE_BIT_DONE (16 R359): a bit has been burnt and verified (`ok`), or has failed; when the burn has ended, a warm reset it held back follows
(16 R361). -/
def execFuseBitDone (ok : Bool) (s : State) : Host.Outcome State Fault Refusal :=
  let s := s.fuseBit ok
  .next (if s.lc.burn.isNone && s.src.deep == 0 then s.latchedReset else s)

/-! ## Supplies (R495–R499) -/

/-- A class 2 event of the supplies: 1 SEC_BACKUP, 2 SEC_MAIN, 3 VLLY_WARN, 4 THERM_TRIP. -/
def State.supply (s : State) (k : Nat) : State := s.raise ⟨2, none, Sub.src, .supply k 0⟩

/-- A supply event takes effect (R496, R498, R505): recorded with LLY_SRC_TEMP, its interrupt cause set. -/
def State.supplyEffect (s : State) (stamp k : Nat) : State :=
  let s := if k = 3 then { s with src := { s.src with warn := true } }
    else if k = 4 then { s with src := { s.src with trip := true, tripAlert := true } } else s
  ((s.offer 2 0x21 stamp 0xFF k 0 [s.rd R.srcTemp]).irq 7).syncAlert

/-- Supply hold begins (R499): as if LLY_WRST_n were asserted, with a record; a burn first runs to its end (R497). -/
def State.supplyHold (s : State) (cause : Nat) : State :=
  (s.offer 0 0x21 s.spn.tick 0xFF 5 0 [s.rd R.srcTemp]).warmReset cause

/-- SEC_BACKUP (R496): VDD_SEC main falls and the secure domain moves to VBAK. -/
def execSecBackup (s : State) : Host.Outcome State Fault Refusal :=
  if !s.pins.vddSec || !s.pins.vbak then .next s
  else .next (({ s with pins := { s.pins with vddSec := false }, src := { s.src with backupAt := some s.spn.tick } }).supply 1)

/-- SEC_MAIN (R496, R499): VDD_SEC main returns, which ends the supply hold of R497. -/
def execSecMain (s : State) : Host.Outcome State Fault Refusal :=
  if s.pins.vddSec || !s.pins.vbak then .next s
  else
    let s := { s with pins := { s.pins with vddSec := true, wrstLatched := if s.pins.wrstLatched = 5 then 0 else s.pins.wrstLatched }, src := { s.src with backupAt := none } }
    if s.src.hold = 5 then .next (({ s with src := { s.src with hold := 0 } }).endReset.supply 2) else .next (s.supply 2)

/-- BACKUP_TIMEOUT (R497): the secure domain is still on VBAK 35 ms (136,719 tk) after SEC_BACKUP. -/
def execBackupTimeout (s : State) : Host.Outcome State Fault Refusal :=
  match s.src.backupAt with
  | none => .next s
  | some t =>
    if s.pins.vddSec || s.inReset || s.spn.tick < t + 136719 then .next s
    else .next (({ s with src := { s.src with backupAt := none } }).supplyHold 5)

/-- VLLY_WARN (R498): VDD_LLY falls below the warning threshold (`below`), or is back above it, which the next epoch boundary takes up. -/
def execVllyWarn (below : Bool) (s : State) : Host.Outcome State Fault Refusal :=
  let s' := { s with src := { s.src with low := below } }
  if below && !s.src.low && !s.inReset then .next (s'.supply 3) else .next s'

/-- VDD_LLY_LOSS (R498): VDD_LLY below the reset threshold: a cold reset, held until the board releases LLY_PORST_n (25 R527). -/
def execVddLlyLoss (s : State) : Host.Outcome State Fault Refusal :=
  .next ({ s with pins := { s.pins with porst := true, vddLly := false } }.resetBlock true 2)

/-- SECURE_DOMAIN_LOST (R498): VDD_SEC main and VBAK are both lost. Llyna's cold reset follows when they return; the records are lost with the power. -/
def execSecureDomainLost (s : State) : Host.Outcome State Fault Refusal :=
  .next { s with pins := { s.pins with vddSec := false, vbak := false }, lc := { s.lc with burn := none } }

/-- SECURE_DOMAIN_POWER_UP (R498, 24 R522): the secure domain powers up: the recorder is empty with every counter, RSEQ and BOOT 0, and a cold reset
is performed. -/
def execSecureDomainPowerUp (s : State) : Host.Outcome State Fault Refusal :=
  if s.pins.vddSec || s.pins.vbak then .next s
  else
    let s := { s with pins := { s.pins with vddSec := true, vbak := true }, src := { s.src with backupAt := none } }
    .next { s.resetBlock true 3 with evr := ⟨[], [], 0, 0, 0, 0, 0, none, false, none, 0⟩ }.endReset

/-- The trip and hot thresholds in force (LLY_SRC_THERM). -/
def State.hotAt (s : State) : Nat := if s.rf R.srcTherm 7 0 = 0 then 95 else s.rf R.srcTherm 7 0
def State.tripAt (s : State) : Nat := if s.rf R.srcTherm 15 8 = 0 then max 110 (s.hotAt + 5) else max (s.rf R.srcTherm 15 8) (s.hotAt + 5)

/-- SENSOR_REPORT (25 R542, R505): die `die` (0 hub, 1–4 CD0–CD3) reports its temperature and power; at or above TRIP it raises THERM_TRIP. -/
def execSensorReport (die temp power : Nat) (s : State) : Host.Outcome State Fault Refusal :=
  let die := die % 5
  let temp := temp % 256
  let r := tget (dflt (DieRep.mk 0 0 0)) s.src.dies die
  let s' := { s with src := { s.src with dies := tset (dflt (DieRep.mk 0 0 0)) s.src.dies die ⟨r.count + 1, r.power + power % 4096, max r.tmax temp⟩,
                                         hotNow := s.src.hotNow.filter (· != die) ++ (if s.tripAt ≤ temp then [die] else []) } }
  if s.tripAt ≤ temp && !s.inReset then .next (s'.supply 4) else .next s'

/-! ## The cap level at an epoch boundary (R503–R505) -/

/-- What the SRC takes from a closing epoch `e` (R503): T_max with its die, P, and whether a die gave no report. A value that no report fixes is free
(25 R542 gives only that the epoch is hot). -/
def State.epochHeat (s : State) (e : Nat) : Nat × Nat × Nat × Bool :=
  let reps := (List.range 5).map (fun d => (d, tget (dflt (DieRep.mk 0 0 0)) s.src.dies d))
  let some' := reps.filter (fun r => r.2.count != 0)
  let miss := decide (some'.length < 5)
  let hottest := some'.foldl (fun (a : Nat × Nat) r => if a.1 < r.2.tmax then (r.2.tmax, r.1) else a) (0, 0)
  let p := lsum (some'.map (fun r => r.2.power / r.2.count))
  let free := Config.sensed e
  if some'.isEmpty then (free % 256, free / 256 % 5, free / 2048 % 4096, true)
  else (hottest.1, hottest.2, if miss then free / 2048 % 4096 else p % 4096, miss)

/-- The cap level of the next epoch by R503 and R505: 7 after a trip. -/
def State.nextCap (s : State) (tmax power : Nat) (miss : Bool) : Nat :=
  let limit := s.rf R.srcPwr 11 0
  let c := s.bwr.cap
  let hot := miss || decide (s.hotAt ≤ tmax) || (limit != 0 && decide (limit ≤ power)) || s.src.warn
  let cool := decide (tmax + 5 < s.hotAt) && (limit == 0 || decide (power * 16 < limit * 15))
  if s.src.trip then 7 else if hot then min 7 (c + 1) else if cool then c - 1 else c

/-! ## Start-up (R513, R514) -/

/-- KeyID 0 is brought into use under its next index (05 R117). -/
def State.useSystemKey (s : State) : State := (s.raiseIndex 0).useKey 0 0xFF .system

/-- VAULT_SELF_TEST_DONE (R513, 15 R328): the self-test of the vault section ends; the identity, binding and alias keys, K_MEM and K_M exist, and at a
start without a clear KeyID 0 is brought back into use. Without DRBG output it waits (15 R324); in SCRAP no key is derived (16 R352). -/
def execVaultSelfTestDone (s : State) : Host.Outcome State Fault Refusal :=
  if s.vlt.st != 1 || s.inReset || s.mce.halted || s.vlt.drbgStopped || s.lc.idx == 20 then .next s
  else
    let s := s.deriveIdentity
    .next (if s.src.cleared then s.useSystemKey else s).deriveAlias

/-- Every line of every grain. -/
def allLines : Nat := grainLines * nGrains

/-- CARVEOUT_INIT_DONE (R513, 01 R21): Z(a) stands in every slot of the carve-out, written under the system tag. -/
def execCarveoutInitDone (s : State) : Host.Outcome State Fault Refusal :=
  if s.src.carved || s.vlt.st < 2 || s.vlt.st == 4 || s.inReset then .next s
  else .next ({ s with src := { s.src with carved := true } }.emit .memFill [RClass.scr.code, 0xFF, 0, 0, allLines, 0] [])

/-- MEMORY_CLEAR_DONE (R513, 03 R58, 05 R117, R118): every data line has been zeroed and read back; the grains of `bad` are POISON, every other BLANK. The
indices are set to 0 and KeyID 0 is brought into use. -/
def execMemoryClearDone (bad : List Nat) (s : State) : Host.Outcome State Fault Refusal :=
  if !s.src.carved || s.src.cleared || s.inReset || s.vlt.st < 2 || s.vlt.st == 4 || s.vlt.drbgStopped then .next s
  else
    let warm := decide (4 ≤ s.rf R.srcCause 2 0)
    let gs := uniq (bad.filter (fun g => decide (g < nGrains)))
    let gt : Tbl GrainE := gs.foldl (fun t g => tset (dflt GrainE.blank) t g { GrainE.blank with st := .poison }) []
    let s := { s with bnd := { s.bnd with gt := gt }, mce := { s.mce with keys := [] }, src := { s.src with cleared := true, wantClear := false } }
    let s := s.useSystemKey.emit .memFill [RClass.scr.code, 0xFF, 0, 0, allLines, 2] []
    let s := if warm then s.offer 0 0x31 s.spn.tick 0xFF 0 0 [] else s
    .next (if gs.isEmpty then s else s.irq 15)

/-- FW_READY (R513, R514, 17 R382): the dies have reported ready, the audit of 12 R281 passes, traffic is admitted and LLY_HFP_READY.FW = 1. A failing audit
is a block-level fault (12 R280). -/
def execFwReady (s : State) : Host.Outcome State Fault Refusal :=
  if s.hfp.fwReady || !s.hfp.cfgReady || s.ccx.active.isNone || s.vlt.st != 3 || !s.src.carved || !s.src.cleared || s.inReset || s.mce.halted then .next s
  else if s.auditFails != 0 then
    .next (((s.wf R.audStatus 7 0 (s.rf R.audStatus 7 0 ||| s.auditFails)).irq 4).raiseFault Sub.flt none (FaultEv.base 0x40 5 []))
  else
    let s := ({ s with hfp := { s.hfp with fwReady := true } }).wf R.audStatus 8 8 1
    .next s.releaseHeld.pumpHost

/-! ## IDLE and PARK (R506–R508) -/

/-- UNIT_IDLE (R506): a unit is clock-gated, which changes no state. -/
def execUnitIdle (_unit : Nat) (s : State) : Host.Outcome State Fault Refusal := .next s

/-- A parked slice's state changed. -/
def State.setPark (s : State) (n : Nat) (p : ParkSt) : State := { s with src := { s.src with park := tset (dflt ParkSt.none) s.src.park n p } }

/-- RETENTION_DONE (R507): the clusters of parked slice `n` are in retention, or out of it again, each resumed task with a new quantum. -/
def execRetentionDone (n : Nat) (s : State) : Host.Outcome State Fault Refusal :=
  match tget (dflt ParkSt.none) s.src.park n with
  | .stopping =>
    let s := s.setPark n .retained
    .next (match s.vfOf n with | some v => s.modFn v (fun x => { x with stale := 0 }) | none => s)
  | .leaving =>
    let fresh : Task → Task := fun t => { t with placedAt := s.spn.tick }
    let s := { s with dpa := { s.dpa with tasks := lmod s.dpa.tasks (fun t => t.sl == n && t.st == TaskSt.running) fresh } }
    .next ((s.setPark n .none).resumeSuspended)
  | _ => .next s

/-! ## DEEP (R509, R510) -/

/-- The conditions of R509. -/
def State.deepAllowed (s : State) : Bool :=
  s.slices.all (fun d => d.fabMask == 0 && !s.inFault d.slice) && s.armed.isNone && s.vlt.binding.isNone && s.lc.burn.isNone && s.ccx.job.isNone
    && (s.ccx.phase == 0 || s.ccx.phase == 5) && s.flt.block == 0 && s.fld.passes.isEmpty && s.src.deep == 0

/-- A slice told to stop for parking, or to resume (R507). -/
def State.tellPark (s : State) (n : Nat) (on : Bool) : State :=
  let s := s.setPark n (if on then .stopping else .leaving)
  (if on then s.withdrawReads n else s).emit .ddl [2, n, if on then 1 else 0] []

/-- LLY_SRC_CTL.DEEP_REQ written 1 (R509): the entry starts and parks every slice, or the write is dropped with DEEPREF. -/
def State.askDeep (s : State) : State :=
  if !s.deepAllowed then s.wf R.srcStat 6 6 1
  else
    let s := { s with src := { s.src with deep := 1, deepAt := s.spn.tick } }
    (s.slices.filter (fun d => d.clusters != 0 && (tget (dflt ParkSt.none) s.src.park d.slice) == .none)).foldl (fun s d => s.tellPark d.slice true) s

/-- LLY_SRC_CTL written (R504, R509). -/
def State.writeSrcCtl (s : State) (v : Nat) : State :=
  let s := s.wr R.srcCtl (v % 2)
  if bit v 1 then s.askDeep else s

/-- DEEP_REQ (R509). -/
def execDeepReq (s : State) : Host.Outcome State Fault Refusal :=
  .next (s.gated 0 R.srcCtl (2 + s.rd R.srcCtl) State.askDeep)

/-- DEEP_ENTRY_DONE (R509, R511): the slices are parked, the bypasses closed, the memory requests under way ended, the tag caches written back, and every field
without D has lost its value; the key tables and the shelf are lost with their domains. -/
def execDeepEntryDone (s : State) : Host.Outcome State Fault Refusal :=
  if s.src.deep != 1 || !s.mce.reqs.isEmpty then .next s
  else
    let s := (tkeys s.src.park (fun _ p => p == .stopping)).foldl (fun s n => s.setPark n .retained) s
    let s := s.closeFabric 0
    let s := s.mce.tagc.foldl (fun s e => e.2.foldl (fun s t => s.writeBack (e.1 / 16) t) s) s
    let s := (s.grainsWhere (fun e => e.st == .scrubbing)).foldl (fun s g => (s.scrubFrom g).modGrain g (fun e => { e with st := .dirty })) s
    let s := s.pcm.promos.foldl (fun s p => s.dropPromo p.1 p.2) s
    let s := s.slices.foldl (fun s d => (s.podsOf d.slice).foldl (fun s e => s.modPod d.slice e.1 Pod.down) s) s
    let s := s.closeDebug
    let noBuf : HostReq → HostReq := fun r => { r with chan := 112 }
    let z := State.reset
    let s := { s with
      regs := s.keepRegs Surv.d
      mce := { s.mce with tagc := [], keys := tmap (dflt KeyE.init) s.mce.keys (fun _ e => e.dead) }
      fld := { s.fld with acc := [], fbuf := [] }
      bwr := { s.bwr with regs := [], reports := [], qlvl := [] }
      fpc := { z.fpc with firstCommit := s.fpc.firstCommit }
      tpl := { s.tpl with free := 16384, use := [], fab := [], reqs := s.tpl.reqs.map noBuf }
      src := { s.src with deep := 2, deepAt := s.spn.tick } }
    .next (s.clearStale.offer 0 0x61 s.spn.tick 0xFF 1 0 [])

/-- WAKE (R510): a host write, a sideband message or LLY_WRST_n wakes the device. -/
def execWake (s : State) : Host.Outcome State Fault Refusal := .next s.wakeUp

/-- A memory key set the vault still holds (15 R333): a system, active or retiring one, but for that of a slice destroyed, which is zeroised (05 R121). -/
def State.keyHeld (s : State) (k : Nat) (e : KeyE) : Bool :=
  e.st == .active || e.st == .system || s.mce.walks.any (fun w => match w.2 with | some w => w.old == k | none => false)

/-- The wake's steps (R510, 02 R44, R45, 15 R333): the count resumes at its value on entry plus 5 tk for each period counted and the ticks of the wake, the key
tables are reloaded, the audit passes, the slices whose PARK bit is clear resume, pins are restored. -/
def State.wakeDone (s : State) (periods wake : Nat) : State :=
  let full := !bit (s.rd R.audStatus) 8
  let s := { s with src := { s.src with deep := 0 } }
  let s := if !full then s else
    let s : State := { s with
      spn := { s.spn with tick := s.src.deepAt + 5 * periods + wake, keeper := periods, align := .unaligned, goodRun := 0, offset := 0, slew := 0 } }
    let s : State := (tkeys s.mce.keys (fun k e => s.keyHeld k e)).foldl (fun s k => s.loadKey k) s
    if s.auditFails = 0 then s.wf R.audStatus 8 8 1
    else ((s.wf R.audStatus 7 0 (s.rf R.audStatus 7 0 ||| s.auditFails)).irq 4).raiseFault Sub.flt none (FaultEv.base 0x40 5 [])
  let s := s.offer 0 0x61 s.spn.tick 0xFF 2 0 []
  let mask := s.rd R.srcParkLo + 2 ^ 32 * s.rd R.srcParkHi
  let s := (s.slices.filter (fun d => d.clusters != 0 && !bit mask d.slice && (tget (dflt ParkSt.none) s.src.park d.slice) != .none)).foldl
    (fun s d => s.tellPark d.slice false) s
  let s := s.slices.foldl (fun s d => ((s.podsOf d.slice).filter (fun e => e.2.pinWant)).foldl (fun s e => s.podPin d.slice e.1 none) s) s
  s.releaseHeld.startWork

end Sys2Proof.Machine
end

