-- ==== Sys2Proof/Machine/Pins.lean ====
section
/-! DEFINITION. The TAP's instructions (16 R364, 25 R546) and the I3C sideband target (25 R545). -/

namespace Sys2Proof.Machine

/-! ## TAP -/

/-- The instruction an opcode stands for (25 R546): those not defined, and internal scan where it is not available, act as BYPASS. -/
def State.tapOp (s : State) (op : Nat) : Nat :=
  let op := op % 256
  let scan := decide (0x20 ≤ op) && decide (op ≤ 0x2F)
  let open' := s.lcCode = 0 || (decide (s.lcCode ≤ 15) && s.lcCode % 2 == 1)
  if op = 1 || op = 2 || op = 3 || op = 4 || op = 5 || op = 0x10 || (scan && open') then op else 0xFF

/-- An instruction loaded: EXTEST, CLAMP and HIGHZ (3–5) hold Llyna in warm reset while loaded, any other ends such a hold (16 R364). -/
def State.loadTap (s : State) (op : Nat) : State :=
  let was := s.pins.tapHold
  let hold := op == 3 || op == 4 || op == 5
  let s' := { s with pins := { s.pins with tapInstr := op, tapHold := hold } }
  if hold && !was && !s.inReset then s'.warmReset 7
  else if was && !hold then
    if s'.pins.wrstLatched = 7 && !s'.pins.wrst then { s' with pins := { s'.pins with wrstLatched := 0 } } else s'.endReset
  else s'

/-- EXTEST (16 R364). -/
def execExtest (s : State) : Host.Outcome State Fault Refusal := .next (s.loadTap 3)

/-- CLAMP (16 R364). -/
def execClamp (s : State) : Host.Outcome State Fault Refusal := .next (s.loadTap 4)

/-- HIGHZ (16 R364). -/
def execHighz (s : State) : Host.Outcome State Fault Refusal := .next (s.loadTap 5)

/-- INSTRUCTION_LOAD (16 R364, 25 R546): the instruction register is loaded with opcode `op`. -/
def execInstructionLoad (op : Nat) (s : State) : Host.Outcome State Fault Refusal := .next (s.loadTap (s.tapOp op))

/-- TAP_RESET (25 R546): TRST_n holds the TAP in reset, which loads IDCODE. -/
def execTapReset (s : State) : Host.Outcome State Fault Refusal := .next (s.loadTap 1)

/-! ## Sideband (25 R545) -/

/-- ENTDAA (25 R545, 23 R512): the target joins dynamic address assignment from 5 ms after release, sending its provisional ID with the low 32 bits of OTP row
60, and takes address `a`. -/
def execEntdaa (a : Nat) (s : State) : Host.Outcome State Fault Refusal :=
  if s.inReset || s.pins.i3cDeaf || s.pins.i3cAddr.isSome || s.spn.tick < s.src.upAt + 19532 then .next s
  else .next ({ s with pins := { s.pins with i3cAddr := some (a % 128) } }.emit .mctp [0, s.otpRow 60 % 2 ^ 32] [])

/-- HDR_ENTRY (25 R545): the target ignores the bus until the exit pattern. -/
def execHdrEntry (s : State) : Host.Outcome State Fault Refusal := .next { s with pins := { s.pins with i3cDeaf := true } }

/-- HDR_EXIT (25 R545). -/
def execHdrExit (s : State) : Host.Outcome State Fault Refusal := .next { s with pins := { s.pins with i3cDeaf := false } }

/-- MCTP_CONTROL (25 R545, 23 R510, R512): a control message `cmd` to the target's address is answered; in DEEP it wakes the device. The answer's payload is that
of MCTP's own standard, which the spec names and does not restate. -/
def execMctpControl (cmd : Nat) (data : List Byte) (s : State) : Host.Outcome State Fault Refusal :=
  if s.inReset || s.pins.i3cDeaf || s.pins.i3cAddr.isNone then .next s
  else .next (s.wakeUp.emit .mctp [1, cmd] (leBytes 64 (Config.freeNat 4 (cmd :: data.map BitVec.toNat))))

end Sys2Proof.Machine
end

