-- ==== Sys2Proof/Machine/Recorder.lean ====
section
/-! DEFINITION. The event recorder (24): the bytes of a record, writing, freeze, thaw and clear, and the two ways of reading. -/

namespace Sys2Proof.Machine

/-- The 64 bytes of a record (R515). -/
def EvrRec.bytes (r : EvrRec) : List Byte :=
  let b := leBytes 4 r.rseq ++ [1] ++ leBytes 1 r.cls ++ leBytes 2 r.kind ++ leBytes 8 r.tick ++ leBytes 1 r.slice ++ leBytes 1 r.sub ++ leBytes 2 r.aux
    ++ leBytes 1 r.boot ++ leBytes 3 0 ++ (List.range 4).flatMap (fun i => leBytes 8 (r.d.getD i 0)) ++ leBytes 4 0
  b ++ leBytes 4 (crc32c b)

/-- Whether a REC_READ is copying: its write to host memory has not ended. -/
def State.recCopying (s : State) : Bool :=
  s.tpl.accs.any (fun a => a.use == .mbxWrite && a.sl == pf0
    && (s.mb pf0).exec.any (fun e => e.ref.id == a.a && e.ref.op == Op.recRead && !e.done))

/-- A CLEAR is past its first step: nothing is copied any more, and the SRAM is being zeroed (R521). -/
def State.recZeroing (s : State) : Bool := s.evr.clearing && !s.recCopying

/-- RECORD_WRITE (R517, R518): the oldest record of the input queue goes to index WRITTEN, or is counted in FULLDROP. -/
def execRecordWrite (s : State) : Host.Outcome State Fault Refusal :=
  match s.evr.inq with
  | [] => .next s
  | r :: q =>
    if s.recZeroing || (!s.pins.vddSec && !s.pins.vbak) then .next s
    else if 65536 ≤ s.evr.mem.length then
      .next { s with evr := { s.evr with inq := q, fulldrop := min 0xFFFFFFFF (s.evr.fulldrop + 1) } }
    else
      let s := { s with evr := { s.evr with inq := q, mem := s.evr.mem ++ [r] } }
      .next (if s.evr.mem.length = 65536 then s.irq 9 else s)

/-- LLY_EVR_SEL written (R523, 26 R551): source `src` selects index `i`, whose record is latched for it. -/
def State.selRecord (s : State) (src i : Nat) : State :=
  let i := i % 65536
  let b := match s.evr.mem[i]? with | some r => r.bytes | none => List.replicate 64 0
  let s := s.wr (srcReg src R.evrSel) (i + if i < s.evr.mem.length then 65536 else 0)
  (List.range 16).foldl (fun s n => s.wr (srcReg src (R.evrRec + 4 * n)) (fieldAt b (4 * n) 4)) s

/-- EVR_SEL_WRITE (R523). -/
def execEvrSelWrite (src i : Nat) (s : State) : Host.Outcome State Fault Refusal :=
  .next (s.gated src R.evrSel i (fun s => s.selRecord src i))

/-- REC_CTL (20 R447) raised in class 12, where it acts (R520). -/
def State.recEv (s : State) (b : EvBody) : State := s.raise ⟨12, none, Sub.evr, b⟩

/-- FREEZE (20 R447, R520). -/
def execFreeze (s : State) : Host.Outcome State Fault Refusal :=
  .next (s.commandIf pf0 Op.recCtl (opIs 0x0C 1 [1, 2, 3]) (fun _ e => [badAt (fieldAt e.entry 0x0C 1 % 4 != 1) 0x0C 0])
    (fun s e => s.recEv (.recFreeze (some e.ref))))

/-- UNFREEZE (20 R447, R520). -/
def execUnfreeze (s : State) : Host.Outcome State Fault Refusal :=
  .next (s.commandIf pf0 Op.recCtl (opIs 0x0C 2 [1, 2, 3]) (fun _ e => [badAt (fieldAt e.entry 0x0C 1 % 4 != 2) 0x0C 0])
    (fun s e => s.recEv (.recThaw (some e.ref))))

/-- FREEZE takes effect (R520): FRZDROP is 0 and the stamp F in force; a frozen recorder stays as it is. -/
def State.freezeEffect (s : State) (stamp : Nat) (cmd : Option CmdRef) : State :=
  match s.evr.frozen with
  | some _ => s.finish cmd Status.okEmpty 0 []
  | none => ({ s with evr := { s.evr with frozen := some stamp, frzdrop := 0 } }).finish cmd Status.ok 0 []

/-- UNFREEZE takes effect (R520): a THAW record, and later records are written again. -/
def State.thawEffect (s : State) (stamp : Nat) (cmd : Option CmdRef) : State :=
  match s.evr.frozen with
  | none => s.finish cmd Status.okEmpty 0 []
  | some f =>
    let s := s.offer 12 0x70 stamp 0xFF 0 0 [s.evr.frzdrop, f]
    ({ s with evr := { s.evr with frozen := none } }).finish cmd Status.ok 0 []

/-- CLEAR (20 R447, R521), raised in class 12 as every REC_CTL is. -/
def execClear (s : State) : Host.Outcome State Fault Refusal :=
  .next (s.commandIf pf0 Op.recCtl (opIs 0x0C 3 [1, 2, 3]) (fun _ e => [badAt (fieldAt e.entry 0x0C 1 % 4 != 3) 0x0C 0])
    (fun s e => s.recEv (.recClear (some e.ref))))

/-- CLEAR takes effect (20 R447, R521): only on a frozen recorder; one CLEAR at a time runs. -/
def State.clearEffect (s : State) (cmd : Option CmdRef) : State :=
  if s.evr.frozen.isNone then s.finish cmd Status.badField (dtl 0x0C 0) []
  else if s.evr.clearing then s.finish cmd Status.busyRetry 0 []
  else { s with evr := { s.evr with clearing := true, clearCmd := cmd } }

/-- CLEAR_DONE (R521): the SRAM is zero once no REC_READ copies; the counters return to 0 and a CLEARED record stands at index 0. -/
def execClearDone (s : State) : Host.Outcome State Fault Refusal :=
  if !s.recZeroing then .next s
  else
    let v := s.evr
    let r : EvrRec := ⟨v.rseq, 0, 0x71, s.spn.tick, 0xFF, 0, 0, 0, [v.mem.length, v.fulldrop, v.qdrop, v.rseq]⟩
    let v' : Evr := { v with mem := [r], rseq := (v.rseq + 1) % 2 ^ 32, fulldrop := 0, qdrop := 0, boot := 0, clearing := false, clearCmd := none }
    .next ({ s with evr := v' }.finish v.clearCmd Status.ok 0 [])

/-- REC_READ (20 R448): the records from START that have been written are copied, up to COUNT; while a CLEAR zeroes the SRAM it is told to retry (R521). -/
def execRecRead (s : State) : Host.Outcome State Fault Refusal :=
  let start := fun (e : ExecCmd) => fieldAt e.entry 0x0C 3 % 131072
  let count := fun (e : ExecCmd) => fieldAt e.entry 0x10 3 % 131072
  let result := fun (s : State) (n : Nat) => leBytes 4 s.evr.mem.length ++ leBytes 4 n ++ leBytes 4 s.evr.frzdrop ++ leBytes 1 (if s.evr.frozen.isSome then 1 else 0)
  .next (s.command pf0 Op.recRead
    (fun s e => [badAt (decide (65535 < start e)) 0x0C 0, badAt (decide (65536 < count e)) 0x10 0, (s.recZeroing, Status.busyRetry, 0)])
    (fun s e =>
      let rs := (s.evr.mem.drop (start e)).take (count e)
      if rs.isEmpty then s.finish (some e.ref) Status.okEmpty 0 (result s 0)
      else s.cmdOut e (fieldAt e.entry 0x18 8) 0x18 (rs.flatMap EvrRec.bytes) (result s rs.length)))

end Sys2Proof.Machine
end

