-- ==== Sys2Proof/Machine/HostData.lean ====
section
/-! DEFINITION. What the host's completions do (25 R534): each answers one request of one host access, and the access's end goes to whatever asked
for it. -/

namespace Sys2Proof.Machine

/-- HOST_ERROR (22 R466) of a slice's transfer that no queue names. -/
def State.podHostError (s : State) (n addr : Nat) : State :=
  s.raiseFault Sub.pcm (some n) { FaultEv.base 0x12 1 [n] with sub := RClass.pf.code, db := addr % 2 ^ 32, dc := addr / 2 ^ 32 }

/-- A DMA transfer ends with an error once what is on its way has been written (10 R231): `moved` bytes count. -/
def State.failDma (s : State) (sl q : Nat) (moved : Option Nat) : State :=
  let upd : Dma → Dma := fun x => { x with status := some Status.faulted, moved := moved.getD x.moved }
  { s with dpa := { s.dpa with dmas := lmod s.dpa.dmas (fun x => x.sl == sl && x.queue == q) upd } }

/-- The TASK_ID of a queue's DMA transfer. -/
def State.dmaTask (s : State) (sl q : Nat) : Nat :=
  match s.dpa.dmas.find? (fun d => d.sl == sl && d.queue == q) with
  | some d => fieldAt d.desc 8 8
  | none => 0

/-- A read of a TO_DEVICE transfer has brought bytes: the lines whole from the start are written (10 R231). -/
def State.dmaCame (s : State) (a : HostAcc) (upTo : Nat) : State :=
  match s.dpa.dmas.find? (fun d => d.sl == a.sl && d.queue == a.a && d.entry == a.b) with
  | some d => s.dmaWrite d a.data upTo
  | none => s

/-- A host access has ended without an error. -/
def State.hostDone (s : State) (a : HostAcc) : State :=
  match a.use with
  | .ring => s.modQueue a.sl a.a (fun x => if x.reading && x.turn == a.b then { x with reading := false, fetched := some a.data } else x)
  | .glist => s.glistAnswer a.sl a.a a.b true
  | .dmaRead => s.dmaCame a a.len
  | .huskF | .huskT =>
    let secT := a.use == .huskT
    if a.b = 0 then s.modFetch a.sl a.a secT (fun f => { f with header := a.data, stage := 1 })
    else s.modFetch a.sl a.a secT (fun f => { f with bytes := a.data })
  | .mbxRing => s.ringAnswer a.sl a.a (some a.data)
  | .mbxData => s.dataAnswer a.sl a.a a.b (some a.data)
  | .mbxWrite => s.outAnswer a.sl a.a a.b true
  | .image => s.recordIn a.a (some a.data)
  | .fw => s.fwAnswer a.a (some a.data)
  | .completion | .dmaWrite | .huskPut | .mbxCpl | .other => s

/-- A host access has failed at offset `off` (22 R466, R470, 18 R405): what asked for it ends as its chapter states, and a slice's transfer raises
HOST_ERROR. -/
def State.hostFailed (s : State) (a : HostAcc) (off : Nat) : State :=
  match a.use with
  | .ring =>
    (match s.queue a.sl a.a with
      | some x =>
        if x.reading && x.turn == a.b then
          let s := (s.modQueue a.sl a.a (fun x => { x with reading := false })).hostError a.sl a.a 0 RClass.hd.code a.addr
          s.failTurn a.sl a.a x (List.replicate 128 0) Status.badField 0
        else s
      | none => s)
  | .glist => (s.hostError a.sl a.a 0 RClass.hd.code (a.addr + off)).glistAnswer a.sl a.a a.b false
  | .dmaRead => (((s.dmaCame a off).failDma a.sl a.a none)).hostError a.sl a.a (s.dmaTask a.sl a.a) RClass.hd.code (a.addr + off)
  | .dmaWrite => (s.failDma a.sl a.a (some off)).hostError a.sl a.a (s.dmaTask a.sl a.a) RClass.hd.code (a.addr + off)
  | .huskF | .huskT =>
    let secT := a.use == .huskT
    ((s.modFetch a.sl a.a secT (fun f => { f with stage := 4 })).podEv a.sl a.a PodW.failed [Status.faulted, 0, if secT then 1 else 0] none).podHostError
      a.sl (a.addr + off)
  | .huskPut =>
    (match s.pcm.jobs.find? (fun j => j.sl == a.sl && j.pod == a.a && !j.rebase && j.started) with
      | some j => (s.putOver j Status.badField (dtl 0x18 0) []).podHostError a.sl (a.addr + off)
      | none => s)
  | .mbxRing => s.ringAnswer a.sl a.a none
  | .mbxData => s.dataAnswer a.sl a.a a.b none
  | .mbxWrite => s.outAnswer a.sl a.a a.b false
  | .image => s.recordIn a.a none
  | .fw => s.fwAnswer a.a none
  | .completion | .mbxCpl | .other => s

/-- HOST_COMPLETION (25 R534): the controller answers request `tag` with STAT and data. The completions of a contained slice are discarded into its own
buffers (22 R471), and behind the fence only the mailbox ring traffic goes on (05 R114). -/
def execHostCompletion (tag stat : Nat) (data : List Byte) (s : State) : Host.Outcome State Fault Refusal :=
  let off := (s.tpl.reqs.find? (fun r => r.tag == tag)).elim 0 HostReq.off
  let (t, ans) := s.answerReq tag stat data
  let quiet := fun (a : HostAcc) => (a.use.ofSlice && s.contained a.sl) || (s.mce.fenced && !(a.use == .mbxRing || a.use == .mbxCpl))
  let t := match ans with
    | .nothing => t
    | .more a _ _ => if a.use == HostUse.dmaRead && !quiet a then t.dmaCame a (t.arrived a) else t
    | .done a => if quiet a then t else t.hostDone a
    | .failed a => if quiet a then t else t.hostFailed a off
  .next t.pumpHost

end Sys2Proof.Machine
end

