-- ==== Sys2Proof/Machine/Registers.lean ====
section
/-! DEFINITION. The register windows (26): what a read of a place answers, what a write of one does, the rows of register accesses, the debug port's frames (25
R547), and the end of a wake from DEEP, which applies the writes held (23 R510). -/

namespace Sys2Proof.Machine

/-! ## Reading -/

/-- A mask of 64 bits by slice or cluster. -/
def maskOf (p : Nat → Bool) : Nat := (List.range 64).foldl (fun m n => if p n then m + 2 ^ n else m) 0

/-- Half `a` of a 64-bit value: 0 the low half. -/
def half (v a : Nat) : Nat := if a = 0 then v % 2 ^ 32 else v / 2 ^ 32 % 2 ^ 32

/-- Bit `k` of a word set where `b` holds. -/
def flag (b : Bool) (k : Nat) : Nat := if b then 2 ^ k else 0

def AlignSt.code : AlignSt → Nat
  | .unaligned => 0 | .acquiring => 1 | .aligned => 2 | .lost => 3

def BankSt.code : BankSt → Nat
  | .empty => 0 | .loading => 1 | .checked => 2 | .waitBlank => 3 | .drain => 4 | .deciding => 5 | .checking => 6

def CoreSt.code : CoreSt → Nat
  | .held => 0 | .running => 1 | .restarting => 2 | .halted => 3

/-- Identity, host functions and Spindle blocks (26 R555, 17, 02). -/
def State.viewLow (s : State) (src a : Nat) : Nat :=
  if a = R.idReady then flag s.hfp.cfgReady 0 + flag s.hfp.fwReady 1 + flag (bit (s.rd R.audStatus) 8) 2
  else if a = R.hfpReady then flag s.hfp.cfgReady 0 + flag s.hfp.fwReady 1 + flag s.hfp.vfEnable 2 + 8 * s.hfp.numVfs
  else if a = R.hfpGen then (s.fn pf0).gen
  else if a = R.hfpStale then (s.fn pf0).stale
  else if R.hfpVfstat ≤ a && a < R.hfpVfstat + 256 then
    let v := (a - R.hfpVfstat) / 4
    let x := s.fn v
    (s.presents v).getD 0xFF + 2 ^ 8 * x.gen + 2 ^ 24 * x.tdisp.code + flag (s.exists v) 26
  else if a = R.spnTickLo then s.spn.tick % 2 ^ 32
  else if a = R.spnTickHi then s.rd (srcReg src a)
  else if a = R.spnRot then s.spn.rot
  else if a = R.spnAlign then
    s.spn.align.code + flag s.alignRoot 2 + 2 ^ 8 * ((max (-128) (min 127 (s.spn.offset / 64))) % 256).toNat + 2 ^ 16 * (s.parentPort.getD 0xF)
  else s.rd a

/-- A function's mailbox (18); `k` is the place's offset in the mailbox block. -/
def State.viewMbx (s : State) (f k : Nat) : Nat :=
  let m := s.mb f
  let at' := mbReg f (0x2000 + k) (0x1000 + k)
  if k = 0x14 then 0
  else if k = 0x18 then (if m.depth = 0 then 0 else m.head % m.depth)
  else if k = 0x20 then
    flag m.lease 0 + flag (m.orphan && f == pf0) 1 + 4 * m.major + bits (s.rd at') 5 4 * 16 + 2 ^ 6 * m.exec.length
  else if k = 0x24 then m.feat % 2 ^ 32
  else if k = 0x28 then m.feat / 2 ^ 32 % 2 ^ 32
  else if k = 0x2C then (if m.lease then m.leaseAt - s.spn.tick else 0)
  else if k = 0x40 then flag s.directBusy 1
  else s.rd at'

/-- Chuck, Binder, memory crypt, tile check and fold blocks (04, 03, 05, 06, 08). -/
def State.viewPart (s : State) (src a : Nat) : Nat :=
  if a = R.chkBank then s.chk.a.st.code + 8 * s.chk.b.st.code + 64 * s.chk.load
  else if a = R.chkCommit then 0
  else if a = R.chkTickLo then s.chk.lastTick % 2 ^ 32
  else if a = R.chkTickHi then s.rd (srcReg src a)
  else if a = R.chkWait then (match s.armed with | some b => s.awaited (s.bank b) | none => 0)
  else if a = R.fldSusp then (s.fld.passes.filter (fun p => p.st == PassSt.suspended)).length
  else if (R.bndGtSel ≤ a && a ≤ R.bndGtHi) || (R.mceKsel ≤ a && a ≤ R.mceWleft) then s.rd (srcReg src a)
  else s.rd a

/-- Pod cache, dispatch, bandwidth, transit pool and audit blocks (09, 10, 11, 12). -/
def State.viewRun (s : State) (src a : Nat) : Nat :=
  if a = R.pcmEntries then (s.pcm.pods.filter (fun e => e.2.isSome)).length
  else if a = R.pcmShelf then lsum (s.pcm.pods.map (fun e => e.2.elim 0 (fun p => p.shelf.length)))
  else if a = R.pcmPodGrains then (s.grainsWhere (fun e => e.st == .owned && e.attr == .pod)).length
  else if a = R.pcmFetchq then s.pcm.fetches.length
  else if a = R.dpaQused then s.allQueues.length
  else if R.bwrStack ≤ a && a < R.bwrStack + 32 then
    let k := (a - R.bwrStack) / 4
    s.placedAll k + 2 ^ 16 * (tget (dflt (0, 0)) s.bwr.qlvl k).1
  else if a = R.bwrEpoch then s.bwr.cap + flag s.bwr.capped 3 + 16 * (s.bwr.epoch % 2 ^ 28)
  else if R.tplUse ≤ a && a < R.tplUse + 448 then s.chUsed ((a - R.tplUse) / 4)
  else if a = R.audSel || a = R.audVal then s.rd (srcReg src a)
  else s.rd a

/-- Fabric ports (13, 14). -/
def State.viewFab (s : State) (a : Nat) : Nat :=
  if a = R.fpcBypStat then lsum ((List.range 4).map (fun k => 4 ^ k * (s.bypass k).1.code))
  else if a = R.fpcCtl then 0
  else if a = R.fpcAdmit then lsum (s.fpc.admitted.map (fun p => 2 ^ p)) + 2 ^ 8 * (s.fpc.admitted.getLast?.getD 0) + flag (bit (s.rd a) 16) 16
  else if R.fpcLink ≤ a && a < R.fpcLnkcnt then
    let i := (a - R.fpcLink) % 128 / 4
    let x := s.link (i / 4) (i % 4)
    if s.nLinks (i / 4) ≤ i % 4 then 0
    else if a < R.fpcLink + 128 then
      x.st.code + flag (x.gen2 && x.st == .up) 3 + 16 * x.lanes + 2 ^ 10 * x.reason + flag x.fast 14 + flag x.reversed 15 + 2 ^ 16 * x.tfail
    else if a < R.fpcSess then s.rd a
    else if a < R.fpcTxctr then flag x.keysel 0 + 2 * x.rekey + 2 ^ 16 * (x.session % 2 ^ 16)
    else x.txCtr / 256 % 2 ^ 32
  else s.rd a

/-- Vault and lifecycle (15, 16). -/
def State.viewVault (s : State) (a : Nat) : Nat :=
  let up := decide (2 ≤ s.vlt.st)
  let unfused := ([31, 32, 33, 34] : List Nat).all (fun r => s.otpRow r == 0)
  if a = R.vltState then s.vlt.st + flag (up && unfused) 3 + 16 * s.vlt.lcClass
  else if R.vltDevid ≤ a && a < R.vltFp then fieldAt s.deviceId (a - R.vltDevid) 4
  else if a = R.vltFp then s.packageFp
  else if a = R.vltSvn then s.vlt.svnVault + 2 ^ 16 * s.vlt.svnControl
  else if a = R.vltBind then
    (match s.vlt.binding with | some b => b.phase + 8 * b.image + 2 ^ 8 * b.loaded | none => 0)
  else if a = R.lcState then
    s.lcCode + flag s.debugOpen 8 + 2 ^ 9 * s.tokens.2.2 + flag s.lc.torn 13 + flag s.lc.pending 14 + flag s.lc.resume 15
      + (if s.lc.resume || s.lc.pending then 2 ^ 16 * s.lc.target else 0)
  else if R.lcNonce ≤ a && a < R.lcAuth then fieldAt (Config.random s.lc.nonce 32) (a - R.lcNonce) 4
  else if a = R.lcCtrl || (R.lcAuth ≤ a && a < R.lcAuth + 192) then 0
  else s.rd a

/-- Control complex, fault manager, supplies and recorder (21, 22, 23, 24). -/
def State.viewHigh (s : State) (src a : Nat) : Nat :=
  let acting := maskOf (fun n => (s.fsl n).phase != .none || (s.flt.block != 0 && (s.sdef n).isSome))
  let held := maskOf (fun n => (s.fsl n).phase == .held)
  let oos := maskOf (fun c => (s.cluster c).oos)
  if a = R.ccxState then lsum ((List.range 4).map (fun c => 4 ^ c * (s.core c).st.code))
  else if a = R.ccxSvnFloor then s.otpRow 59 % 2 ^ 32
  else if a = R.ccxHandoff then s.ccx.phase + 2 ^ 8 * bits (s.rd a) 15 8 + 2 ^ 16 * s.ccx.ledgerVer
  else if a = R.ccxLog then s.ccx.logCount % 2 ^ 18 + 2 ^ 18 * bits (s.rd a) 31 18
  else if a = R.ccxLogwrap then min 0xFFFFFFFF (s.ccx.logCount / 2 ^ 18)
  else if a = R.fltState then s.flt.block + flag (!s.pins.alertN) 2 + 2 ^ 8 * min 0xFF s.flt.blocks
  else if a = R.fltActiveLo || a = R.fltActiveHi then half acting (a - R.fltActiveLo)
  else if a = R.fltHeldLo || a = R.fltHeldHi then half held (a - R.fltHeldLo)
  else if a = R.fltOosLo || a = R.fltOosHi then half oos (a - R.fltOosLo)
  else if a = R.srcStat then
    flag s.pins.vbak 0 + flag s.src.backupAt.isSome 1 + flag s.src.warn 2 + flag s.src.trip 3 + 16 * s.src.deep + flag (bit (s.rd a) 6) 6
  else if a = R.evrStat then
    s.evr.mem.length + flag (s.evr.mem.length == 65536) 17 + flag s.evr.frozen.isSome 18 + flag s.evr.clearing 19 + 2 ^ 24 * (s.evr.boot % 256)
  else if a = R.evrRseq then s.evr.rseq
  else if a = R.evrFulldrop then s.evr.fulldrop
  else if a = R.evrFrzdrop then s.evr.frzdrop
  else if a = R.evrQdrop then s.evr.qdrop
  else if a = R.evrSel || (R.evrRec ≤ a && a < R.evrRec + 64) then s.rd (srcReg src a)
  else s.rd a

/-- Whether a place holds an RWS field: read through the staging bank while LLY_CHK_CTRL.VIEW = 1 (00 R10, 04 R79). -/
def isRws (a : Nat) : Bool :=
  match rowAt a with
  | some r => r.fields.any (fun f => f.acc == Acc.rws)
  | none => false

/-- The MSI-X table and pending bits of a function (17 R373): entry `e` of 16 bytes, its word `k`. -/
def State.viewMsix (s : State) (f e k : Nat) : Nat :=
  let x := s.fn f
  if k = 3 then flag (bit x.vecMask e) 0 else tget (dflt 0) x.msixTbl (4 * e + k)

/-- A register place of PF0's window as source `src` reads it with no read effect (26 R549–R552): 0 where nothing lies; before firmware is ready only
the blocks of R552's first row answer; in DEEP the fields without D read their reset values (23 R510). -/
def State.pfView (s : State) (src a : Nat) : Nat :=
  if 0x800000 ≤ a && a < 0x800200 then s.viewMsix pf0 ((a - 0x800000) / 16) (a % 16 / 4)
  else if a = 0x801000 then (s.fn pf0).pend
  else if (rowAt a).isNone then 0
  else
    let b := a / 4096
    if !s.answers a then 0
    else
      let v := if isRws a && bit (s.rd R.chkCtrl) 0 then s.viewed a
        else if b ≤ 3 && b != 2 then s.viewLow src a
        else if b = 2 then s.viewMbx pf0 (a % 4096)
        else if b ≤ 8 then s.viewPart src a
        else if b ≤ 0xC then s.viewRun src a
        else if b = 0xD then s.viewFab a
        else if b ≤ 0xF then s.viewVault a
        else s.viewHigh src a
      if s.deepDown then (regKeep Surv.d a (BitVec.ofNat 32 v)).toNat else v

/-- A register place of a VF's window (26, 17 R368, R369): a VF that presents no slice reads 0 but for its mailbox, LLY_HFP_EVT, _GEN and _STALE, and
LLY_HFP_ID with SLICE 0xFF. -/
def State.vfView (s : State) (f off : Nat) : Nat :=
  let x := s.fn f
  let k := vfReg f off
  if !s.exists f then 0
  else if 0x20000 ≤ off && off < 0x20200 then s.viewMsix f ((off - 0x20000) / 16) (off % 16 / 4)
  else if off = 0x21000 then x.pend
  else if (findRow vfRegs off).isNone then 0
  else
    let v := if off = V.hfpId then f + 2 ^ 8 * (s.presents f).getD 0xFF
      else if off = V.hfpGen then x.gen
      else if off = V.hfpStale then x.stale
      else if off = V.hfpEvt then s.rd k
      else if 0x1000 ≤ off && off < 0x2000 then s.viewMbx f (off % 4096)
      else match s.presents f with
        | none => 0
        | some n =>
          if off = V.hfpState then x.tdisp.code + flag ((s.fsl n).phase == .reset || x.reset) 2 + flag s.hfp.fwReady 3
          else if off = V.spnTickLo then s.spn.tick % 2 ^ 32
          else if off = V.bwrReport then (match tget (dflt none) s.bwr.reports n with | some r => r.pack | none => 0)
          else if V.bwrOwn ≤ off && off < V.bwrOwn + 32 then
            let j := (off - V.bwrOwn) / 4
            s.placed n j + 2 ^ 12 * s.ways n j + 2 ^ 16 * s.lentOf j n
          else if off = V.tplHown then s.grantsOf n
          else if V.dpaDb ≤ off && off < V.dpaQsel then
            (if off % 8 = 0 || s.rf (R.dpaQquota + 4 * n) 15 0 ≤ (off - V.dpaDb) / 8 then 0 else s.rd k)
          else if off = V.dpaAdm then
            (match s.admQueue n with | j :: _ => if j.since = 0 then 0 else 0x20 + 2 ^ 8 * j.queue | [] => 0)
          else if off = V.dpaAdmNeed then
            (match s.admQueue n with | j :: _ => if j.since = 0 then 0 else fieldAt j.desc 4 2 | [] => 0)
          else s.rd k
    if s.deepDown then (regKeep Surv.d k (BitVec.ofNat 32 v)).toNat else v

/-- TICK_LO_READ (02 R46): function `f`'s mirror, or for PF0 the register as source `src` reads it; the high half of the same count is latched. -/
def execTickLoRead (f src : Nat) (s : State) : Host.Outcome State Fault Refusal :=
  if !s.readable src R.spnTickLo then .next s
  else if f = pf0 then .next ((s.wr (srcReg src R.spnTickHi) (s.spn.tick / 2 ^ 32)).answerRead src R.spnTickLo (s.spn.tick % 2 ^ 32))
  else if s.exists f && (s.presents f).isSome then
    .next ((s.wr (vfReg f V.spnTickHi) (s.spn.tick / 2 ^ 32)).answerRead 0 (vfReg f V.spnTickLo) (s.spn.tick % 2 ^ 32))
  else .next (s.answerRead 0 (vfReg f V.spnTickLo) 0)

/-- A read of a register of PF0's window whose fields `rc` clear on read (00 R10, R11): answered as it stands, then those fields are 0. In a security halt and in
DEEP nothing is cleared: the values are those kept. -/
def State.readClear (s : State) (src a hi lo : Nat) : State :=
  if !s.readable src a then s
  else
    let s' := s.answerRead src a (s.pfView src a)
    if s.deepDown || !s.answers a then s' else s'.wf a hi lo 0

/-- The read of a whole 32-bit RC register. -/
def State.readClear32 (s : State) (src a : Nat) : State := s.readClear src a 31 0

/-- SPN_DEFER_READ (02 R39). -/
def execSpnDeferRead (src : Nat) (s : State) : Host.Outcome State Fault Refusal := .next (s.readClear32 src R.spnDefer)

/-- BND_DENY_CNT_READ (03 R74). -/
def execBndDenyCntRead (src : Nat) (s : State) : Host.Outcome State Fault Refusal := .next (s.readClear32 src R.bndDenyCnt)

/-- MCE_POISON_CNT_READ (05 R112). -/
def execMcePoisonCntRead (src : Nat) (s : State) : Host.Outcome State Fault Refusal := .next (s.readClear32 src R.mcePoisonCnt)

/-- MCE_CECC_CNT_READ (05 R107). -/
def execMceCeccCntRead (src : Nat) (s : State) : Host.Outcome State Fault Refusal := .next (s.readClear32 src R.mceCeccCnt)

/-- MCE_TAGC_MISS_READ (05 R110). -/
def execMceTagcMissRead (src : Nat) (s : State) : Host.Outcome State Fault Refusal := .next (s.readClear32 src R.mceTagcMiss)

/-- TCU_MISS_CNT_READ (06 R138). -/
def execTcuMissCntRead (src : Nat) (s : State) : Host.Outcome State Fault Refusal := .next (s.readClear32 src R.tcuMissCnt)

/-- FLD_ABANDON_READ (08 R164). -/
def execFldAbandonRead (src : Nat) (s : State) : Host.Outcome State Fault Refusal := .next (s.readClear32 src R.fldAbandon)

/-- PCM_HUSK_FAIL_READ (09 R201). -/
def execPcmHuskFailRead (src : Nat) (s : State) : Host.Outcome State Fault Refusal := .next (s.readClear32 src R.pcmHuskFail)

/-- PCM_FACTOR_UE_READ (09 R219). -/
def execPcmFactorUeRead (src : Nat) (s : State) : Host.Outcome State Fault Refusal := .next (s.readClear32 src R.pcmFactorUe)

/-- BWR_LATE_READ (11 R258). -/
def execBwrLateRead (src : Nat) (s : State) : Host.Outcome State Fault Refusal := .next (s.readClear32 src R.bwrLate)

/-- FPC_EVCNT_READ (13): both counts. -/
def execFpcEvcntRead (src : Nat) (s : State) : Host.Outcome State Fault Refusal := .next (s.readClear32 src R.fpcEvcnt)

/-- FPC_LNKCNT_READ (14 R314): both counts. -/
def execFpcLnkcntRead (src : Nat) (s : State) : Host.Outcome State Fault Refusal := .next (s.readClear32 src R.fpcLnkcnt)

/-- FPC_RETRY_READ (14 R310). -/
def execFpcRetryRead (src : Nat) (s : State) : Host.Outcome State Fault Refusal := .next (s.readClear32 src R.fpcRetry)

/-- FPC_ABORT_READ (14 R319, R320): both counts. -/
def execFpcAbortRead (src : Nat) (s : State) : Host.Outcome State Fault Refusal := .next (s.readClear32 src R.fpcAbort)

/-- VLT_REMASK_READ (15 R332). -/
def execVltRemaskRead (src : Nat) (s : State) : Host.Outcome State Fault Refusal := .next (s.readClear32 src R.vltRemask)

/-- VLT_TRNG_READ (15 R324). -/
def execVltTrngRead (src : Nat) (s : State) : Host.Outcome State Fault Refusal := .next (s.readClear src R.vltTrng 7 0)

/-- HFP_STALE_READ (17 R372): function `f`'s own count. -/
def execHfpStaleRead (f src : Nat) (s : State) : Host.Outcome State Fault Refusal :=
  if !s.readable src R.hfpStale || (f != pf0 && !s.exists f) then .next s
  else
    let s' := if f = pf0 then s.answerRead src R.hfpStale (s.pfView src R.hfpStale) else s.answerRead 0 (vfReg f V.hfpStale) (s.vfView f V.hfpStale)
    .next (if s.deepDown then s' else s'.modFn f (fun x => { x with stale := 0 }))

/-- MBX_DROP_READ (18 R397): function `f`'s own count. -/
def execMbxDropRead (f src : Nat) (s : State) : Host.Outcome State Fault Refusal :=
  if f = pf0 then .next (s.readClear32 src R.mbxDrop)
  else if !s.readable 0 R.mbxDrop || !s.exists f then .next s
  else
    let s' := s.answerRead 0 (vfReg f V.mbxDrop) (s.vfView f V.mbxDrop)
    .next (if s.deepDown then s' else s'.wr (vfReg f V.mbxDrop) 0)

/-- CCX_RESTARTS_READ (21 R461): the four counts. -/
def execCcxRestartsRead (src : Nat) (s : State) : Host.Outcome State Fault Refusal := .next (s.readClear32 src R.ccxRestarts)

/-- CCX_LOG_READ (21 R464): the write pointer and the drops, which clear. -/
def execCcxLogRead (src : Nat) (s : State) : Host.Outcome State Fault Refusal := .next (s.readClear src R.ccxLog 31 18)

/-- FLT_COUNT_READ (22 R479). -/
def execFltCountRead (src : Nat) (s : State) : Host.Outcome State Fault Refusal := .next (s.readClear32 src R.fltCount)

/-! ## Writing -/

/-- LLY_IRQ_EN written (26 R557): a bit that is written 1 while its cause is set, and was 0, sends its message. -/
def State.writeIrqEn (s : State) (v : Nat) : State :=
  let old := s.rd R.irqEn
  let rise := (List.range 16).filter (fun n => bit v n && !bit old n && bit (s.rd R.irqStat) n)
  let s := s.wr R.irqEn (v % 2 ^ 16)
  rise.foldl (fun s n => s.signal pf0 (s.fn pf0).gen (s.rf (R.irqVec + 4 * (n / 4)) (8 * (n % 4) + 4) (8 * (n % 4)))) s

/-- IRQ_EN_WRITE (26 R557): a write of LLY_IRQ_EN by source `src`. -/
def execIrqEnWrite (src v : Nat) (s : State) : Host.Outcome State Fault Refusal :=
  .next (s.gated src R.irqEn v (fun s => s.writeIrqEn v))

/-- The mask of a place's fields of one access type. -/
def accMask (a : Nat) (p : Acc → Bool) : Nat :=
  match rowAt a with
  | some r => ((r.fields.filter (fun f => p f.acc)).map (fun f => 2 ^ (f.hi + 1) - 2 ^ f.lo)).foldr (· + ·) 0
  | none => 0

/-- The largest of a register's value in effect and those staged in the two banks (10 R222, 12 R272), with `v` staged in the loading bank at `at'`. -/
def State.stagedMax (s : State) (a at' v m : Nat) : Nat :=
  let inBank := fun (b : Nat) => ((s.bank b).rws.find? (fun e => e.1 == a)).elim 0 (fun e => e.2 &&& m)
  let load := if a = at' then v &&& m else inBank s.chk.load
  max (s.rd a &&& m) (max load (inBank (1 - s.chk.load)))

/-- Whether a staged value is rejected with BAD_FIELD at staging (10 R222, 12 R272, R275, 13 the table of LLY_FPC_CFG). -/
def State.stageBad (s : State) (a v : Nat) : Bool :=
  if R.dpaQquota ≤ a && a < R.dpaQquota + 256 then
    4096 < lsum ((List.range 64).map (fun n => s.stagedMax (R.dpaQquota + 4 * n) a v 0x1FFF))
  else if R.tplCh ≤ a && a < R.tplCh + 448 then
    16384 < lsum ((List.range 112).map (fun n => s.stagedMax (R.tplCh + 4 * n) a v 0x7FFF))
  else if R.tplHgrant ≤ a && a < R.tplHgrant + 128 then
    let bad := fun (g : Nat) => decide (0x40 ≤ g) && g != 0xFF
    bad (bits v 7 0) || bad (bits v 15 8)
  else if R.fpcCfg ≤ a && a < R.fpcByp then v % 4 == 3
  else false

/-- A write of a register with nothing but plain fields (00 R10): RW fields take effect, RWS fields are staged, RWL fields are written before the PROD
transition, and each 1 clears its W1C bit. LLY_BWR_PRERES stages 21–31 as 20. -/
def State.writePlain (s : State) (a v : Nat) : State :=
  let rw := accMask a (fun x => x == Acc.rw || x == Acc.wo || (x == Acc.rwl && decide (s.lc.idx < 18) && !s.lc.lockdown))
  let w1c := accMask a (fun x => x == Acc.w1c)
  let old := s.rd a
  let rest := old - (old &&& (rw ||| (w1c &&& v)))
  let s := s.wr a (rest + (v &&& rw))
  if isRws a then
    let x := v &&& accMask a (fun x => x == Acc.rws)
    let x := if a = R.bwrPreres then min 20 x else x
    if s.stageBad a x then s else s.stageReg a x
  else s

/-- The effect of a write of all four bytes of a place of PF0's window. -/
def State.writePf (s : State) (src a v : Nat) : State :=
  if a = R.bndGtSel then s.selGrain src v
  else if a = R.mceKsel then s.selKey src v
  else if a = R.mceWsel then s.selWalk src v
  else if a = R.audSel then s.selSum src v
  else if a = R.evrSel then s.selRecord src v
  else if a = R.chkCommit then s.writeCommit v
  else if a = R.chkMode then s.writeChkMode v
  else if a = R.tcuInject then s.writeInject v
  else if a = R.fpcCtl then s.writeFpcCtl v
  else if a = R.lcCtrl then s.writeLcCtrl v
  else if a = R.mbxCfg then s.writeMbxCfg pf0 v
  else if a = R.mbxSqTail then s.writeSqTail pf0 v
  else if a = R.mbxCqHead then s.writeCqHead pf0 v
  else if a = R.mbxDctl then (if bit v 0 then s.writeGo else s)
  else if a = R.srcCtl then s.writeSrcCtl v
  else if a = R.irqEn then s.writeIrqEn v
  else if a = R.audStatus && s.mce.halted then s
  else s.writePlain a v

/-- The register blocks a control core may write (21 R453), by the components on it: CC0 the mailbox, LLY_CHK_COMMIT, LLY_CHK_AT and the lifecycle block,
CC1 dispatch and fold engine, CC2 the pod cache, CC3 the fault manager and the event recorder; and its own copy of every select register (26 R551). -/
def coreMayWrite (c a : Nat) : Bool :=
  let b := a / 4096
  selects.contains a || (match c with
    | 0 => b == 2 || a == R.chkCommit || a == R.chkAtLo || a == R.chkAtHi || (b == 0xF && a != R.lcState && a != R.lcResult)
    | 1 => b == 0xA || b == 8
    | 2 => b == 9
    | _ => b == 0x11 || b == 0x13)

/-- A write of a function's MSI-X table (17 R373): its address and data words are kept, and bit 0 of the last word masks the vector. -/
def State.writeMsix (s : State) (f e k v : Nat) : State :=
  if k = 3 then s.maskVector f e (bit v 0)
  else s.modFn f (fun x => { x with msixTbl := tset (dflt 0) x.msixTbl (4 * e + k) (v % 2 ^ 32) })

/-- A write to place `a` of PF0's window by source `src`, all bytes enabled (26 R549–R552). -/
def State.pfWrite (s : State) (src a v : Nat) : State :=
  if 2 ≤ src && !coreMayWrite (src - 2) a then s
  else if 0x800000 ≤ a && a < 0x800200 then s.gated src a v (fun s => s.writeMsix pf0 ((a - 0x800000) / 16) (a % 16 / 4) v)
  else if a = 0x801000 || a = 0x801004 then s
  else if (rowAt a).isNone then (if !s.readable src a || (src == 0 && s.deepDown) then s else s.accErr 1 src a)
  else s.gated src a v (fun s => s.writePf src a v)

/-- The effect of a write of all four bytes of a place of VF `f`'s window. -/
def State.writeVf (s : State) (f off v : Nat) : State :=
  let k := vfReg f off
  if off = V.mbxCfg then s.writeMbxCfg f v
  else if off = V.mbxSqTail then s.writeSqTail f v
  else if off = V.mbxCqHead then s.writeCqHead f v
  else if V.dpaDb ≤ off && off < V.dpaQsel then
    (if off % 8 = 0 then s.writeDoorbell f ((off - V.dpaDb) / 8) v else s.writeCqh f ((off - V.dpaCqh) / 8) v)
  else if off = V.dpaQsel then s.selQueue f v
  else if off = V.dpaQstat then
    (match s.presents f with
      | some n => if bit v 7 then (s.wf k 7 7 0).modQueue n (s.rd (vfReg f V.dpaQsel)) (fun x => { x with baddb := false }) else s
      | none => s)
  else s.writePlain k v

/-- A write to place `off` of VF `f`'s window, all bytes enabled (26 R550, R554). -/
def State.vfWrite (s : State) (f off v : Nat) : State :=
  if 0x20000 ≤ off && off < 0x20200 then s.gatedCfg 102 (2 ^ 20 + 2 ^ 10 * f + (off - 0x20000) / 4) v (fun s => if s.exists f then s.writeMsix f ((off - 0x20000) / 16) (off % 16 / 4) v else s)
  else if (findRow vfRegs off).isNone then s
  else s.gatedVf f off v (fun s => s.writeVf f off v)

/-- REGISTER_WRITE (26 R549–R554, 00 R10): source `src` (0 host, 1 debug port, 2–5 CC0–CC3) writes `v` with byte enables `be` to the register at offset `off` of
function `f`'s window (PF0's for the other sources). A write with fewer than four bytes enabled is dropped, in PF0's window with PARTIAL. -/
def execRegisterWrite (src f off be v : Nat) (s : State) : Host.Outcome State Fault Refusal :=
  let v := v % 2 ^ 32
  let off := off - off % 4
  if f = pf0 then
    let off := off % 2 ^ 24
    if be % 16 != 15 && (rowAt off).isSome then
      .next (if !s.readable src off || (2 ≤ src && !coreMayWrite (src - 2) off) || (src == 0 && s.deepDown) then s else s.accErr 0 src off)
    else .next (s.pfWrite src off v)
  else if src != 0 || 64 ≤ f || be % 16 != 15 then .next s
  else .next (s.vfWrite f (off % 2 ^ 18) v)

/-! ## The end of a wake (23 R510) -/

/-- A write held in DEEP applied: source codes from 100 are those of `State.gatedCfg`. -/
def State.applyHeld (s : State) (h : Nat × Nat × Nat) : State :=
  let (src, a, v) := h
  match src with
  | 100 => s.setVfs (a != 0) v
  | 101 => s.writeConfig (a / 4) (a % 4) v
  | 102 =>
    if 2 ^ 20 ≤ a then s.writeMsix (a / 2 ^ 10 % 2 ^ 10) (a % 2 ^ 10 / 4) (a % 4) v
    else s.maskVector (a / 32) (a % 32) (v != 0)
  | 103 => s.flr a
  | 104 => s.pf0Flr
  | _ => if a < 2 ^ 24 then s.pfWrite src a v else s.vfWrite (a / 2 ^ 24 - 1) (a % 2 ^ 24) v

/-- WAKE_DONE (R510): the wake ends `periods` timekeeper periods after the count stopped, with `wake` ticks counted since it resumed; the host writes held are applied in
their order of arrival. -/
def execWakeDone (periods wake : Nat) (s : State) : Host.Outcome State Fault Refusal :=
  if s.src.deep != 3 then .next s
  else
    let held := s.src.held
    let s := s.wakeDone periods wake
    let s := { s with src := { s.src with held := [] } }
    .next (held.foldl (fun s h => s.applyHeld h) s).pumpHost

/-! ## Debug port (25 R547) -/

/-- A DDP frame's result: its OP and ADDR echoed above DATA and STATUS (0 OK, 1 busy, 2 closed by lifecycle, 3 error). -/
def State.ddpResult (s : State) (op addr data st : Nat) : State :=
  { s with pins := { s.pins with ddp := op % 4 * 2 ^ 70 + addr % 2 ^ 30 * 2 ^ 40 + data % 2 ^ 32 * 2 ^ 8 + st } }.emit .tap [op, addr, data, st] []

/-- A frame is taken only while DDP_ACCESS is loaded (25 R546). Capture-DR returns the result of the previous frame. -/
def State.ddpFrame (s : State) (f : State → State) : State :=
  if s.pins.tapInstr != 0x10 || s.pins.porst || !s.pins.vddLly then s
  else f (s.emit .tap [0x10, s.pins.ddp] [])

/-- DDP_STATUS (R547): OP 0. -/
def execDdpStatus (s : State) : Host.Outcome State Fault Refusal :=
  .next (s.ddpFrame (fun s => s.ddpResult 0 0 0 (if s.debugOpen then 0 else 2)))

/-- DDP_READ (R547): OP 1, a read of PF0's window at `a`. Read effects take place as in every read (26 R549). -/
def execDdpRead (a : Nat) (s : State) : Host.Outcome State Fault Refusal :=
  let a := a % 2 ^ 24
  .next (s.ddpFrame (fun s =>
    if !s.ddpMay a then s.ddpResult 1 a 0 2
    else if a % 4 != 0 || !s.readable 1 a then s.ddpResult 1 a 0 3
    else
      let v := s.pfView 1 a
      let s := if a = R.spnTickLo then s.wr (srcReg 1 R.spnTickHi) (s.spn.tick / 2 ^ 32)
        else if !s.answers a then s
        else if a = R.chkTickLo then s.wr (srcReg 1 R.chkTickHi) (s.chk.lastTick / 2 ^ 32)
        else if a = R.hfpStale then s.modFn pf0 (fun x => { x with stale := 0 })
        else
          let rc := accMask a (fun x => x == Acc.rc)
          if rc = 0 || s.deepDown then s else s.wr a (s.rd a - (s.rd a &&& rc))
      s.ddpResult 1 a v 0))

/-- DDP_WRITE (R547): OP 2, a write of `v` to PF0's window at `a`. In SCRAP and LOCKDOWN the lifecycle registers are read-only (16 R364). -/
def execDdpWrite (a v : Nat) (s : State) : Host.Outcome State Fault Refusal :=
  let a := a % 2 ^ 24
  .next (s.ddpFrame (fun s =>
    if !s.ddpMay a || (a / 4096 == 0xF && (s.lcCode == 0x14 || s.lcCode == 0xFF)) then s.ddpResult 2 a v 2
    else if a % 4 != 0 || !s.readable 1 a then s.ddpResult 2 a v 3
    else (s.pfWrite 1 a (v % 2 ^ 32)).ddpResult 2 a v 0))

/-- A core's STATUS as the debug port reads it: 1 while halted by debug. The other registers are plain data of the core. -/
def State.dbgRead (s : State) (c r : Nat) : Nat :=
  if r = 1 then flag ((s.core c).st == .halted) 0 else tget (dflt 0) (s.core c).dbg r

/-- DDP_CORE_DEBUG (R547): OP 3, register `r` of core `c`, written with `v` where `wr` holds, otherwise read. CTRL halts, steps or resumes; a write of LDST_CMD has the
halted core load or store at LDST_ADDR with tag 0xFF (05 R124). -/
def execDdpCoreDebug (c r : Nat) (wr : Bool) (v : Nat) (s : State) : Host.Outcome State Fault Refusal :=
  let c := c % 4
  let r := r % 64
  let v := v % 2 ^ 32
  let addr := 2 ^ 28 * c + r
  let known := decide (r ≤ 5) || (decide (16 ≤ r) && decide (r ≤ 47))
  .next (s.ddpFrame (fun s =>
    if !s.debugOpen then s.ddpResult 3 addr v 2
    else if !known || s.inReset then s.ddpResult 3 addr v 3
    else if !wr then s.ddpResult 3 addr (s.dbgRead c r) 0
    else
      let st := (s.core c).st
      if r = 0 then
        let s := if bit v 0 && st == .running then s.modCore c (fun x => { x with st := .halted })
          else if bit v 2 && st == .halted then s.modCore c (fun x => { x with st := .running, since := s.spn.tick }) else s
        s.ddpResult 3 addr v 0
      else if st != .halted then s.ddpResult 3 addr v 3
      else if r = 1 then s.ddpResult 3 addr v 0
      else
        let s := s.modCore c (fun x => { x with dbg := tset (dflt 0) x.dbg r v })
        let at' := tget (dflt 0) (s.core c).dbg 3
        let d := leBytes 4 (tget (dflt 0) (s.core c).dbg 4)
        let s := if r = 5 && (v = 1 || v = 2) && !s.mce.fenced then
          s.enterRequest (coreReq c) .cc 0xFF c 0 (at' - at' % 4) 4 (v == 2) 15 (if v = 2 then d else []) (s.now 0) else s
        s.ddpResult 3 addr v 0))

end Sys2Proof.Machine
end

