-- ==== Sys2Proof/Machine/Spindle.lean ====
section
/-! DEFINITION. The Spindle (02): the order in which the events of one stamp are decided, what each decision is and does, the security halt, the tick, the epoch
boundary and the alignment of counts across packages. -/

namespace Sys2Proof.Machine

/-! ## Security halt (05 R114, 02 R40) -/

/-- Every key-table entry and every working key of the vault is zeroised, link keys included; K_M is kept (05 R114, 15 R346). -/
def State.zeroiseAll (s : State) : State :=
  { s with mce := { s.mce with keys := tmap (dflt KeyE.init) s.mce.keys (fun _ e => e.dead) },
           pcm := { s.pcm with roots := [] },
           vlt := { s.vlt with st := 4, secrets := [], chalAt := [], cdi0 := [], cdi1 := [], cdi2 := [], binding := none } }

/-- The security halt at its effective tick (05 R114, 12 R280, 13 R301, 15 R342, 17 R380, 24 R516). One halt decides all: a later one finds the device
halted. -/
def State.haltEffect (s : State) (stamp source port tag grain line : Nat) : State :=
  if s.mce.halted then s
  else
    let s := ((s.wr R.mceHaltCause (source + 256 * (port % 256) + 65536 * (tag % 256))).wr R.mceHaltGrain grain).wr R.mceHaltLine line
    let sums := s.auditSums
    let cmds := s.vlt.reqs.map VReq.cmd ++ s.vlt.chals.map Chal.cmd ++ s.vlt.binding.toList.map Bind.cmd
    let s := cmds.foldl (fun s c => s.finish c Status.halted 0 []) s
    let ended : SpdmConn → SpdmConn := fun c => { c with sess := [] }
    let s := { s with
      mce := { s.mce with halted := true, fenced := true, haltSums := sums, tagc := [], reqs := [] }
      vlt := { s.vlt with reqs := [], chals := [], conns := tmap (dflt SpdmConn.init) s.vlt.conns (fun _ c => ended c) }
      pins := { s.pins with haltN := false } }
    let s := (s.zeroiseAll.closeFabric 8).tdispErrors
    s.offer 1 0x20 stamp 0xFF source 0 [port % 256 + 2 ^ 8 * (tag % 256) + 2 ^ 16 * grain + 2 ^ 40 * line]

/-! ## Order within a stamp (R34, R35, R467) -/

/-- A slice's place in the rotating order that starts at slice `rot`; events that name no slice come first (R35). -/
def slicePlace (rot : Nat) (sl : Option Nat) : Nat :=
  match sl with
  | some n => if n < 64 then 1 + (n + 64 - rot) % 64 else 0
  | none => 0

/-- What stands before the slice order in a class: block before slice before core restart (R34), and BLOCK faults before DOMAIN faults (22 R467). -/
def evRank (b : EvBody) : Nat :=
  match b with
  | .blockReset _ => 0
  | .fault e => if e.scope = 5 then 0 else 1
  | .coreRestart _ _ => 2
  | _ => 1

/-- What stands behind the slice order in a class (R34): KeyIDs ascending, claims by priority, sequence and slot, pre-emption requests by queue priority and
number, doorbells by queue number; for the rest the source number (R35). -/
def State.evTail (s : State) (e : Ev) : List Nat :=
  match e.body with
  | .supply k _ => [k]
  | .keyRetire k => [k]
  | .claim _ _ _ slot _ prio seq _ => [prio, seq, slot]
  | .preempt sl q _ => [(s.queue sl q).elim 4 Queue.prio, q]
  | .saveTask sl q _ => [(s.queue sl q).elim 4 Queue.prio, q]
  | .queueOp sl q _ _ _ => if e.cls = 10 then [(s.queue sl q).elim 4 Queue.prio, q] else [e.src]
  | .doorbell _ q _ => [e.src, q]
  | _ => [e.src]

/-- The whole key of an event in the order of decision. -/
def State.evKey (s : State) (rot : Nat) (e : Ev) : List Nat := [e.cls, evRank e.body, slicePlace rot e.sl] ++ s.evTail e

/-- The key of a flag of `l`, the details behind the flags: it is one event of its source and class that names no slice, and stands as the first of its
details would (R33, R35; log 11). -/
def flagKey (l : List Ev) (e : Ev) : List Nat :=
  [e.cls, ((l.filter (fun x => x.cls == e.cls && x.src == e.src)).map (fun x => evRank x.body)).foldl min 2, 0, e.src]

/-- The flags of the details `l`: a source and class each (R33). -/
def flagsOf (l : List Ev) : List Nat := uniq (l.map (fun e => 32 * e.src + e.cls))

/-- Events, and the details `flagged` behind flags, in the order in which they are decided; equal keys keep the order in which they were raised (R32). -/
def State.evSort (s : State) (rot : Nat) (l flagged : List Ev) : List Ev :=
  (sortBy (fun a b => keyLe a.1 b.1) (l.map (fun e => (s.evKey rot e, e)) ++ flagged.map (fun e => (flagKey flagged e, e)))).map Prod.snd

/-! ## Alignment state (R43) -/

/-- The alignment state changes (26 R556). -/
def State.setAlign (s : State) (a : AlignSt) : State :=
  if s.spn.align == a then s
  else ({ s with spn := { s.spn with align := a, goodRun := 0, stepped := false } }).irq 6

/-- Settings of LLY_SPN_ALIGN_CFG that a commit has changed take effect (R41, R43). The timing root measures no offset; it counts as ALIGNED. -/
def State.syncAlign (s old : State) : State :=
  let cfg := s.rd R.spnAlignCfg
  let fresh := { s with spn := { s.spn with offset := 0, slew := 0, reqOut := false, lastGood := s.spn.tick } }
  if !bit cfg 0 || (!s.alignRoot && s.parentPort.isNone) then (if s.spn.align == .unaligned then s else fresh.setAlign .unaligned)
  else if s.alignRoot then (if old.alignRoot then s else fresh.setAlign .aligned)
  else if s.spn.align == .unaligned || old.alignRoot then fresh.setAlign .acquiring
  else s

/-! ## What a decided event does at its effective tick (R36) -/

/-- Ports whose holders, shares or minimums differ between two states (14 R308). -/
def State.portsChanged (s old : State) : List Nat :=
  let shares := fun (x : State) (p : Nat) =>
    ((x.slices.filter (fun d => bit d.fabMask p)).map (fun d => (d.slice, d.fsliceId, d.fabRes)), (List.range 8).map (fun v => x.chMin (8 * p + v)))
  (List.range 8).filter (fun p => shares s p != shares old p)

/-- A commit takes effect (04 R88) where its bank still stands decided, with CREDIT flits of the ports it changes (14 R308) and the alignment settings. -/
def State.commitEvent (s : State) (b stamp : Nat) : State :=
  if (s.bank b).st != .deciding then s
  else
    let t := (s.commitEffect b (stamp + 2) stamp).syncAlign s
    (t.portsChanged s).foldl (fun t p =>
      let t := (List.range (t.nLinks p)).foldl (fun t l =>
        if (t.link p l).st.carries then
          (t.fabHolders p).foldl (fun t h => (List.range 8).foldl (fun t v => t.creditTx p l v h id) t) t
        else t) t
      t.sendPortCredits p) t

/-- A commit that failed in its stamp (04 R87): a record, and the failure of the command. -/
def State.commitRefused (s : State) (b stamp : Nat) (f : CheckFail) : State :=
  if (s.bank b).st != .deciding then s else (s.offer 5 3 stamp f.slice f.num f.status []).failCommit b .loading f

/-- A decided LEAVE: how many grains it frees, those, and behind them the grains it no longer found its slice's, each with a record (03 R56). -/
def State.leaveDecided (s : State) (n q entry stamp : Nat) (d : List Byte) (nums : List Nat) : State :=
  let k := nums.headD 0
  ((nums.tail.drop k).foldl (fun s g => s.offer 6 4 stamp n 0 0 [g]) s).leaveEffect n q entry d (nums.tail.take k)

/-- A KeyID whose retirement is complete is FREE, its walk gone (05 R121). -/
def State.keyRetired (s : State) (k : Nat) : State :=
  if (s.key k).st != .retiring then s
  else
    let upd : KeyE → KeyE := fun e => { e.dead with st := .free, owner := 0 }
    let keep : Nat → Option Walk → Option Walk := fun _ w => match w with | some x => if x.old = k then none else some x | none => none
    let s := s.modKey k upd
    { s with mce := { s.mce with walks := tmap (dflt none) s.mce.walks keep } }

/-- A grain's scrubber transition (03 R56), where the grain is still in the state it leaves. -/
def State.scrubStep (s : State) (g : Nat) (src : GState) (dst : GrainE → GrainE) : State :=
  if (s.grain g).st == src then s.modGrain g dst else s

/-- The effect of a decided event, with the numbers of its decision. -/
def State.applyEvent (s : State) (e : Eff) : State :=
  let t := e.stamp
  match e.ev.body with
  | .secHalt source port tag grain line => s.haltEffect t source port tag grain line
  | .supply k _ => s.supplyEffect t k
  | .fault f => s.faultEffect t f
  | .linePoison g line port cause => s.linePoisonEffect t g line port cause
  | .grainPoison first count _ => s.poisonGrains (((List.range count).map (· + first)).filter (fun g => decide (g < nGrains))) s.spn.tick
  | .abortIn fslice x hops kind origin _ => (match s.fabSlice fslice with
      | some d => s.abortEffect d.slice t x hops kind origin
      | none => s)
  | .abortOut n x kind => s.abortSend n x kind
  | .portDown p l reason => s.portDownEffect t p l reason
  | .portDegrade p l lanes => s.portDegradeEffect t p l lanes
  | .blockReset _ => s.blockEffect t
  | .sliceReset n cause cmd => s.sliceResetEffect n cause t cmd
  | .coreRestart core why => s.restartEffect core why t
  | .genAdvance fns => s.advanceGens fns false
  | .commit b => (match e.nums with
      | num :: status :: sl :: g :: _ => s.commitRefused b t ⟨num, status, sl, g⟩
      | _ => s.commitEvent b t)
  | .leave n q entry d => s.leaveDecided n q entry t d e.nums
  | .giveBack n q entry gs => s.giveBackEffect n q entry gs
  | .scrubStart g => (s.scrubFrom g).scrubStep g .dirty (fun x => { x with st := .scrubbing })
  | .scrubDone g => (s.scrubFrom g).scrubStep g .scrubbing (fun _ => GrainE.blank)
  | .scrubBad g => if (s.grain g).st == .scrubbing then (s.scrubFrom g).poisonGrains [g] s.spn.tick else s
  | .release n expert layer slot _ cmd => s.releaseEffect n expert layer slot cmd
  | .keyRetire k => s.keyRetired k
  | .join _ _ _ => s
  | .decideJoins n => s.joinEffect n t (unpackJoins e.nums.length e.nums)
  | .pod n h what args cmd => s.podApply n h what args cmd
  | .queueOp n q what args cmd => s.queueEffect n q what args cmd
  | .claim n expert layer slot h _ _ cmd => s.claimEffect n expert layer slot h cmd
  | .preempt n q entry => s.preemptEffect n q entry e.nums
  | .saveTask n q entry => s.saveTaskEffect n q entry
  | .doorbell n q count => (match e.nums with
      | _ :: 2 :: _ => s.doorbellSubmit n q count
      | got :: 1 :: _ => s.doorbellEffect n q count got
      | got :: _ => (s.doorbellSubmit n q count).doorbellEffect n q count got
      | [] => s.modQueue n q (fun x => { x with baddb := true }))
  | .lease f what => s.leaseEnd f what t
  | .mbTail f tail => (s.chalTaken f t).tailEffect f tail t
  | .mbGo c => s.goEffect c t
  | .mbCmd f what args cmd => s.sessionEffect f what args cmd t
  | .epoch _ => s
  | .recFreeze cmd => s.freezeEffect t cmd
  | .recThaw cmd => s.thawEffect t cmd
  | .recClear cmd => s.clearEffect cmd

/-- The events in the queues of the sources, and behind their flags and full queues. -/
def State.raised (s : State) : List Ev := s.spn.queue ++ s.spn.merged ++ s.spn.backlog

/-- The same state with nothing waiting to be sampled. -/
def State.sampled (s : State) : State := { s with spn := { s.spn with queue := [], merged := [], backlog := [] } }

/-- An outcome applied: it no longer waits, and an event that arose from it in its decision is not raised again (R558). -/
def State.applyEff (s : State) (e : Eff) : State :=
  let t := { s with spn := { s.spn with effs := s.spn.effs.erase e } }.applyEvent e
  let fresh := fun (old new : List Ev) => new.take old.length ++ (new.drop old.length).filter (fun x => !e.raised.contains x)
  { t with spn := { t.spn with
      queue := fresh s.spn.queue t.spn.queue, merged := fresh s.spn.merged t.spn.merged, backlog := fresh s.spn.backlog t.spn.backlog } }

/-- Whether an outcome is an epoch boundary's, which takes effect by a command of its own. -/
def Eff.isEpoch (e : Eff) : Bool := match e.ev.body with | .epoch _ => true | _ => false

/-- EFFECTIVE_TICK (R36): the outcomes whose effective tick has come are applied in the order of their decision. A halted device stays zeroised. -/
def State.applyDue (s : State) : State :=
  let s := (s.spn.effs.filter (fun e => !e.isEpoch && decide (e.due ≤ s.spn.tick))).foldl (fun s e => s.applyEff e) s
  if s.mce.halted then s.zeroiseAll else s

/-! ## Deciding a stamp (R34–R40, R558) -/

/-- A stamp being decided: the block itself, a copy of it with every outcome decided so far applied, the copy as it stood before the stamp, the slices
whose admission queues are to be decided in class 8 (10 R244), and the ports that an event of class 3 has struck (R37). -/
structure Deciding where
  real : State
  sh : State
  base : State
  joins : List Nat
  ports : List Nat
deriving DecidableEq, Repr

/-- An event decided at stamp `t` with its numbers: its outcome waits for its effective tick `due`, the copy shows it to the events behind it, and the events that
arise from it are placed for stamp t + 1 (R36, R558). -/
def Deciding.pushAt (p : Deciding) (t due : Nat) (e : Ev) (nums : List Nat) : Deciding :=
  let sh := p.sh.applyEvent ⟨t, due, e, nums, []⟩
  let new := sh.raised
  let real := { p.real with spn := { p.real.spn with effs := p.real.spn.effs ++ [⟨t, due, e, nums, new⟩] } }
  { p with sh := sh.sampled, real := new.foldl (fun s x => s.raise x) real }

/-- The same with the effective tick of R36. -/
def Deciding.push (p : Deciding) (t : Nat) (e : Ev) (nums : List Nat) : Deciding := p.pushAt t (t + 2) e nums

/-- An outcome that is shown to no later event of its stamp. -/
def Deciding.later (p : Deciding) (t due : Nat) (e : Ev) (nums : List Nat) : Deciding :=
  { p with real := { p.real with spn := { p.real.spn with effs := p.real.spn.effs ++ [⟨t, due, e, nums, []⟩] } } }

/-- ABORT_ORIGIN (14 R318): a class 3 or 4 event of slice `n` decided at stamp `t` on a package that hosts it with others; the flits leave from the tick after. -/
def Deciding.origin (p : Deciding) (t n kind : Nat) : Deciding :=
  if p.sh.mayOriginate n then p.pushAt t (t + 1) ⟨3, some n, Sub.flt, .abortOut n (t + 64) kind⟩ [] else p

/-- The slices an event of class 3 or 4 contains or resets, with the kind an ABORT carries. -/
def Deciding.struck (p : Deciding) (b : EvBody) : List (Nat × Nat) :=
  match b with
  | .fault f => if f.scope = 2 || f.scope = 3 then (p.sh.concerned f).map (fun n => (n, f.kind)) else []
  | .portDown port _ _ => (p.sh.listing (12 + port % 8)).map (fun n => (n, 0x22))
  | .sliceReset n _ _ => [(n, 0)]
  | _ => []

/-- The failure of a commit by R37: a port it touches was struck, or a grain it names became POISON, in its own stamp. -/
def Deciding.struckNow (p : Deciding) (k : Bank) : Option CheckFail :=
  orElse' (((p.sh.portsOf k).find? (fun x => p.ports.contains x)).map (fun _ => ⟨1, Status.faulted, 0, 0⟩)) <|
  (k.allNamed.find? (fun g => (p.sh.grain g).st == .poison && (p.base.grain g).st != .poison)).map
    (fun g => ⟨1, Status.faulted, (if (p.base.grain g).owner < 64 then (p.base.grain g).owner else 0), g⟩)

/-- COMMIT_DECIDE (04 R87): the checks are run again; the commit passes, or fails whole at its stamp. -/
def Deciding.commit (p : Deciding) (t b : Nat) (e : Ev) : Deciding :=
  let k := p.sh.bank b
  if k.st != .deciding then p
  else match orElse' (p.struckNow k) (p.sh.checkBank k true) with
    | none => { p.push t e [] with joins := p.joins ++ k.slicesIn }
    | some f => p.push t e [f.num, f.status, f.slice, f.grain]

/-- A LEAVE decided (10 R245); each free that a commit of the stamp has taken is recorded (03 R56). -/
def Deciding.leave (p : Deciding) (t n : Nat) (d : List Byte) (e : Ev) : Deciding :=
  let gs := p.sh.leaveGrains n d
  let taken := (p.base.leaveGrains n d).filter (fun g => !gs.contains g)
  p.push t e (gs.length :: (gs ++ taken))

/-- A block reset request in its stamp (22 R490): its effective tick is t + 2, or t + 64 on a package with a multi-package slice, for each of which the package is
an abort origin. -/
def Deciding.blockReset (p : Deciding) (t kind : Nat) (e : Ev) : Deciding :=
  let multi := (p.sh.slices.filter (fun d => d.fabMask != 0)).map SliceDef.slice
  if multi.isEmpty then p.push t e []
  else
    multi.foldl (fun p n => p.origin t n kind) (p.later t (t + 64) e [])

/-- STAMP_DECISION (R34): one event decided against the state left by those before it. -/
def Deciding.decide (p : Deciding) (t : Nat) (e : Ev) : Deciding :=
  match e.body with
  | .secHalt _ _ _ _ _ => if p.sh.mce.halted then p else p.push t e []
  | .blockReset kind => p.blockReset t kind e
  | .commit b => p.commit t b e
  | .leave n _ _ d => p.leave t n d e
  | .join n _ _ => { p with joins := p.joins ++ [n] }
  | .decideJoins n => p.push t e (packJoins (joinDecision (p.sh.admQueue n) (p.sh.freePriv n)))
  | .preempt n q entry => p.push t e (p.sh.victimFor n q entry)
  | .doorbell n q count => (match p.sh.queue n q with
      | none => p
      | some x => if x.dying then p else p.push t e (p.sh.doorbellGrant n q count).toList)
  | .epoch n =>
    let h := p.real.epochHeat n
    { p with real := { p.real with src := { p.real.src with dies := [] } } }.later t (t + 2) e [h.1, h.2.1, h.2.2.1, if h.2.2.2 then 1 else 0]
  | .portDown port _ _ => { ((p.struck e.body).foldl (fun p x => p.origin t x.1 x.2) p).push t e [] with ports := p.ports ++ [port % 8] }
  | .fault _ | .sliceReset _ _ _ => ((p.struck e.body).foldl (fun p x => p.origin t x.1 x.2) p).push t e []
  | _ => p.push t e []

/-- An event of class 11 or 12 taken from those carried over: a doorbell already counted as submitted is only admitted (R39). -/
def Deciding.carriedOn (p : Deciding) (t : Nat) (x : Bool × Ev) : Deciding :=
  match x.1, x.2.body with
  | true, .doorbell n q count => p.push t x.2 [(p.sh.doorbellGrant n q count).getD 0, 1]
  | _, _ => p.decide t x.2

/-- Whether an event that the limit of R39 leaves undecided is to be counted as submitted at this stamp: a doorbell that a live queue takes. -/
def Deciding.counts (p : Deciding) (x : Bool × Ev) : Bool :=
  match x.2.body with
  | .doorbell n q count => !x.1 && (p.sh.doorbellGrant n q count).isSome
  | _ => false

/-- An event carried to the next stamp (R39). -/
def Deciding.carry (p : Deciding) (t : Nat) (x : Bool × Ev) : Deciding := if p.counts x then p.push t x.2 [0, 2] else p

/-- The block reset that the BLOCK faults of a stamp bring about in class 4 of the same stamp (22 R490, R558). -/
def State.blockWanted (s : State) (l : List Ev) : List Ev :=
  let again := s.spn.effs.any (fun e => match e.ev.body with | .blockReset _ => true | _ => false)
  if s.flt.block != 0 || again then []
  else ((l.filterMap (fun e => match e.body with | .fault f => if f.scope = 5 then some f.kind else none | _ => none)).head?).toList.map
    (fun k => ⟨4, none, Sub.flt, .blockReset k⟩)

/-- The commits held for stamp `t` (04 R95): a bank whose drain has ended is decided; one still draining at or beyond its stamp misses it. -/
def State.namedBanks (s : State) (t : Nat) : List Nat × List Nat :=
  let due := [0, 1].filter (fun b => let k := s.bank b; k.st.armed && k.st != .deciding && k.named != 0 && decide (k.named ≤ t))
  let ok := fun (b : Nat) => let k := s.bank b; k.drain == .held && k.named == t
  (due.filter ok, due.filter (fun b => !ok b))

/-- The slices for which an event frees or allocates (R38): those of classes 6 and 8. -/
def freeing (l : List Ev) : List Nat := l.filterMap (fun e => if e.cls = 6 || e.cls = 8 then e.sl.filter (fun n => decide (n < 64)) else none)

/-- Every event of stamp `t` decided (R34–R39): classes 1 to 7, then the admission queues and the rest of class 8, then the classes behind; `flagged` are the
details behind overflow flags. Beyond 1,024 the events of classes 11 and 12 are carried over, ahead of newer ones. -/
def State.decideStamp (s : State) (t : Nat) (events flagged : List Ev) (carried : List (Bool × Ev)) : State :=
  let rot := t % 64
  let sh := { s.sampled with spn := { s.sampled.spn with tick := t + 1 } }
  let sh := (s.spn.effs.filter (fun e => !e.isEpoch && decide (e.due ≤ t + 2))).foldl (fun x e => x.applyEff e) sh
  let sh := { sh.sampled with spn := { sh.sampled.spn with tick := t + 2, effs := [] } }
  let events := events ++ s.blockWanted (events ++ flagged)
  let of := fun (lo hi : Nat) =>
    let within := fun (e : Ev) => decide (lo ≤ e.cls) && decide (e.cls ≤ hi)
    s.evSort rot (events.filter within) (flagged.filter within)
  let p : Deciding := ⟨s, sh, sh, [], []⟩
  let p := (of 1 7).foldl (fun p e => p.decide t e) p
  let isJoin := fun (e : Ev) => match e.body with | .join _ _ _ => true | _ => false
  let joins : List Ev := (uniq (p.joins ++ freeing events)).filterMap (fun n =>
    if (p.sh.admQueue n).isEmpty then none else some ⟨8, some n, Sub.dpa, .decideJoins n⟩)
  let p := (s.evSort rot (events.filter (fun e => e.cls == 8 && !isJoin e) ++ joins) []).foldl (fun p e => p.decide t e) p
  let p := (of 9 10).foldl (fun p e => p.decide t e) p
  let before := (events.filter (fun e => decide (e.cls ≤ 10))).length + (flagsOf flagged).length
  let fresh := fun (c : Nat) => (of c c).map (fun e => (false, e))
  let last := carried.filter (fun x => x.2.cls == 11) ++ fresh 11 ++ carried.filter (fun x => x.2.cls == 12) ++ fresh 12
  let p := (last.take (1024 - before)).foldl (fun p x => p.carriedOn t x) p
  let rest := last.drop (1024 - before)
  let kept := rest.map (fun x => (x.1 || p.counts x, x.2))
  let p := rest.foldl (fun p x => p.carry t x) p
  let s := { p.real with spn := { p.real.spn with carried := kept, rot := rot } }
  if rest.isEmpty then s else s.bump R.spnDefer rest.length

/-- The sampling edge of tick `t` (R31, R33): everything queued or flagged is stamped, with the epoch boundary of every 4,000th tick (11 R262) and a commit held for
this stamp; sources that waited for an entry place their events. From a halt's effective tick on, events other than class 2 are discarded and counted (R40). -/
def State.sampleTick (s : State) : State :=
  let t := s.spn.tick
  let named := if s.mce.halted then ([], []) else s.namedBanks t
  let held := named.1.map (fun b => (⟨5, none, Sub.chk, .commit b⟩ : Ev))
  let epochEv := if t % 4000 = 0 then [(⟨12, none, Sub.bwr, .epoch (t / 4000)⟩ : Ev)] else []
  let events := s.spn.queue ++ held ++ epochEv
  let flagged := s.spn.merged
  let carried := s.spn.carried
  let waits := s.spn.backlog
  let s := { s.sampled with spn := { s.sampled.spn with carried := [] } }
  let s := waits.foldl (fun s e => s.raise e) s
  if s.mce.halted then
    let two := fun (e : Ev) => e.cls == 2
    let lost := (events.filter (fun e => !two e)).length + (flagsOf (flagged.filter (fun e => !two e))).length + carried.length
    (s.bump R.spnHaltdrop lost).decideStamp t (events.filter two) (flagged.filter two) []
  else
    let s := named.1.foldl (fun s b => s.setBank b { s.bank b with st := .deciding, drain := .raised }) s
    let s := named.2.foldl (fun s b => s.commitMiss b) s
    s.decideStamp t events flagged carried

/-! ## The tick (R29) -/

/-- AUDIT and GRAIN_AUDIT (12 R278, R280, 03 R55): an identity newly failed sets its bit, with a block-level fault; that of the lifecycle tokens makes the effective
state LOCKDOWN, with the security halt. -/
def State.audit (s : State) : State :=
  let old := s.rf R.audStatus 7 0
  let fails := s.auditFails
  let new := fails - (fails &&& old)
  let s := if new = 0 then s else
    ((s.wf R.audStatus 7 0 (old ||| fails)).irq 4).raiseFault Sub.flt none (FaultEv.base 0x40 5 [])
  if s.tokenBad && s.src.otpSensed && !bit old 6 then
    let s := (s.wf R.audStatus 6 6 1).irq 4
    ({ s with lc := { s.lc with lockdown := true }, mce := { s.mce with fenced := true } }).raise ⟨1, none, Sub.vlt, .secHalt 4 0 0 0 0⟩
  else s

/-- SLEW (R41): a tick of 31 cycles catches up, one of 33 falls back, by 8 ns, at most one in 64. -/
def State.slewTick (s : State) : State :=
  let t := s.spn.tick
  if s.spn.align == .unaligned || t < s.spn.lastSlew + 64 then s
  else if 32 ≤ s.spn.slew then
    ({ s with spn := { s.spn with slew := s.spn.slew - 32, offset := s.spn.offset - 32, lastSlew := t } }).emit .align [2, t, 31] []
  else if s.spn.slew ≤ -32 then
    ({ s with spn := { s.spn with slew := s.spn.slew + 32, offset := s.spn.offset + 32, lastSlew := t } }).emit .align [2, t, 33] []
  else s

/-- What moves by itself in a tick: the scrubber (03 R92), the walks (05 R119), the fold units (08 R163), husk bytes (09 R203) and DMA lines (10 R231); the
transfers rest from the entry into DEEP to its end (23 R509). -/
def State.moveData (s : State) : State :=
  let s := s.scrubTick.walkTick.foldTick
  if s.src.deep = 0 then s.huskTick.dmaTick else s

/-- What every subsystem does of itself in a tick: buckets fill, waits count, host grants are divided, a signing slot that ends delivers, an image bind, the bypasses
and the fabric's answers go on. -/
def State.tickWork (s : State) : State :=
  if s.mce.halted then s.pumpHost
  else
    let s := if s.flt.block = 0 then (s.audit.fillTokens.noteWaits).moveData else s.audit
    (((if s.src.deep = 0 then s.dmaBudgets else s).pumpHost.endSlot).pumpBind.pumpBypass.fabTick).slewTick

/-- The count goes on (R29): it stands at 0 at the first tick after a cold reset, and rises by one at every other. -/
def State.countTick (s : State) : State :=
  { s with spn := { s.spn with counting := true, tick := if s.spn.counting then s.spn.tick + 1 else s.spn.tick } }

/-- The count of a tick, with a START record at the first one after a reset (24 R516). -/
def State.firstTick (s : State) : State :=
  let s := s.countTick
  if s.spn.started then s
  else ({ s with spn := { s.spn with started := true } }).offer 0 1 s.spn.tick 0xFF (s.rf R.srcCause 2 0) 0 [s.lcCode]

/-- No tick is produced: in a cold reset, without the secure domain's supply, and in DEEP (R29, R44, R45). -/
def State.noTick (s : State) : Bool :=
  s.pins.porst || (!s.pins.vddSec && !s.pins.vbak) || s.deepDown

/-- TICK (R29): the count advances; outcomes decided two ticks ago take effect (R36), and every event waiting is stamped and decided. In a warm reset or supply hold the
count alone goes on (R44). -/
def execTick (s : State) : Host.Outcome State Fault Refusal :=
  if s.noTick then .next s
  else if s.inReset then .next s.countTick
  else .next s.firstTick.sendMsix.applyDue.sampleTick.tickWork

/-! ## The epoch boundary (11 R262, 23 R503–R505) -/

/-- What an epoch boundary does at its effective tick: the closing epoch's reports, the lending of the new one, the cap level and the power cap; supply warnings and
trips that have ended are cleared, or a trip that lasts begins supply hold; one port is admitted (13 R292). -/
def State.epochEffect (s : State) (n : Nat) (heat : List Nat) : State :=
  let tmax := heat.getD 0 0
  let power := heat.getD 2 0
  let miss := heat.getD 3 0 == 1
  let s := if n = 0 then s else s.closeEpoch
  let s := s.lendGrant s.scrubRates
  let cap := if n = 0 then s.bwr.cap else s.nextCap tmax power miss
  let capped := bit (s.rd R.srcCtl) 0
  let differs := cap != s.bwr.cap || capped != s.bwr.capped
  let lasting := s.src.tripHot && decide (s.tripAt ≤ tmax)
  let s := if n = 0 then s else s.wr R.srcTemp (tmax % 256 + 256 * (heat.getD 1 0 % 8) + 4096 * (power % 4096))
  let bwr : Bwr := { s.bwr with cap := cap, capped := capped, epoch := n, acc := [] }
  let fresh : Link → Link := fun x => { x with gcmBad := 0 }
  let s := { s with
    bwr := bwr
    src := { s.src with tripHot := s.src.trip, trip := false, warn := s.src.warn && s.src.low, tripAlert := s.src.tripAlert && !s.src.hotNow.isEmpty }
    fpc := { s.fpc with links := tmap (dflt Link.init) s.fpc.links (fun _ x => fresh x) } }
  let s := (if differs then s.irq 8 else s).syncAlert
  if lasting then s.supplyHold 6 else s.admitPorts.pumpHost

/-- An epoch boundary in the supply hold of R505, which ends when an epoch has passed with every die below HOT − 5 °C (23 R499). -/
def State.holdEpoch (s : State) : State :=
  let n := s.spn.tick / 4000
  if n ≤ s.bwr.epoch then s
  else
    let cool := (List.range 5).all (fun d => let r := tget (dflt (DieRep.mk 0 0 0)) s.src.dies d; r.count != 0 && decide (r.tmax + 5 < s.hotAt))
    let t := { s with bwr := { s.bwr with epoch := n }, src := { s.src with tripHot := true, dies := [] } }
    if s.src.tripHot && cool then ({ t with src := { t.src with hold := 0, tripHot := false } }).endReset else t

/-- EPOCH_BOUNDARY (11 R262): the boundary decided two ticks ago takes effect. -/
def execEpochBoundary (s : State) : Host.Outcome State Fault Refusal :=
  if s.noTick then .next s
  else if s.inReset then .next (if s.src.hold = 6 && !s.pins.wrst && !s.pins.tapHold then s.holdEpoch else s)
  else match s.spn.effs.find? (fun e => e.isEpoch && decide (e.due ≤ s.spn.tick)) with
    | some e =>
      let s := { s with spn := { s.spn with effs := s.spn.effs.erase e } }
      (match e.ev.body with | .epoch n => .next (s.epochEffect n e.nums) | _ => .next s)
    | none => .next s

/-! ## Alignment across packages (R41–R43, 14 R317) -/

/-- Whether the package holds no slice and no bound image and no bank is armed, so that its count may step back (R43). -/
def State.bare (s : State) : Bool := s.slices.isEmpty && (List.range 4).all (fun i => !(s.image i).bound) && s.armed.isNone

/-- The count moves back by `k`, with every deadline held as a tick count: lease expiries, LLY_CHK_AT, watchdog starts; outcomes on their way keep their distance
(R43). -/
def State.stepBack (s : State) (k : Nat) : State :=
  let t := s.spn.tick - k
  let lease : Nat → Mbx → Mbx := fun _ m => if m.lease then { m with leaseAt := m.leaseAt - k } else m
  let watch : MemReq → MemReq := fun r => { r with arrived := r.arrived - 4096 * k, issued := r.issued - 4096 * k }
  let eff : Eff → Eff := fun e => { e with stamp := e.stamp - k, due := e.due - k }
  let named := s.rd R.chkAtLo + 2 ^ 32 * s.rd R.chkAtHi
  let s := if named = 0 then s else (s.wr R.chkAtLo ((named - k) % 2 ^ 32)).wr R.chkAtHi ((named - k) / 2 ^ 32)
  { s with
    spn := { s.spn with tick := t, effs := s.spn.effs.map eff, lastGood := s.spn.lastGood - k, reqSent := s.spn.reqSent - k, lastSlew := s.spn.lastSlew - k }
    mbx := tmap (dflt Mbx.init) s.mbx lease
    mce := { s.mce with reqs := s.mce.reqs.map watch } }

/-- ALIGN_STEP (R43): the count steps by `k` ticks, with a record of the count before and after. -/
def State.alignStep (s : State) (k : Int) : State :=
  let old := s.spn.tick
  let s := if 0 ≤ k then { s with spn := { s.spn with tick := old + k.toNat, lastSlew := s.spn.lastSlew + k.toNat } } else s.stepBack (-k).toNat
  s.offer 0 0x30 s.spn.tick 0xFF 0 0 [old, s.spn.tick]

/-- The lowest link in UP state of a port. -/
def State.upLink (s : State) (p : Nat) : Option Nat := (List.range (s.nLinks p)).find? (fun l => (s.link p l).st == .up)

/-- ALIGN_TIMER (14 R317): every 1,000 tk a non-root package sends a request to its parent. A request never answered breaks the run of good exchanges. -/
def execAlignTimer (s : State) : Host.Outcome State Fault Refusal :=
  if s.noTick || s.inReset || s.mce.fenced then .next s
  else match s.parentPort with
    | none => .next s
    | some p =>
      if s.spn.reqSent != 0 && decide (s.spn.tick < s.spn.reqSent + 1000) then .next s
      else match s.upLink p with
        | none => .next s
        | some l =>
          let run := if s.spn.reqOut then 0 else s.spn.goodRun
          let s := { s with spn := { s.spn with reqSent := s.spn.tick, reqOut := true, goodRun := run } }
          .next (s.sendFlit p l 6 0 [0])

/-- The payload of an ALIGN response (R317): t2, t3 and the parent's offset to the root (layout: assumption log 85). -/
def alignPayload (t2 t3 : Nat) (off : Int) : List Byte := [1] ++ leBytes 10 t2 ++ leBytes 10 t3 ++ leBytes 4 (off % 2 ^ 32).toNat

/-- ALIGN_REQUEST (14 R317): a request that reached the parent at `t2` is answered at `t3`, with the parent's own offset to the root. Times are in 1,024ths of a
tick. -/
def execAlignRequest (p l hdr t2 t3 : Nat) (ue : Bool) (tag : List Byte) (s : State) : Host.Outcome State Fault Refusal :=
  let p := p % 8
  let r := s.rxSystem p l hdr 6 [0] ue tag false
  if !r.2 then .next r.1
  else
    let off : Int := if r.1.alignRoot then 0 else r.1.spn.offset
    let d := alignPayload t2 t3 off
    .next ((r.1.sendFlit p l 6 0 d).emit .align [1, p, l, t2, t3] d)

/-- Whole ticks of an offset, to the nearest. -/
def wholeTicks (d : Int) : Int := (d + 512) / 1024

/-- A successful exchange with offset `d` to the parent and `off` to the root (R41, R43): what the state allows is corrected by a step, the rest by slewing; the state
moves on. -/
def State.alignGood (s : State) (d off : Int) : State :=
  let within := decide (-1024 ≤ d) && decide (d ≤ 1024)
  let k := wholeTicks d
  let step : Int := match s.spn.align with
    | .acquiring => if s.bare then (if s.spn.stepped then 0 else k) else max 0 k
    | .lost => if 2048 < d then k else 0
    | _ => 0
  let st := s.spn.align
  let s := if step = 0 then s else s.alignStep step
  let left := d - 1024 * step
  let run := if within then s.spn.goodRun + 1 else 0
  let s := { s with spn := { s.spn with
    slew := left, offset := off - 1024 * step, goodRun := run, stepped := s.spn.stepped || step != 0, lastGood := s.spn.tick } }
  match st with
  | .acquiring => if 8 ≤ run then s.setAlign .aligned else s
  | .aligned => s
  | .lost => s.setAlign .acquiring
  | .unaligned => s

/-- Entry to LOST (R43): each hosted multi-package slice receives a class 3 fault event. -/
def State.alignLost (s : State) : State :=
  if s.spn.align != .aligned && s.spn.align != .acquiring then s
  else
    let s := s.setAlign .lost
    (s.slices.filter (fun d => d.fabMask != 0)).foldl (fun s d =>
      s.raiseFault Sub.spn (some d.slice) { FaultEv.base 0x0A 2 [d.slice] with da := (s.spn.offset / 64 % 2 ^ 32).toNat }) s

/-- ALIGN_RESPONSE (14 R317): the child computes d = ((t2 − t1) + (t3 − t4)) ÷ 2 and its offset to the root from the parent's `off` (1,024ths of a tick). A response
more than 8 tk after its request is no success. An ALIGNED package beyond one tick of the root becomes LOST (R43). -/
def execAlignResponse (p l hdr t1 t2 t3 t4 : Nat) (off : Int) (ue : Bool) (tag : List Byte) (s : State) : Host.Outcome State Fault Refusal :=
  let p := p % 8
  let r := s.rxSystem p l hdr 6 (alignPayload t2 t3 off) ue tag false
  if !r.2 then .next r.1
  else
    let s := r.1
    if s.parentPort != some p || !s.spn.reqOut || s.noTick || s.inReset then .next s
    else
      let s := { s with spn := { s.spn with reqOut := false } }
      if t4 < t1 || t1 + 8192 < t4 then .next { s with spn := { s.spn with goodRun := 0 } }
      else
        let d : Int := (((t2 : Int) - t1) + ((t3 : Int) - t4)) / 2
        let root := d + off
        let was := s.spn.align
        let s := s.alignGood d root
        if was == .aligned && (decide (1024 < root) || decide (root < -1024)) then .next s.alignLost else .next s

/-- ALIGN_LOST (R43): no successful exchange with the parent for 4,000 tk, in ALIGNED as in ACQUIRING. -/
def execAlignLost (s : State) : Host.Outcome State Fault Refusal :=
  if s.noTick || s.inReset || s.parentPort.isNone || s.spn.tick < s.spn.lastGood + 4000 then .next s
  else .next s.alignLost

end Sys2Proof.Machine
end

