-- ==== Sys2Proof/Machine/Dispatch.lean ====
section
/-! DEFINITION. One arm per command: a direct call of its meaning. -/

namespace Sys2Proof.Machine

/-- The effect of a command on everything but the queue of commands. -/
def exec (i : Instr) (s : State) : Host.Outcome State Fault Refusal :=
  match i with
  | .tick => Sys2Proof.Machine.execTick s
  | .epochBoundary => Sys2Proof.Machine.execEpochBoundary s
  | .alignTimer => Sys2Proof.Machine.execAlignTimer s
  | .alignRequest p l hdr t2 t3 ue tag => Sys2Proof.Machine.execAlignRequest p l hdr t2 t3 ue tag s
  | .alignResponse p l hdr t1 t2 t3 t4 off ue tag => Sys2Proof.Machine.execAlignResponse p l hdr t1 t2 t3 t4 off ue tag s
  | .alignLost => Sys2Proof.Machine.execAlignLost s
  | .tickLoRead f src => Sys2Proof.Machine.execTickLoRead f src s
  | .chkTickLoRead src => Sys2Proof.Machine.execChkTickLoRead src s
  | .memoryRequest id cls tag addr len write mask data port aux sub far => Sys2Proof.Machine.execMemoryRequest id cls tag addr len write mask data port aux sub far s
  | .requestIssue tag stack sub => Sys2Proof.Machine.execRequestIssue tag stack sub s
  | .memResponse id addr tagEcc tagLine dataEcc cipher sub => Sys2Proof.Machine.execMemResponse id addr tagEcc tagLine dataEcc cipher sub s
  | .readDelivery id addr sub => Sys2Proof.Machine.execReadDelivery id addr sub s
  | .failedRegion k first last => Sys2Proof.Machine.execFailedRegion k first last s
  | .stackQueueLevelHold k v => Sys2Proof.Machine.execStackQueueLevelHold k v s
  | .gtSelWrite src g => Sys2Proof.Machine.execGtSelWrite src g s
  | .chkCommitCheck b => Sys2Proof.Machine.execChkCommitCheck b s
  | .chkCommitGo b => Sys2Proof.Machine.execChkCommitGo b s
  | .chkCommitCancel b => Sys2Proof.Machine.execChkCommitCancel b s
  | .checkDone b => Sys2Proof.Machine.execCheckDone b s
  | .blanksReady => Sys2Proof.Machine.execBlanksReady s
  | .waitLimitExpiry => Sys2Proof.Machine.execWaitLimitExpiry s
  | .drainSaveDone => Sys2Proof.Machine.execDrainSaveDone s
  | .clusterClearDone => Sys2Proof.Machine.execClusterClearDone s
  | .drainDone => Sys2Proof.Machine.execDrainDone s
  | .keysetReady keyid => Sys2Proof.Machine.execKeysetReady keyid s
  | .chkModeWrite v => Sys2Proof.Machine.execChkModeWrite v s
  | .scrubStart g => Sys2Proof.Machine.execScrubStart g s
  | .scrubDone g bad => Sys2Proof.Machine.execScrubDone g bad s
  | .rekeyGrainDone n stack => Sys2Proof.Machine.execRekeyGrainDone n stack s
  | .mceKselWrite src k => Sys2Proof.Machine.execMceKselWrite src k s
  | .mceWselWrite src n => Sys2Proof.Machine.execMceWselWrite src n s
  | .tileRead rid cl taddr caddr img tix variant fmt fold => Sys2Proof.Machine.execTileRead rid cl taddr caddr img tix variant fmt fold s
  | .dieCheckReport site cl engine q jgen taskId instr img tix variant fmt crc word ident tile mod => Sys2Proof.Machine.execDieCheckReport site cl engine q jgen taskId instr img tix variant fmt crc word ident tile mod s
  | .tcuInjectWrite v => Sys2Proof.Machine.execTcuInjectWrite v s
  | .inFlight sl q => Sys2Proof.Machine.execInFlight sl q s
  | .copy sl q => Sys2Proof.Machine.execCopy sl q s
  | .step sl q => Sys2Proof.Machine.execStep sl q s
  | .reduce sl q => Sys2Proof.Machine.execReduce sl q s
  | .gatherEnd sl q entry tix => Sys2Proof.Machine.execGatherEnd sl q entry tix s
  | .tileFoldDone sl q entry => Sys2Proof.Machine.execTileFoldDone sl q entry s
  | .passDone sl q entry => Sys2Proof.Machine.execPassDone sl q entry s
  | .stepDone sl q entry => Sys2Proof.Machine.execStepDone sl q entry s
  | .fetchStart sl => Sys2Proof.Machine.execFetchStart sl s
  | .huskKeyReady sl h secT => Sys2Proof.Machine.execHuskKeyReady sl h secT s
  | .fetchDone sl h secT => Sys2Proof.Machine.execFetchDone sl h secT s
  | .promotionDone sl h => Sys2Proof.Machine.execPromotionDone sl h s
  | .huskWriteDone sl h => Sys2Proof.Machine.execHuskWriteDone sl h s
  | .shelfUe u => Sys2Proof.Machine.execShelfUe u s
  | .factorEcc sl q entry h => Sys2Proof.Machine.execFactorEcc sl q entry h s
  | .doorbell v q count => Sys2Proof.Machine.execDoorbell v q count s
  | .dpaCqhWrite v q h => Sys2Proof.Machine.execDpaCqhWrite v q h s
  | .qselWrite v q => Sys2Proof.Machine.execQselWrite v q s
  | .run sl q => Sys2Proof.Machine.execRun sl q s
  | .join sl q => Sys2Proof.Machine.execJoin sl q s
  | .leave sl q => Sys2Proof.Machine.execLeave sl q s
  | .toDevice sl q => Sys2Proof.Machine.execToDevice sl q s
  | .toHost sl q => Sys2Proof.Machine.execToHost sl q s
  | .dmaDone sl q => Sys2Proof.Machine.execDmaDone sl q s
  | .placement sl => Sys2Proof.Machine.execPlacement sl s
  | .taskEnd c checkFailed => Sys2Proof.Machine.execTaskEnd c checkFailed s
  | .completionWrite n q err => Sys2Proof.Machine.execCompletionWrite n q err s
  | .quantumExpiry c => Sys2Proof.Machine.execQuantumExpiry c s
  | .saveDone c => Sys2Proof.Machine.execSaveDone c s
  | .restoreDone c => Sys2Proof.Machine.execRestoreDone c s
  | .syncCounterSet sl k v => Sys2Proof.Machine.execSyncCounterSet sl k v s
  | .refusals n => Sys2Proof.Machine.execRefusals n s
  | .bwrReportRead v => Sys2Proof.Machine.execBwrReportRead v s
  | .audSelWrite src v => Sys2Proof.Machine.execAudSelWrite src v s
  | .bufferZeroed ch h => Sys2Proof.Machine.execBufferZeroed ch h s
  | .hostCreditReturn n => Sys2Proof.Machine.execHostCreditReturn n s
  | .hostLinkUp up init => Sys2Proof.Machine.execHostLinkUp up init s
  | .hostCompletion tag stat data => Sys2Proof.Machine.execHostCompletion tag stat data s
  | .trainingDone p l locked fast reversed => Sys2Proof.Machine.execTrainingDone p l locked fast reversed s
  | .trainingTimeout p l => Sys2Proof.Machine.execTrainingTimeout p l s
  | .trainingRetry p l => Sys2Proof.Machine.execTrainingRetry p l s
  | .fpcCtlRetrain v => Sys2Proof.Machine.execFpcCtlRetrain v s
  | .statusWord p q state gen2 width mask byp fp => Sys2Proof.Machine.execStatusWord p q state gen2 width mask byp fp s
  | .mgmtLaneSilent p q => Sys2Proof.Machine.execMgmtLaneSilent p q s
  | .laneFail p lane lock corr => Sys2Proof.Machine.execLaneFail p lane lock corr s
  | .degradeDone p l => Sys2Proof.Machine.execDegradeDone p l s
  | .bypassOpen k => Sys2Proof.Machine.execBypassOpen k s
  | .bypassClose k => Sys2Proof.Machine.execBypassClose k s
  | .idle p l hdr ue tag => Sys2Proof.Machine.execIdle p l hdr ue tag s
  | .sync p l hdr ctr ue tag => Sys2Proof.Machine.execSync p l hdr ctr ue tag s
  | .credit p l hdr idx entries ue tag => Sys2Proof.Machine.execCredit p l hdr idx entries ue tag s
  | .rd p l hdr fslice result len addr rtag ue tag => Sys2Proof.Machine.execRd p l hdr fslice result len addr rtag ue tag s
  | .wr p l hdr fslice result len addr rtag data ue tag => Sys2Proof.Machine.execWr p l hdr fslice result len addr rtag data ue tag s
  | .rdrsp p l hdr fslice addr rtag data ue tag => Sys2Proof.Machine.execRdrsp p l hdr fslice addr rtag data ue tag s
  | .wrack p l hdr fslice addr rtag ue tag => Sys2Proof.Machine.execWrack p l hdr fslice addr rtag ue tag s
  | .err p l hdr fslice result addr rtag ue tag => Sys2Proof.Machine.execErr p l hdr fslice result addr rtag ue tag s
  | .signal p l hdr fslice result len aux ue tag => Sys2Proof.Machine.execSignal p l hdr fslice result len aux ue tag s
  | .hello p l hdr nonce fp ue tag => Sys2Proof.Machine.execHello p l hdr nonce fp ue tag s
  | .confirm p l hdr mac ue tag => Sys2Proof.Machine.execConfirm p l hdr mac ue tag s
  | .keyxTimeout p l => Sys2Proof.Machine.execKeyxTimeout p l s
  | .rekeyThreshold p l rx => Sys2Proof.Machine.execRekeyThreshold p l rx s
  | .rekeyReq p l hdr nonce ue tag => Sys2Proof.Machine.execRekeyReq p l hdr nonce ue tag s
  | .rekeyAck p l hdr nonce ue tag => Sys2Proof.Machine.execRekeyAck p l hdr nonce ue tag s
  | .rekeyTimeout p l => Sys2Proof.Machine.execRekeyTimeout p l s
  | .counterLimit p l => Sys2Proof.Machine.execCounterLimit p l s
  | .abort p l hdr fslice hops kind x origin res rest ue tag => Sys2Proof.Machine.execAbort p l hdr fslice hops kind x origin res rest ue tag s
  | .abortTick n => Sys2Proof.Machine.execAbortTick n s
  | .remask => Sys2Proof.Machine.execRemask s
  | .drbgReseed => Sys2Proof.Machine.execDrbgReseed s
  | .entropyFail => Sys2Proof.Machine.execEntropyFail s
  | .entropyRetest pass => Sys2Proof.Machine.execEntropyRetest pass s
  | .glitch => Sys2Proof.Machine.execGlitch s
  | .lockstepMismatch => Sys2Proof.Machine.execLockstepMismatch s
  | .clockMonitorTrip => Sys2Proof.Machine.execClockMonitorTrip s
  | .signingSlot => Sys2Proof.Machine.execSigningSlot s
  | .challengeResponse n => Sys2Proof.Machine.execChallengeResponse n s
  | .getVersion t => Sys2Proof.Machine.execGetVersion t s
  | .getCapabilities t ver => Sys2Proof.Machine.execGetCapabilities t ver s
  | .negotiateAlgorithms t offered => Sys2Proof.Machine.execNegotiateAlgorithms t offered s
  | .getDigests t => Sys2Proof.Machine.execGetDigests t s
  | .getCertificate t slot off len => Sys2Proof.Machine.execGetCertificate t slot off len s
  | .spdmChallenge t slot nonce => Sys2Proof.Machine.execSpdmChallenge t slot nonce s
  | .getMeasurements t idx signed nonce => Sys2Proof.Machine.execGetMeasurements t idx signed nonce s
  | .keyExchange t slot data => Sys2Proof.Machine.execKeyExchange t slot data s
  | .finish t id mac => Sys2Proof.Machine.execFinish t id mac s
  | .keyUpdate t id => Sys2Proof.Machine.execKeyUpdate t id s
  | .heartbeat t id => Sys2Proof.Machine.execHeartbeat t id s
  | .endSession t id => Sys2Proof.Machine.execEndSession t id s
  | .spdmUnsupported t => Sys2Proof.Machine.execSpdmUnsupported t s
  | .getTdispVersion id f => Sys2Proof.Machine.execGetTdispVersion id f s
  | .getTdispCapabilities id f => Sys2Proof.Machine.execGetTdispCapabilities id f s
  | .lockInterfaceRequest id f => Sys2Proof.Machine.execLockInterfaceRequest id f s
  | .getDeviceInterfaceReport id f => Sys2Proof.Machine.execGetDeviceInterfaceReport id f s
  | .getDeviceInterfaceState id f => Sys2Proof.Machine.execGetDeviceInterfaceState id f s
  | .startInterfaceRequest id f nonce => Sys2Proof.Machine.execStartInterfaceRequest id f nonce s
  | .stopInterfaceRequest id f => Sys2Proof.Machine.execStopInterfaceRequest id f s
  | .mctpControl cmd data => Sys2Proof.Machine.execMctpControl cmd data s
  | .go => Sys2Proof.Machine.execGo s
  | .dbgOpen => Sys2Proof.Machine.execDbgOpen s
  | .dbgClose => Sys2Proof.Machine.execDbgClose s
  | .newNonce => Sys2Proof.Machine.execNewNonce s
  | .fuseBitDone ok => Sys2Proof.Machine.execFuseBitDone ok s
  | .debugVerifyDone => Sys2Proof.Machine.execDebugVerifyDone s
  | .extest => Sys2Proof.Machine.execExtest s
  | .clamp => Sys2Proof.Machine.execClamp s
  | .highz => Sys2Proof.Machine.execHighz s
  | .ddpStatus => Sys2Proof.Machine.execDdpStatus s
  | .ddpRead a => Sys2Proof.Machine.execDdpRead a s
  | .ddpWrite a v => Sys2Proof.Machine.execDdpWrite a v s
  | .ddpCoreDebug c r wr v => Sys2Proof.Machine.execDdpCoreDebug c r wr v s
  | .vfEnable en num => Sys2Proof.Machine.execVfEnable en num s
  | .configWrite f r v => Sys2Proof.Machine.execConfigWrite f r v s
  | .flr v => Sys2Proof.Machine.execFlr v s
  | .pf0Flr => Sys2Proof.Machine.execPf0Flr s
  | .msixUnmask f v mask => Sys2Proof.Machine.execMsixUnmask f v mask s
  | .cfgReady => Sys2Proof.Machine.execCfgReady s
  | .fwReady => Sys2Proof.Machine.execFwReady s
  | .mbxCfgWrite f v => Sys2Proof.Machine.execMbxCfgWrite f v s
  | .sqTail f v => Sys2Proof.Machine.execSqTail f v s
  | .mbxCqHeadWrite f v => Sys2Proof.Machine.execMbxCqHeadWrite f v s
  | .dctlGo => Sys2Proof.Machine.execDctlGo s
  | .mbxCompletionWrite f err => Sys2Proof.Machine.execMbxCompletionWrite f err s
  | .leaseExpiry f => Sys2Proof.Machine.execLeaseExpiry f s
  | .negotiate f => Sys2Proof.Machine.execNegotiate f s
  | .attach f => Sys2Proof.Machine.execAttach f s
  | .lease f => Sys2Proof.Machine.execLease f s
  | .detach f => Sys2Proof.Machine.execDetach f s
  | .sliceStage => Sys2Proof.Machine.execSliceStage s
  | .sliceDestroy => Sys2Proof.Machine.execSliceDestroy s
  | .grainStage => Sys2Proof.Machine.execGrainStage s
  | .check => Sys2Proof.Machine.execCheck s
  | .commit => Sys2Proof.Machine.execCommit s
  | .cancel => Sys2Proof.Machine.execCancel s
  | .keyFind => Sys2Proof.Machine.execKeyFind s
  | .statementGet f => Sys2Proof.Machine.execStatementGet f s
  | .secretInstall f => Sys2Proof.Machine.execSecretInstall f s
  | .challenge f => Sys2Proof.Machine.execChallenge f s
  | .imageBind => Sys2Proof.Machine.execImageBind s
  | .imageLoadDone => Sys2Proof.Machine.execImageLoadDone s
  | .lcTransition => Sys2Proof.Machine.execLcTransition s
  | .debugCtlOpen => Sys2Proof.Machine.execDebugCtlOpen s
  | .debugCtlClose => Sys2Proof.Machine.execDebugCtlClose s
  | .podOpen f => Sys2Proof.Machine.execPodOpen f s
  | .podQuery f => Sys2Proof.Machine.execPodQuery f s
  | .podPut f => Sys2Proof.Machine.execPodPut f s
  | .podPin f => Sys2Proof.Machine.execPodPin f s
  | .podUnpin f => Sys2Proof.Machine.execPodUnpin f s
  | .podEvict f => Sys2Proof.Machine.execPodEvict f s
  | .podClose f => Sys2Proof.Machine.execPodClose f s
  | .podRebase f => Sys2Proof.Machine.execPodRebase f s
  | .podSetMode f => Sys2Proof.Machine.execPodSetMode f s
  | .podKeyBind f => Sys2Proof.Machine.execPodKeyBind f s
  | .slotClaim f => Sys2Proof.Machine.execSlotClaim f s
  | .slotRelease f => Sys2Proof.Machine.execSlotRelease f s
  | .expertClaim f => Sys2Proof.Machine.execExpertClaim f s
  | .expertRelease f => Sys2Proof.Machine.execExpertRelease f s
  | .queueCreate f => Sys2Proof.Machine.execQueueCreate f s
  | .queueDestroy f => Sys2Proof.Machine.execQueueDestroy f s
  | .queueFlush f => Sys2Proof.Machine.execQueueFlush f s
  | .suspend f => Sys2Proof.Machine.execSuspend f s
  | .suspendSave f => Sys2Proof.Machine.execSuspendSave f s
  | .resume f => Sys2Proof.Machine.execResume f s
  | .queueCounts f => Sys2Proof.Machine.execQueueCounts f s
  | .captureMode f => Sys2Proof.Machine.execCaptureMode f s
  | .captureRead f => Sys2Proof.Machine.execCaptureRead f s
  | .sliceReset f => Sys2Proof.Machine.execSliceReset f s
  | .freeze => Sys2Proof.Machine.execFreeze s
  | .unfreeze => Sys2Proof.Machine.execUnfreeze s
  | .clear => Sys2Proof.Machine.execClear s
  | .clearDone => Sys2Proof.Machine.execClearDone s
  | .recRead => Sys2Proof.Machine.execRecRead s
  | .logMask => Sys2Proof.Machine.execLogMask s
  | .logRead => Sys2Proof.Machine.execLogRead s
  | .fwLoad => Sys2Proof.Machine.execFwLoad s
  | .fwUpdate => Sys2Proof.Machine.execFwUpdate s
  | .quiesceEnd => Sys2Proof.Machine.execQuiesceEnd s
  | .adopt => Sys2Proof.Machine.execAdopt s
  | .rollback => Sys2Proof.Machine.execRollback s
  | .coreWatchdog core => Sys2Proof.Machine.execCoreWatchdog core s
  | .mpuViolation core comp addr => Sys2Proof.Machine.execMpuViolation core comp addr s
  | .coreEccError core => Sys2Proof.Machine.execCoreEccError core s
  | .illegalInstruction core => Sys2Proof.Machine.execIllegalInstruction core s
  | .coreRelease core => Sys2Proof.Machine.execCoreRelease core s
  | .componentRunning comp => Sys2Proof.Machine.execComponentRunning comp s
  | .runningTimeout comp => Sys2Proof.Machine.execRunningTimeout comp s
  | .tracePoint comp group num args busy => Sys2Proof.Machine.execTracePoint comp group num args busy s
  | .engineHang cl engine ticks instr => Sys2Proof.Machine.execEngineHang cl engine ticks instr s
  | .memTimeout id addr sub => Sys2Proof.Machine.execMemTimeout id addr sub s
  | .dieFail die m => Sys2Proof.Machine.execDieFail die m s
  | .unitHang unit => Sys2Proof.Machine.execUnitHang unit s
  | .recoveryPhaseTimeout n => Sys2Proof.Machine.execRecoveryPhaseTimeout n s
  | .engineError cl engine code detail instr => Sys2Proof.Machine.execEngineError cl engine code detail instr s
  | .scratchUe cl off => Sys2Proof.Machine.execScratchUe cl off s
  | .engineStopAck cl => Sys2Proof.Machine.execEngineStopAck cl s
  | .clusterReset cl => Sys2Proof.Machine.execClusterReset cl s
  | .clusterOutOfService cl => Sys2Proof.Machine.execClusterOutOfService cl s
  | .contained n => Sys2Proof.Machine.execContained n s
  | .captureDone n data => Sys2Proof.Machine.execCaptureDone n data s
  | .retrainDone kind idx k ok => Sys2Proof.Machine.execRetrainDone kind idx k ok s
  | .sliceResetEnd n failed => Sys2Proof.Machine.execSliceResetEnd n failed s
  | .blockResetReady => Sys2Proof.Machine.execBlockResetReady s
  | .blockReadyTimeout => Sys2Proof.Machine.execBlockReadyTimeout s
  | .secBackup => Sys2Proof.Machine.execSecBackup s
  | .secMain => Sys2Proof.Machine.execSecMain s
  | .backupTimeout => Sys2Proof.Machine.execBackupTimeout s
  | .vllyWarn below => Sys2Proof.Machine.execVllyWarn below s
  | .vddLlyLoss => Sys2Proof.Machine.execVddLlyLoss s
  | .secureDomainLost => Sys2Proof.Machine.execSecureDomainLost s
  | .sensorReport die temp power => Sys2Proof.Machine.execSensorReport die temp power s
  | .coldReset => Sys2Proof.Machine.execColdReset s
  | .warmReset => Sys2Proof.Machine.execWarmReset s
  | .porstRelease => Sys2Proof.Machine.execPorstRelease s
  | .wrstRelease => Sys2Proof.Machine.execWrstRelease s
  | .carveoutInitDone => Sys2Proof.Machine.execCarveoutInitDone s
  | .memoryClearDone bad => Sys2Proof.Machine.execMemoryClearDone bad s
  | .vaultSelfTestDone => Sys2Proof.Machine.execVaultSelfTestDone s
  | .deepReq => Sys2Proof.Machine.execDeepReq s
  | .deepEntryDone => Sys2Proof.Machine.execDeepEntryDone s
  | .wake => Sys2Proof.Machine.execWake s
  | .wakeDone periods wake => Sys2Proof.Machine.execWakeDone periods wake s
  | .unitIdle unit => Sys2Proof.Machine.execUnitIdle unit s
  | .recordWrite => Sys2Proof.Machine.execRecordWrite s
  | .evrSelWrite src idx => Sys2Proof.Machine.execEvrSelWrite src idx s
  | .irqEnWrite src v => Sys2Proof.Machine.execIrqEnWrite src v s
  | .registerWrite src f off be v => Sys2Proof.Machine.execRegisterWrite src f off be v s
  | .spnDeferRead src => Sys2Proof.Machine.execSpnDeferRead src s
  | .bndDenyCntRead src => Sys2Proof.Machine.execBndDenyCntRead src s
  | .mcePoisonCntRead src => Sys2Proof.Machine.execMcePoisonCntRead src s
  | .mceCeccCntRead src => Sys2Proof.Machine.execMceCeccCntRead src s
  | .mceTagcMissRead src => Sys2Proof.Machine.execMceTagcMissRead src s
  | .tcuMissCntRead src => Sys2Proof.Machine.execTcuMissCntRead src s
  | .fldAbandonRead src => Sys2Proof.Machine.execFldAbandonRead src s
  | .pcmHuskFailRead src => Sys2Proof.Machine.execPcmHuskFailRead src s
  | .pcmFactorUeRead src => Sys2Proof.Machine.execPcmFactorUeRead src s
  | .bwrLateRead src => Sys2Proof.Machine.execBwrLateRead src s
  | .fpcEvcntRead src => Sys2Proof.Machine.execFpcEvcntRead src s
  | .fpcLnkcntRead src => Sys2Proof.Machine.execFpcLnkcntRead src s
  | .fpcRetryRead src => Sys2Proof.Machine.execFpcRetryRead src s
  | .fpcAbortRead src => Sys2Proof.Machine.execFpcAbortRead src s
  | .vltRemaskRead src => Sys2Proof.Machine.execVltRemaskRead src s
  | .vltTrngRead src => Sys2Proof.Machine.execVltTrngRead src s
  | .hfpStaleRead f src => Sys2Proof.Machine.execHfpStaleRead f src s
  | .mbxDropRead f src => Sys2Proof.Machine.execMbxDropRead f src s
  | .ccxRestartsRead src => Sys2Proof.Machine.execCcxRestartsRead src s
  | .ccxLogRead src => Sys2Proof.Machine.execCcxLogRead src s
  | .fltCountRead src => Sys2Proof.Machine.execFltCountRead src s
  | .interleaveMarkerWriteDone => Sys2Proof.Machine.execInterleaveMarkerWriteDone s
  | .retentionDone n => Sys2Proof.Machine.execRetentionDone n s
  | .secureDomainPowerUp => Sys2Proof.Machine.execSecureDomainPowerUp s
  | .doeDiscovery index len => Sys2Proof.Machine.execDoeDiscovery index len s
  | .entdaa a => Sys2Proof.Machine.execEntdaa a s
  | .hdrEntry => Sys2Proof.Machine.execHdrEntry s
  | .hdrExit => Sys2Proof.Machine.execHdrExit s
  | .tapReset => Sys2Proof.Machine.execTapReset s
  | .instructionLoad op => Sys2Proof.Machine.execInstructionLoad op s

end Sys2Proof.Machine
end

