-- ==== Sys2Proof/Machine/Step.lean ====
section
/-! DEFINITION. One step: the command at the front of the queue takes effect. -/

namespace Sys2Proof.Machine

/-- The command at the front of the queue takes effect on the block with the queue's rest; with no command waiting the block idles. Time passes by TICK commands
only (02 R29). -/
def step (s : State) : Host.Outcome State Fault Refusal :=
  match s.pending with
  | [] => .next s
  | c :: rest => exec c { s with pending := rest }

/-- A command placed in front of the queue. -/
def State.before (s : State) (c : Instr) : State := { s with pending := c :: s.pending }

/-- The command that a word spells placed in front of the queue; the state as it is where the word spells none. -/
def State.withFetchWord (s : State) (nbits w : Nat) : State :=
  match decodeTableWord nbits w with
  | some c => s.before c
  | none => s

end Sys2Proof.Machine
end

