-- ==== Sys2Proof/Safety.lean ====
section
/-! DEFINITION. The terms claims are stated in: that a command goes on to a state with a property, and when the block serves. A run of this block is safe
when it only ever goes on: the model has no fault, and refuses no command of the table. -/

namespace Sys2Proof

open Machine

/-- Command `c`, run on `s`, answers a next state, and `P` holds of it. -/
def Goes (c : Instr) (s : State) (P : State → Prop) : Prop := ∃ t, exec c s = .next t ∧ P t

/-- The block runs: out of reset, powered up, in no security halt and in no block reset, with its firmware ready (17 R382, 22 R490, 23 R499, R509). -/
structure Machine.State.Runs (s : State) : Prop where
  reset : s.inReset = false
  ticks : s.noTick = false
  deep : s.src.deep = 0
  cfg : s.hfp.cfgReady = true
  fw : s.hfp.fwReady = true
  halt : s.mce.halted = false
  fence : s.mce.fenced = false
  block : s.flt.block = 0

/-- Of the whole state only registers differ, and of those only the ones listed, which hold the values beside them. -/
def Writes (s t : Machine.State) (l : List (Nat × Nat)) : Prop :=
  t = { s with regs := t.regs } ∧ (∀ e ∈ l, t.rd e.1 = e.2 % 2 ^ 32) ∧ ∀ b, b ∉ l.map Prod.fst → t.rd b = s.rd b

/-- Event `e` waits to be stamped in `t`. -/
def Raised (t : Machine.State) (e : Machine.Ev) : Prop := e ∈ t.raised

/-- Command `e` of function `f`, with opcode `op`, is the next of its mailbox to start (18 R399). -/
def Starts (s : Machine.State) (f op : Nat) (e : Machine.ExecCmd) : Prop := s.toStart f op = some e ∧ e.ref.fn = f

/-- In `t` command `r` has ended with a status and waits for its completion to be written (18 R399). -/
def Ended (t : Machine.State) (r : Machine.CmdRef) (status : Nat) : Prop :=
  ∃ x ∈ (t.mb r.fn).exec, x.ref = r ∧ x.done = true ∧ x.status = status

/-- A message with header `hdr` and payload `d` passes on link `l` of port `p`, once its codewords have decoded: the link carries flits (or, for the messages
marked `keyx`, trains), no fence stands, the header keeps the rules, a numbered flit is the next in sequence (14 R303, R310), and the tags of its flits verify
under the receive key, a SYNC's under the counter it carries and any other's under its position (14 R311, R312). -/
structure Machine.State.Accepts (s : Machine.State) (p l hdr : Nat) (d tag : List Byte) (keyx : Bool) : Prop where
  serves : (s.link p l).st.carries = true ∨ keyx = true ∧ ((s.link p l).st = .training ∨ (s.link p l).st = .ready)
  fence : s.mce.fenced = false
  header : hdrGood hdr = true
  next : 2 ≤ hdrType hdr → hdrSeq hdr = (s.link p l).rxSeq
  tag : tagsOk ((s.link p l).rxKey hdr) (if hdrType hdr = 1 then fieldAt d 224 8 else (s.link p l).rxCtr) (flitsOf hdr d) tag = true

/-- Of the links only link `l` of port `p` may differ. -/
def LinkOnly (s t : Machine.State) (p l : Nat) : Prop :=
  ∀ k, k ≠ 4 * p + l → tget (dflt Link.init) t.fpc.links k = tget (dflt Link.init) s.fpc.links k

/-- Whether a step stopped: no step does. -/
def stopped (o : Host.Outcome Machine.State Machine.Fault Machine.Refusal) : Bool :=
  match o with
  | .next _ => false
  | _ => true

end Sys2Proof
end

