-- ==== Sys2Proof/Certificates/Slice0/Obligations.lean ====
section
/-! DEFINITION. The statements for the provers. `Goes c s P`: command `c`, run on `s`, answers a next state of which `P` holds. A conclusion
`t = { s with … }` says that nothing else of the state changes. -/

section

open Sys2Proof Sys2Proof.Machine

/-- While the block runs, for a source whose access is served: the read of each of 18 read-to-clear counters answers the register, leaves the fields that
clear at 0 and nothing else changed but the answer that leaves. TICK_LO_READ answers the low half of the count and latches the high half in the
reader's own copy, CHK_TICK_LO_READ the same for the last commit; CCX_LOG_READ answers pointer and drops and clears the drops; HFP_STALE_READ and
MBX_DROP_READ clear a function's own count; BWR_REPORT_READ answers the slice's report and latches its epoch. (00_scope.md, 02_spindle_and_clocks.md,
10_dispatch_and_preemption.md, 11_bandwidth_and_timing_isolation.md, 17_host_functions.md, 18_mailbox_protocol.md, 21_control_complex_firmware.md,
26_register_map.md) -/
def Obligations.ReadsWithEffectsAnswer : Prop :=
   (let reads := fun (c : Nat → Instr) (a hi lo : Nat) => ∀ (s : State) (src : Nat), s.Runs → s.readable src a = true →
      Goes (c src) s (fun t =>
        t = { s with regs := t.regs, out := s.out ++ [⟨.regValue, [src, a, s.rd a], []⟩] }
        ∧ t.rd a = setBits (s.rd a) hi lo 0 ∧ bits (t.rd a) hi lo = 0 ∧ ∀ b, b ≠ a → t.rd b = s.rd b)
    reads .spnDeferRead R.spnDefer 31 0 ∧ reads .bndDenyCntRead R.bndDenyCnt 31 0 ∧ reads .mcePoisonCntRead R.mcePoisonCnt 31 0
    ∧ reads .mceCeccCntRead R.mceCeccCnt 31 0 ∧ reads .mceTagcMissRead R.mceTagcMiss 31 0 ∧ reads .tcuMissCntRead R.tcuMissCnt 31 0
    ∧ reads .fldAbandonRead R.fldAbandon 31 0 ∧ reads .pcmHuskFailRead R.pcmHuskFail 31 0 ∧ reads .pcmFactorUeRead R.pcmFactorUe 31 0
    ∧ reads .bwrLateRead R.bwrLate 31 0 ∧ reads .fpcEvcntRead R.fpcEvcnt 31 0 ∧ reads .fpcLnkcntRead R.fpcLnkcnt 31 0
    ∧ reads .fpcRetryRead R.fpcRetry 31 0 ∧ reads .fpcAbortRead R.fpcAbort 31 0 ∧ reads .vltRemaskRead R.vltRemask 31 0
    ∧ reads .vltTrngRead R.vltTrng 7 0 ∧ reads .ccxRestartsRead R.ccxRestarts 31 0 ∧ reads .fltCountRead R.fltCount 31 0)
  ∧ (∀ (s : State) (src : Nat), s.Runs →
      (s.readable src R.spnTickLo = true → Goes (.tickLoRead pf0 src) s (fun t =>
        t = { s with regs := t.regs, out := s.out ++ [⟨.regValue, [src, R.spnTickLo, s.spn.tick % 2 ^ 32], []⟩] }
        ∧ t.rd (srcReg src R.spnTickHi) = s.spn.tick / 2 ^ 32 % 2 ^ 32 ∧ ∀ b, b ≠ srcReg src R.spnTickHi → t.rd b = s.rd b))
      ∧ (∀ f, f < 64 → s.exists f = true → (s.presents f).isSome = true → Goes (.tickLoRead f 0) s (fun t =>
        t = { s with regs := t.regs, out := s.out ++ [⟨.regValue, [0, vfReg f V.spnTickLo, s.spn.tick % 2 ^ 32], []⟩] }
        ∧ t.rd (vfReg f V.spnTickHi) = s.spn.tick / 2 ^ 32 % 2 ^ 32 ∧ ∀ b, b ≠ vfReg f V.spnTickHi → t.rd b = s.rd b))
      ∧ (s.readable src R.chkTickLo = true → Goes (.chkTickLoRead src) s (fun t =>
        t = { s with regs := t.regs, out := s.out ++ [⟨.regValue, [src, R.chkTickLo, s.chk.lastTick % 2 ^ 32], []⟩] }
        ∧ t.rd (srcReg src R.chkTickHi) = s.chk.lastTick / 2 ^ 32 % 2 ^ 32 ∧ ∀ b, b ≠ srcReg src R.chkTickHi → t.rd b = s.rd b))
      ∧ (s.readable src R.ccxLog = true → Goes (.ccxLogRead src) s (fun t =>
        t = { s with regs := t.regs,
                     out := s.out ++ [⟨.regValue, [src, R.ccxLog, s.ccx.logCount % 2 ^ 18 + 2 ^ 18 * bits (s.rd R.ccxLog) 31 18], []⟩] }
        ∧ t.rd R.ccxLog = setBits (s.rd R.ccxLog) 31 18 0 ∧ ∀ b, b ≠ R.ccxLog → t.rd b = s.rd b))
      ∧ (s.readable src R.hfpStale = true → Goes (.hfpStaleRead pf0 src) s (fun t =>
        t = { s with hfp := t.hfp, out := s.out ++ [⟨.regValue, [src, R.hfpStale, (s.fn pf0).stale], []⟩] }
        ∧ (t.fn pf0).stale = 0 ∧ ∀ g, g ≠ pf0 → t.fn g = s.fn g))
      ∧ (∀ f, f < 64 → s.exists f = true → Goes (.hfpStaleRead f 0) s (fun t =>
        t = { s with hfp := t.hfp, out := s.out ++ [⟨.regValue, [0, vfReg f V.hfpStale, (s.fn f).stale], []⟩] }
        ∧ (t.fn f).stale = 0 ∧ ∀ g, g ≠ f → t.fn g = s.fn g))
      ∧ (s.readable src R.mbxDrop = true → Goes (.mbxDropRead pf0 src) s (fun t =>
        t = { s with regs := t.regs, out := s.out ++ [⟨.regValue, [src, R.mbxDrop, s.rd R.mbxDrop], []⟩] }
        ∧ t.rd R.mbxDrop = 0 ∧ ∀ b, b ≠ R.mbxDrop → t.rd b = s.rd b))
      ∧ (∀ f, f < 64 → s.exists f = true → Goes (.mbxDropRead f 0) s (fun t =>
        t = { s with regs := t.regs, out := s.out ++ [⟨.regValue, [0, vfReg f V.mbxDrop, s.rd (vfReg f V.mbxDrop)], []⟩] }
        ∧ t.rd (vfReg f V.mbxDrop) = 0 ∧ ∀ b, b ≠ vfReg f V.mbxDrop → t.rd b = s.rd b))
      ∧ (∀ v n r, v < 64 → s.exists v = true → s.presents v = some n → tget (dflt none) s.bwr.reports n = some r →
        Goes (.bwrReportRead v) s (fun t =>
          t = { s with regs := t.regs, out := s.out ++ [⟨.regValue, [0, vfReg v V.bwrReport, r.pack], []⟩] }
          ∧ t.rd (vfReg v V.bwrReportEpoch) = r.epoch % 2 ^ 32 ∧ ∀ b, b ≠ vfReg v V.bwrReportEpoch → t.rd b = s.rd b)))

/-- While the block runs, a served write of LLY_BND_GT_SEL, LLY_MCE_KSEL, LLY_MCE_WSEL, LLY_AUD_SEL or LLY_EVR_SEL by a source, or of LLY_DPA_QSEL by a VF
that presents a slice, keeps the number and latches the record it names (a grain's entry, a key's state, a walk, an audit sum, a record's first words,
a queue's state and counts) into that source's or VF's own registers; nothing else changes. (03_slices_and_binder.md, 05_memory_crypt.md,
10_dispatch_and_preemption.md, 12_buffers_credits_conservation.md, 24_event_recorder.md, 26_register_map.md) -/
def Obligations.SelectWritesLatchTheirView : Prop :=
  ∀ (s : State) (src n : Nat), s.Runs →
    (s.readable src R.bndGtSel = true → n < nGrains → (src = 0 ∨ src = 1 ∨ 2 ≤ src) → Goes (.gtSelWrite src n) s (fun t => Writes s t
      [(srcReg src R.bndGtSel, n), (srcReg src R.bndGtLo, (s.grain n).pack % 2 ^ 32), (srcReg src R.bndGtHi, (s.grain n).pack / 2 ^ 32)]))
    ∧ (s.readable src R.mceKsel = true → n < 1024 → Goes (.mceKselWrite src n) s (fun t => Writes s t
      [(srcReg src R.mceKsel, n), (srcReg src R.mceKstat, (s.key n).pack)]))
    ∧ (s.readable src R.mceWsel = true → n < 64 → Goes (.mceWselWrite src n) s (fun t => Writes s t
      [(srcReg src R.mceWsel, n), (srcReg src R.mceWstat, (tget (dflt none) s.mce.walks n).elim 0 Walk.old),
       (srcReg src R.mceWleft, (tget (dflt none) s.mce.walks n).elim 0 Walk.count)]))
    ∧ (s.readable src R.audSel = true → n < 16 → Goes (.audSelWrite src n) s (fun t => Writes s t
      [(srcReg src R.audSel, n), (srcReg src R.audVal, s.auditSums.getD n 0)]))
    ∧ (s.readable src R.evrSel = true → ∀ r, n < 65536 → s.evr.mem[n]? = some r → Goes (.evrSelWrite src n) s (fun t =>
      t = { s with regs := t.regs } ∧ t.rd (srcReg src R.evrSel) = n + 65536
      ∧ (∀ k, k < 16 → t.rd (srcReg src (R.evrRec + 4 * k)) = fieldAt r.bytes (4 * k) 4 % 2 ^ 32)
      ∧ ∀ b, b ≠ srcReg src R.evrSel → (∀ k, k < 16 → b ≠ srcReg src (R.evrRec + 4 * k)) → t.rd b = s.rd b))
    ∧ (∀ v m x, v < 64 → s.exists v = true → s.presents v = some m → n < 4096 → s.queue m n = some x → Goes (.qselWrite v n) s (fun t =>
      t = { s with regs := t.regs } ∧ t.rd (vfReg v V.dpaQsel) = n ∧ t.rd (vfReg v V.dpaQstat) = s.qstat m n % 2 ^ 32
      ∧ t.rd (vfReg v V.dpaCnt) = x.submitted % 2 ^ 32 ∧ t.rd (vfReg v (V.dpaCnt + 4)) = x.submitted / 2 ^ 32 % 2 ^ 32
      ∧ t.rd (vfReg v (V.dpaCnt + 8)) = x.admitted % 2 ^ 32 ∧ t.rd (vfReg v (V.dpaCnt + 16)) = x.refused % 2 ^ 32
      ∧ t.rd (vfReg v (V.dpaCnt + 24)) = x.completed % 2 ^ 32 ∧ t.rd (vfReg v (V.dpaCnt + 32)) = x.cancelled % 2 ^ 32
      ∧ ∀ b, b ≠ vfReg v V.dpaQsel → b ≠ vfReg v V.dpaQstat → (∀ k, k < 10 → b ≠ vfReg v (V.dpaCnt + 4 * k)) → t.rd b = s.rd b))

/-- While the block runs, a host REGISTER_WRITE with all bytes enabled to a place of PF0's window whose fields are only RW and RO and which has no effect
of its own writes the RW bits of the value and keeps the rest; a write with fewer bytes enabled is dropped with LLY_ID_ACCERR.PARTIAL set and no other
register changed; IRQ_EN_WRITE keeps the 16 enables and changes no other register. (00_scope.md, 26_register_map.md) -/
def Obligations.RegisterWritesReachTheirPlace : Prop :=
  ∀ (s : State), s.Runs →
    (∀ (a v : Nat) (r : RegRow), a < 2 ^ 20 → a % 4 = 0 → rowAt a = some r → (∀ f ∈ r.fields, f.acc = Acc.rw ∨ f.acc = Acc.ro) → v < 2 ^ 32 →
      a ∉ [R.bndGtSel, R.mceKsel, R.mceWsel, R.audSel, R.evrSel, R.chkCommit, R.chkMode, R.tcuInject, R.fpcCtl, R.lcCtrl, R.mbxCfg, R.mbxSqTail,
           R.mbxCqHead, R.mbxDctl, R.srcCtl, R.irqEn] →
      Goes (.registerWrite 0 pf0 a 15 v) s (fun t => Writes s t
        [(a, s.rd a - (s.rd a &&& accMask a (fun x => x == Acc.rw)) + (v &&& accMask a (fun x => x == Acc.rw)))]))
    ∧ (∀ (a be v : Nat), a < 2 ^ 24 → a % 4 = 0 → (rowAt a).isSome = true → be < 15 →
      Goes (.registerWrite 0 pf0 a be v) s (fun t => t = { s with regs := t.regs } ∧ bit (t.rd R.idAccerr) 0 = true ∧ ∀ b, b ≠ R.idAccerr → t.rd b = s.rd b))
    ∧ (∀ v, Goes (.irqEnWrite 0 v) s (fun t =>
        t = { s with regs := t.regs, hfp := t.hfp } ∧ t.rd R.irqEn = v % 2 ^ 16 ∧ ∀ b, b ≠ R.irqEn → t.rd b = s.rd b))

/-- An offset of PF0's window that holds no register (and is no place of the MSI-X table or pending bits) reads 0 for every source, and, where the access
is served, a write to it changes only LLY_ID_ACCERR, where UNMAPPED is set. A write to such an offset of a VF's window changes nothing. (R550) -/
def Obligations.UnmappedOffsetsReadZeroAndDropWrites : Prop :=
  ∀ (s : State), s.Runs →
    (∀ (src a : Nat), rowAt a = none → ¬ (0x800000 ≤ a ∧ a < 0x800200) → a ≠ 0x801000 → a ≠ 0x801004 → s.pfView src a = 0)
    ∧ (∀ (a be v : Nat), rowAt a = none → a % 4 = 0 → a < 2 ^ 24 → ¬ (0x800000 ≤ a ∧ a < 0x800200) → a ≠ 0x801000 → a ≠ 0x801004 →
      Goes (.registerWrite 0 pf0 a be v) s (fun t => t = { s with regs := t.regs } ∧ bit (t.rd R.idAccerr) 1 = true ∧ ∀ b, b ≠ R.idAccerr → t.rd b = s.rd b))
    ∧ (∀ (f off be v : Nat), f < 64 → off % 4 = 0 → off < 2 ^ 18 → findRow vfRegs off = none → ¬ (0x20000 ≤ off ∧ off < 0x20200) →
      Goes (.registerWrite 0 f off be v) s (fun t => t = s))

/-- With DDP_ACCESS loaded and debug open each frame shifts out the result of the frame before and holds its own: DDP_STATUS, DDP_READ of a register
without read effect, DDP_WRITE of one, DDP_CORE_DEBUG of a core. EXTEST, CLAMP and HIGHZ begin a warm reset of cause 7 with the fuses kept;
INSTRUCTION_LOAD of another opcode and TAP_RESET (to IDCODE, PRESUMED, log 24) only load. HDR_ENTRY deafens the I3C target until HDR_EXIT; ENTDAA
gives it an address and sends the low bits of OTP row 60; MCTP_CONTROL is answered with 64 bytes the spec does not give. (16_lifecycle_and_debug.md,
23_power_reset_startup.md, 25_boundary_signals.md) -/
def Obligations.DebugTapAndSidebandAnswer : Prop :=
   (let result := fun (op addr data st : Nat) => op % 4 * 2 ^ 70 + addr % 2 ^ 30 * 2 ^ 40 + data % 2 ^ 32 * 2 ^ 8 + st
    let outs := fun (s : State) (l : List Nat) => s.out ++ [⟨.tap, [0x10, s.pins.ddp], []⟩, ⟨.tap, l, []⟩]
    ∀ (s : State), s.Runs → s.pins.tapInstr = 0x10 → s.pins.porst = false → s.pins.vddLly = true → s.debugOpen = true →
      Goes .ddpStatus s (fun t => t = { s with pins := { s.pins with ddp := result 0 0 0 0 }, out := outs s [0, 0, 0, 0] })
      ∧ (∀ a, a < 2 ^ 24 → a % 4 = 0 → a ∉ [R.spnTickLo, R.chkTickLo, R.hfpStale] → accMask a (fun x => x == Acc.rc) = 0 →
        Goes (.ddpRead a) s (fun t => t = { s with pins := { s.pins with ddp := result 1 a (s.pfView 1 a) 0 }, out := outs s [1, a, s.pfView 1 a, 0] }))
      ∧ (∀ a v, a < 2 ^ 24 → a % 4 = 0 → v < 2 ^ 32 → (a / 4096 == 0xF && (s.lcCode == 0x14 || s.lcCode == 0xFF)) = false →
        Goes (.ddpWrite a v) s (fun t => ∃ u, (s.emit .tap [0x10, s.pins.ddp] []).pfWrite 1 a v = u ∧
          t = { u with pins := { u.pins with ddp := result 2 a v 0 }, out := u.out ++ [⟨.tap, [2, a, v, 0], []⟩] }))
      ∧ (∀ c v, c < 4 → (s.core c).st = .running → bit v 0 = true → v < 2 ^ 32 → Goes (.ddpCoreDebug c 0 true v) s (fun t =>
          t = { s with ccx := t.ccx, pins := { s.pins with ddp := result 3 (2 ^ 28 * c) v 0 }, out := outs s [3, 2 ^ 28 * c, v, 0] }
          ∧ (t.core c).st = .halted ∧ ∀ d, d ≠ c → t.core d = s.core d))
      ∧ (∀ c r v, c < 4 → r ≤ 5 → Goes (.ddpCoreDebug c r false v) s (fun t =>
          t = { s with pins := { s.pins with ddp := result 3 (2 ^ 28 * c + r) (s.dbgRead c r) 0 }, out := outs s [3, 2 ^ 28 * c + r, s.dbgRead c r, 0] })))
  ∧ (∀ (s : State), s.Runs → s.pins.tapHold = false → s.pins.porst = false → s.lc.burn = none →
      (∀ c op, (c, op) ∈ [(Instr.extest, 3), (Instr.clamp, 4), (Instr.highz, 5)] → Goes c s (fun t =>
        t.pins.tapInstr = op ∧ t.pins.tapHold = true ∧ t.inReset = true ∧ t.rd R.srcCause = 7 ∧ t.lc.otp = s.lc.otp ∧ t.pending = s.pending))
      ∧ (∀ op, s.tapOp op ∉ [3, 4, 5] → Goes (.instructionLoad op) s (fun t => t = { s with pins := { s.pins with tapInstr := s.tapOp op } }))
      ∧ (∀ op, s.tapOp op ∈ [3, 4, 5] → Goes (.instructionLoad op) s (fun t => t.pins.tapInstr = s.tapOp op ∧ t.inReset = true))
      ∧ Goes .tapReset s (fun t => t = { s with pins := { s.pins with tapInstr := 1 } }))
  ∧ ((∀ s : State, Goes .hdrEntry s (fun t => t = { s with pins := { s.pins with i3cDeaf := true } })
      ∧ Goes .hdrExit s (fun t => t = { s with pins := { s.pins with i3cDeaf := false } }))
    ∧ (∀ (s : State) (a : Nat), s.Runs → s.pins.i3cDeaf = false → s.pins.i3cAddr = none → s.src.upAt + 19532 ≤ s.spn.tick → a < 128 →
        Goes (.entdaa a) s (fun t => t = { s with pins := { s.pins with i3cAddr := some a }, out := s.out ++ [⟨.mctp, [0, s.otpRow 60 % 2 ^ 32], []⟩] }))
    ∧ (∀ (s : State) (cmd : Nat) (data : List Byte), s.Runs → s.pins.i3cDeaf = false → s.pins.i3cAddr.isSome = true →
        Goes (.mctpControl cmd data) s (fun t => ∃ d : List Byte, d.length = 64 ∧ t = { s with out := s.out ++ [⟨.mctp, [1, cmd], d⟩] })))

/-- COLD_RESET and VDD_LLY_LOSS, in every state, assert the cold reset: the count is 0, no grain is listed, no slice is defined, every key entry but KeyID
0's is FREE and without keys, its index kept until the memory clear, functions, mailboxes, queues, pods and fabric are as after reset, the fuses, the
records and the waiting commands stay, BOOT rises by one and LLY_SRC_CAUSE.LAST names the cause. A secure domain without supplies that powers up does
the same with an empty recorder whose counters are 0, and SECURE_DOMAIN_LOST takes both supplies away. (23_power_reset_startup.md,
24_event_recorder.md, 25_boundary_signals.md) -/
def Obligations.ColdResetsLeaveResetState : Prop :=
  let asReset := fun (s t : State) (cause : Nat) =>
    t.spn.tick = 0 ∧ t.bnd.gt = [] ∧ t.bnd.defs = [] ∧ (∀ k, k ≠ 0 → t.key k = KeyE.startOf k (s.key k)) ∧ t.hfp = State.reset.hfp ∧ t.mbx = State.reset.mbx
    ∧ t.dpa = State.reset.dpa ∧ t.pcm = State.reset.pcm ∧ t.fpc = State.reset.fpc ∧ t.fld = State.reset.fld ∧ t.lc.otp = s.lc.otp ∧ t.lc.burn = none
    ∧ t.rd R.srcCause = cause ∧ t.pending = s.pending
  ∀ s : State, Tbl.wf (dflt KeyE.init) s.mce.keys →
    Goes .coldReset s (fun t => asReset s t 1 ∧ t.inReset = true ∧ t.pins.porst = true ∧ t.evr.mem = s.evr.mem ∧ (s.lc.debug = false → t.evr.rseq = s.evr.rseq)
      ∧ t.evr.boot = (s.evr.boot + 1) % 256)
    ∧ Goes .vddLlyLoss s (fun t => asReset s t 2 ∧ t.inReset = true ∧ t.pins.porst = true ∧ t.pins.vddLly = false ∧ t.evr.mem = s.evr.mem
      ∧ t.evr.boot = (s.evr.boot + 1) % 256)
    ∧ Goes .secureDomainLost s (fun t =>
      t = { s with pins := { s.pins with vddSec := false, vbak := false }, lc := { s.lc with burn := none } } ∧ t.noTick = true)
    ∧ (s.pins.vddSec = false → s.pins.vbak = false → Goes .secureDomainPowerUp s (fun t => asReset s t 3 ∧ t.pins.vddSec = true ∧ t.pins.vbak = true
      ∧ t.evr.mem = [] ∧ t.evr.rseq = 0 ∧ t.evr.boot = 0 ∧ t.evr.fulldrop = 0 ∧ t.evr.frzdrop = 0 ∧ t.evr.qdrop = 0))

/-- While the block runs with no burn in progress, WARM_RESET holds it in reset with cause 4: the count goes on, an owned grain is taken from its owner
and every other grain stays as it is, every key but KeyID 0 is free with its derivation index kept, no slice is defined, the host's functions answer
as before, and the fuses and the waiting commands stay. (03_slices_and_binder.md, 05_memory_crypt.md, 23_power_reset_startup.md) -/
def Obligations.WarmResetKeepsWhatSurvives : Prop :=
  ∀ s : State, s.Runs → s.pins.porst = false → s.pins.wrst = false → s.pins.tapHold = false → s.src.hold = 0 → s.lc.burn = none →
    Tbl.wf (dflt GrainE.blank) s.bnd.gt → Tbl.wf (dflt KeyE.init) s.mce.keys →
    Goes .warmReset s (fun t => t.inReset = true ∧ t.pins.wrst = true ∧ t.rd R.srcCause = 4 ∧ t.spn.tick = s.spn.tick ∧ t.bnd.defs = []
      ∧ (∀ g, t.grain g = if (s.grain g).st = .owned then (s.grain g).taken else s.grain g)
      ∧ (∀ k, k ≠ 0 → (t.key k).st = .free ∧ (t.key k).dix = (s.key k).dix)
      ∧ t.lc.otp = s.lc.otp ∧ t.pending = s.pending ∧ t.hfp = { State.reset.hfp with cfgReady := s.hfp.cfgReady } ∧ t.evr.mem = s.evr.mem)

/-- PORST_RELEASE, with nothing else holding the block in reset, and WRST_RELEASE likewise end the reset and decide the lifecycle state from the three
fused copies; where they decide LOCKDOWN the security halt with source 4 is raised. A release with another hold still in force leaves the block in
reset. (05_memory_crypt.md, 16_lifecycle_and_debug.md, 25_boundary_signals.md) -/
def Obligations.ReleasesSenseTheFuses : Prop :=
  let sensed := fun (s t : State) => t.inReset = false ∧ t.src.otpSensed = true
    ∧ (t.lc.idx, t.lc.lockdown, t.lc.torn) = ((lcSense (s.otpRow 0) (s.otpRow 1) (s.otpRow 2)).1, (lcSense (s.otpRow 0) (s.otpRow 1) (s.otpRow 2)).2.1,
        (lcSense (s.otpRow 0) (s.otpRow 1) (s.otpRow 2)).2.2.1)
    ∧ (t.lc.lockdown = true → Raised t ⟨1, none, Sub.vlt, .secHalt 4 0 0 0 0⟩) ∧ t.lc.otp = s.lc.otp ∧ t.bnd = s.bnd ∧ t.pending = s.pending
  ∀ s : State, s.pins.wrstLatched = 0 → s.pins.tapHold = false → s.src.hold = 0 → (s.pins.vddSec = true ∨ s.pins.vbak = true) →
    (s.pins.porst = true → s.pins.wrst = false → Goes .porstRelease s (fun t => sensed s t ∧ t.pins.porst = false ∧ t.pins.vddLly = true))
    ∧ (s.pins.wrst = true → s.pins.porst = false → Goes .wrstRelease s (fun t => sensed s t ∧ t.pins.wrst = false))
    ∧ (s.pins.porst = true → s.pins.wrst = true → Goes .porstRelease s (fun t => t.inReset = true ∧ t.pins.porst = false)
      ∧ Goes .wrstRelease s (fun t => t.inReset = true ∧ t.pins.wrst = false))

/-- While the block runs: SEC_BACKUP moves the secure domain to VBAK and raises SUPPLY event 1, SEC_MAIN returns it and raises 2, VLLY_WARN below the
threshold raises 3 and above it only ends the condition, a sensor report at or above the trip threshold raises 4 and one below only adds to its die's
reports. BACKUP_TIMEOUT 136,719 tk after SEC_BACKUP, with no burn in progress, begins the supply hold 5. (23_power_reset_startup.md,
25_boundary_signals.md) -/
def Obligations.SupplyEventsAreRaised : Prop :=
  let ev := fun (k : Nat) => (⟨2, none, Sub.src, .supply k 0⟩ : Ev)
  ∀ s : State, s.Runs →
    (s.pins.vddSec = true → s.pins.vbak = true → Goes .secBackup s (fun t => t.pins = { s.pins with vddSec := false }
      ∧ t.src = { s.src with backupAt := some s.spn.tick } ∧ Raised t (ev 1) ∧ t = { s with pins := t.pins, src := t.src, spn := t.spn, regs := t.regs }))
    ∧ (s.pins.vddSec = false → s.pins.vbak = true → s.pins.wrstLatched = 0 → s.src.hold = 0 → Goes .secMain s (fun t => t.pins = { s.pins with vddSec := true }
      ∧ t.src = { s.src with backupAt := none } ∧ Raised t (ev 2) ∧ t = { s with pins := t.pins, src := t.src, spn := t.spn, regs := t.regs }))
    ∧ (s.src.low = false → Goes (.vllyWarn true) s (fun t => t.src = { s.src with low := true } ∧ Raised t (ev 3)
      ∧ t = { s with src := t.src, spn := t.spn, regs := t.regs }))
    ∧ Goes (.vllyWarn false) s (fun t => t = { s with src := { s.src with low := false } })
    ∧ (∀ die temp power, die < 5 → temp < 256 → s.tripAt ≤ temp → Goes (.sensorReport die temp power) s (fun t => Raised t (ev 4)
      ∧ die ∈ t.src.hotNow ∧ (tget (dflt ⟨0, 0, 0⟩) t.src.dies die).tmax = max (tget (dflt ⟨0, 0, 0⟩) s.src.dies die).tmax temp
      ∧ t = { s with src := t.src, spn := t.spn, regs := t.regs }))
    ∧ (∀ die temp power, die < 5 → temp < s.tripAt → temp < 256 → Goes (.sensorReport die temp power) s (fun t =>
        (tget (dflt ⟨0, 0, 0⟩) t.src.dies die).count = (tget (dflt ⟨0, 0, 0⟩) s.src.dies die).count + 1 ∧ die ∉ t.src.hotNow
        ∧ t = { s with src := t.src }))
    ∧ (∀ at', s.src.backupAt = some at' → s.pins.vddSec = false → s.pins.vbak = true → s.pins.porst = false → s.lc.burn = none → at' + 136719 ≤ s.spn.tick →
      Goes .backupTimeout s (fun t => t.src.hold = 5 ∧ t.rd R.srcCause = 5 ∧ t.lc.otp = s.lc.otp ∧ t.spn.tick = s.spn.tick
        ∧ t.inReset = true))

/-- Out of reset and halt: CFG_READY lets the host's functions answer; with the DRBG running, the vault's self-test derives the identity from the taproot
seed and brings the vault to its ready state; the carve-out's slots are written, then MEMORY_CLEAR_DONE writes all data and slots and leaves the
listed grains POISON and every other blank, with KeyID 0 in use; FW_READY, with the audit passing, sets LLY_HFP_READY.FW; the interleave marker
written lets held requests go on. (05_memory_crypt.md, 15_vault_keys_attestation.md, 17_host_functions.md, 23_power_reset_startup.md) -/
def Obligations.StartUpStepsComplete : Prop :=
  ∀ s : State, s.inReset = false → s.mce.halted = false →
    Goes .cfgReady s (fun t => t = { s with hfp := { s.hfp with cfgReady := true } })
    ∧ (s.vlt.st = 1 → s.vlt.drbgStopped = false → s.lc.idx ≠ 20 → Goes .vaultSelfTestDone s (fun t => t.vlt.st = 3 ∧ t.vlt.lcClass = s.lcClassOf ∧ t.vlt.known = true
      ∧ t.vlt.cdi0 = kdf s.taproot "LLY-CDI0" dgBootrom 384 ∧ (s.src.cleared = true → (t.key 0).st = .system ∧ (t.key 0).live = true)
      ∧ t = { s with vlt := t.vlt, mce := t.mce, draws := t.draws }))
    ∧ (s.src.carved = false → 2 ≤ s.vlt.st → s.vlt.st ≠ 4 → Goes .carveoutInitDone s (fun t =>
        t = { s with src := { s.src with carved := true }, out := s.out ++ [⟨.memFill, [RClass.scr.code, 0xFF, 0, 0, allLines, 0], []⟩] }))
    ∧ (∀ bad, s.src.carved = true → s.src.cleared = false → 2 ≤ s.vlt.st → s.vlt.st ≠ 4 → s.vlt.drbgStopped = false → Goes (.memoryClearDone bad) s (fun t =>
        (∀ g, (t.grain g).st = if g ∈ bad ∧ g < nGrains then .poison else .blank) ∧ (t.key 0).st = .system ∧ (t.key 0).live = true
        ∧ (∀ k, k ≠ 0 → t.key k = KeyE.init) ∧ t.src.cleared = true
        ∧ (⟨.memFill, [RClass.scr.code, 0xFF, 0, 0, allLines, 2], []⟩ : Output) ∈ t.out ∧ t.lc = s.lc ∧ t.pending = s.pending))
    ∧ (s.hfp.cfgReady = true → s.hfp.fwReady = false → s.ccx.active.isSome = true → s.vlt.st = 3 → s.src.carved = true → s.src.cleared = true →
        s.auditFails = 0 → Goes .fwReady s (fun t => t.hfp.fwReady = true ∧ t.lc.otp = s.lc.otp ∧ t.bnd.defs = s.bnd.defs ∧ t.pending = s.pending))
    ∧ (s.mce.remark = true → Goes .interleaveMarkerWriteDone s (fun t => t.mce.remark = false ∧ t.bnd.defs = s.bnd.defs ∧ t.pending = s.pending))

/-- UNIT_IDLE changes no state. A parked slice that stops is retained at RETENTION_DONE. While the block runs with nothing that forbids it, DEEP_REQ by
the host starts the entry and tells every slice with clusters to stop; its end, once no memory request is in flight, leaves the device powered down
with no key loaded and the fuses kept; WAKE begins the wake, whose end gives a count of its value on entry plus 5 tk a period plus the ticks of the
wake. (02_spindle_and_clocks.md, 15_vault_keys_attestation.md, 23_power_reset_startup.md) -/
def Obligations.IdleParkAndDeepSteps : Prop :=
  (∀ (s : State) (u : Nat), Goes (.unitIdle u) s (fun t => t = s))
  ∧ (∀ (s : State) (n : Nat), tget (dflt ParkSt.none) s.src.park n = .stopping → Goes (.retentionDone n) s (fun t =>
      tget (dflt ParkSt.none) t.src.park n = .retained ∧ (∀ v, s.vfOf n = some v → (t.fn v).stale = 0) ∧ t = { s with src := t.src, hfp := t.hfp }))
  ∧ (∀ (s : State), s.Runs → s.deepAllowed = true → Goes .deepReq s (fun t => t.src.deep = 1 ∧ t.src.deepAt = s.spn.tick
      ∧ (∀ d ∈ s.slices, d.clusters ≠ 0 → tget (dflt ParkSt.none) s.src.park d.slice = .none → tget (dflt ParkSt.none) t.src.park d.slice = .stopping)
      ∧ t.bnd.defs = s.bnd.defs ∧ t.lc.otp = s.lc.otp ∧ t.mce.halted = s.mce.halted))
  ∧ (∀ (s : State), s.src.deep = 1 → s.mce.reqs = [] → Goes .deepEntryDone s (fun t => t.src.deep = 2 ∧ t.src.deepAt = s.spn.tick ∧ t.mce.reqs = [] ∧ t.mce.tagc = []
      ∧ (∀ k, (t.key k).live = false) ∧ t.bwr.regs = [] ∧ t.tpl.free = 16384 ∧ t.spn.tick = s.spn.tick ∧ t.lc.otp = s.lc.otp ∧ t.bnd.defs = s.bnd.defs ∧ t.pending = s.pending))
  ∧ (∀ (s : State), s.src.deep = 1 ∨ s.src.deep = 2 → Goes .wake s (fun t => t = { s with src := { s.src with deep := 3 } }))
  ∧ (∀ (s : State) (periods wake : Nat), s.src.deep = 3 → s.src.held = [] → bit (s.rd R.audStatus) 8 = false → Goes (.wakeDone periods wake) s (fun t =>
      t.src.deep = 0 ∧ t.spn.tick = s.src.deepAt + 5 * periods + wake ∧ t.lc.otp = s.lc.otp ∧ t.bnd.defs = s.bnd.defs ∧ t.pending = s.pending))

/-- Each TICK of a count that has begun adds 1 to it, also the first one after a warm reset; the first tick after a cold reset, whose count has not begun,
is tick 0. While the block runs, that is so of every TICK, which leaves the fuses and the waiting commands. In a warm reset or supply hold the count
is all that changes. While no tick is produced (cold reset, no secure supply, DEEP) TICK changes nothing. (02_spindle_and_clocks.md) -/
def Obligations.TicksAdvanceTheCount : Prop :=
  let next := fun (s : State) => { s.spn with counting := true, tick := if s.spn.counting then s.spn.tick + 1 else s.spn.tick }
  ∀ s : State,
    (s.Runs → Goes .tick s (fun t => t.spn.tick = (next s).tick ∧ t.pending = s.pending ∧ t.lc.otp = s.lc.otp))
    ∧ (s.noTick = false → s.inReset = true → Goes .tick s (fun t => t = { s with spn := next s }))
    ∧ (s.noTick = true → Goes .tick s (fun t => t = s))

/-- EPOCH_BOUNDARY, out of reset, with the decided boundary n > 0 due and no trip that has lasted: the epoch number is n, the cap level is the next one
for the closing epoch's largest temperature and power, POWER_CAP follows LLY_SRC_CTL, LLY_SRC_TEMP holds the reading, and the trip seen in the epoch
is remembered and cleared. With no boundary due nothing changes. (11_bandwidth_and_timing_isolation.md, 23_power_reset_startup.md) -/
def Obligations.EpochBoundaryTakesEffect : Prop :=
  ∀ s : State, s.Runs →
    (∀ e n, s.spn.effs.find? (fun e => e.isEpoch && decide (e.due ≤ s.spn.tick)) = some e → e.ev.body = .epoch n → n ≠ 0 →
      (s.src.tripHot = false ∨ e.nums.getD 0 0 < s.tripAt) →
      Goes .epochBoundary s (fun t => t.bwr.epoch = n ∧ t.bwr.cap = s.nextCap (e.nums.getD 0 0) (e.nums.getD 2 0) (e.nums.getD 3 0 == 1)
        ∧ t.bwr.capped = bit (s.rd R.srcCtl) 0 ∧ t.bwr.acc = []
        ∧ t.rd R.srcTemp = e.nums.getD 0 0 % 256 + 256 * (e.nums.getD 1 0 % 8) + 4096 * (e.nums.getD 2 0 % 4096)
        ∧ t.src.trip = false ∧ t.src.tripHot = s.src.trip ∧ t.spn = { s.spn with effs := s.spn.effs.erase e }
        ∧ t.bnd = s.bnd ∧ t.lc = s.lc ∧ t.pending = s.pending))
    ∧ (s.spn.effs.find? (fun e => e.isEpoch && decide (e.due ≤ s.spn.tick)) = none → Goes .epochBoundary s (fun t => t = s))

/-- While the block runs: ALIGN_TIMER at a package with a parent port and a link up there, 1,000 tk after its last request, puts an ALIGN flit into that
link's replay buffer and notes the time; a request still unanswered breaks the run of good exchanges. ALIGN_REQUEST in an ALIGN flit that passes is
answered on the same link with t2, t3 and the offset to the root, 0 at the root. (14_fabric_security_and_abort.md, 02_spindle_and_clocks.md) -/
def Obligations.AlignmentMessagesGoOut : Prop :=
  ∀ s : State, s.Runs →
    (∀ p l, s.parentPort = some p → s.upLink p = some l → (s.spn.reqSent = 0 ∨ s.spn.reqSent + 1000 ≤ s.spn.tick) →
      Goes .alignTimer s (fun t => t.spn = { s.spn with reqSent := s.spn.tick, reqOut := true, goodRun := if s.spn.reqOut then 0 else s.spn.goodRun }
        ∧ flitOut 6 0 [0] ∈ (t.link p l).replay ∧ LinkOnly s t p l ∧ t = { s with spn := t.spn, fpc := t.fpc, out := t.out }))
    ∧ (∀ p l hdr t2 t3 tag, p < 8 → s.Accepts p l hdr [0] tag false → hdrType hdr = 6 →
      let reply := alignPayload t2 t3 (if s.alignRoot then 0 else s.spn.offset)
      Goes (.alignRequest p l hdr t2 t3 false tag) s (fun t => flitOut 6 0 reply ∈ (t.link p l).replay ∧ ⟨.align, [1, p, l, t2, t3], reply⟩ ∈ t.out
        ∧ (t.link p l).rxSeq = (hdrSeq hdr + 1) % 4096 ∧ LinkOnly s t p l ∧ t = { s with regs := t.regs, spn := t.spn, tpl := t.tpl, fpc := t.fpc, out := t.out }))

/-- With d = ((t2 − t1) + (t3 − t4)) ÷ 2 from a response of the parent within 8 tk: an ALIGNED package within one tick of parent and root slews by d and
counts one more good exchange; the eighth good one makes an ACQUIRING one that may not step back ALIGNED; LOST returns to ACQUIRING, stepping forward
where behind by more than 2 tk; an ALIGNED package beyond one tick of the root becomes LOST. A late response only breaks the run. ALIGN_LOST after
4,000 tk without a good exchange takes an ALIGNED or ACQUIRING package to LOST. Entry to LOST raises a class 3 event for every multi-package slice.
(14_fabric_security_and_abort.md, 02_spindle_and_clocks.md) -/
def Obligations.AlignmentFollowsItsExchanges : Prop :=
  let lost := fun (s t : State) => t.spn.align = .lost ∧ ∀ d ∈ s.slices, d.fabMask ≠ 0 → ∃ e, Raised t e ∧ e.cls = 3 ∧ e.sl = some d.slice ∧ e.src = Sub.spn
  ∀ s : State, s.Runs →
    (∀ (p l hdr t1 t2 t3 t4 : Nat) (off : Int) (tag : List Byte), p < 8 → s.Accepts p l hdr (alignPayload t2 t3 off) tag false → hdrType hdr = 6 → s.parentPort = some p → s.spn.reqOut = true → t1 ≤ t4 → t4 ≤ t1 + 8192 →
      let d : Int := (((t2 : Int) - t1) + ((t3 : Int) - t4)) / 2
      let r : Instr := .alignResponse p l hdr t1 t2 t3 t4 off false tag
      (s.spn.align = .aligned → -1024 ≤ d → d ≤ 1024 → -1024 ≤ d + off → d + off ≤ 1024 → Goes r s (fun t =>
        t.spn = { s.spn with reqOut := false, slew := d, offset := d + off, goodRun := s.spn.goodRun + 1, lastGood := s.spn.tick }))
      ∧ (s.spn.align = .acquiring → s.bare = false → d ≤ 0 → -1024 ≤ d → 7 ≤ s.spn.goodRun → Goes r s (fun t =>
        t.spn.align = .aligned ∧ t.spn.slew = d ∧ t.spn.offset = d + off ∧ t.spn.tick = s.spn.tick))
      ∧ (s.spn.align = .lost → Goes r s (fun t => t.spn.align = .acquiring
        ∧ t.spn.tick = if 2048 < d then s.spn.tick + (wholeTicks d).toNat else s.spn.tick))
      ∧ (s.spn.align = .aligned → (1024 < d + off ∨ d + off < -1024) → Goes r s (fun t => lost s t ∧ t.spn.tick = s.spn.tick)))
    ∧ (∀ (p l hdr t1 t2 t3 t4 : Nat) (off : Int) (tag : List Byte), p < 8 → s.Accepts p l hdr (alignPayload t2 t3 off) tag false → hdrType hdr = 6 → s.parentPort = some p → s.spn.reqOut = true →
      (t4 < t1 ∨ t1 + 8192 < t4) → Goes (.alignResponse p l hdr t1 t2 t3 t4 off false tag) s (fun t =>
        t.spn = { s.spn with reqOut := false, goodRun := 0 }))
    ∧ (s.parentPort.isSome = true → (s.spn.align = .aligned ∨ s.spn.align = .acquiring) → s.spn.lastGood + 4000 ≤ s.spn.tick →
      Goes .alignLost s (fun t => lost s t ∧ t.spn.tick = s.spn.tick ∧ t = { s with regs := t.regs, spn := t.spn, hfp := t.hfp }))

/-- For a link in training: TRAINING_DONE with keys exchanged and a lane group free of failed lanes makes it READY on that group; with no lane locked it
goes DOWN with reason 4, with no clean group 5, at TRAINING_TIMEOUT 937,500 tk after its start 6; each failure counts in TFAIL, saturating.
TRAINING_RETRY at an epoch boundary 4,000 tk after a failure starts training again while the bypass is open. Only that link changes.
(13_fabric_ports.md) -/
def Obligations.LinkTrainingEnds : Prop :=
  let down := fun (s t : State) (p l reason : Nat) => (t.link p l).st = .down ∧ (t.link p l).reason = reason
    ∧ (t.link p l).tfail = min 255 ((s.link p l).tfail + 1) ∧ (t.link p l).failAt = s.spn.tick ∧ LinkOnly s t p l ∧ t = { s with fpc := t.fpc, tpl := t.tpl }
  ∀ (s : State) (p l : Nat), p < 8 →
    ((s.link p l).st = .training → ∀ locked fast reversed,
      let w := s.nLanes p
      let own := (2 ^ w - 1) ^^^ (locked % 2 ^ w)
      (locked % 2 ^ w = 0 → Goes (.trainingDone p l locked fast reversed) s (fun t => down s t p l 4))
      ∧ (locked % 2 ^ w ≠ 0 → laneGroup w (own ||| (s.link p l).peerMask) = none → Goes (.trainingDone p l locked fast reversed) s (fun t => down s t p l 5))
      ∧ (∀ g, locked % 2 ^ w ≠ 0 → laneGroup w (own ||| (s.link p l).peerMask) = some g → (s.link p l).keyed = true →
        Goes (.trainingDone p l locked fast reversed) s (fun t => (t.link p l).st = .ready ∧ (t.link p l).lane0 = g.1 ∧ (t.link p l).lanes = g.2
          ∧ (t.link p l).ownMask = own ∧ (t.link p l).reversed = reversed ∧ (t.link p l).fps.head? = some (s.link p l).peerFp
          ∧ LinkOnly s t p l ∧ t = { s with fpc := { s.fpc with links := t.fpc.links } })))
    ∧ ((s.link p l).st = .training → (s.link p l).trainAt + 937500 ≤ s.spn.tick → Goes (.trainingTimeout p l) s (fun t => down s t p l 6))
    ∧ ((s.link p l).st = .down → (s.bypass (p / 2)).1 = .opened → l < s.nLinks p → s.spn.tick % 4000 = 0 → (s.link p l).failAt + 4000 ≤ s.spn.tick →
      Goes (.trainingRetry p l) s (fun t => (t.link p l).st = .training ∧ (t.link p l).trainAt = s.spn.tick ∧ (t.link p l).full = false
        ∧ (t.link p l).tfail = (s.link p l).tfail ∧ LinkOnly s t p l ∧ t = { s with tpl := t.tpl, fpc := t.fpc }))

/-- BYPASS_OPEN of a pair that waits with every link silent or acknowledged opens it, and each link of its ports at the width staged trains with TFAIL 0.
BYPASS_CLOSE of a pair that has sent CLOSING for 4 tk closes it and takes its links down without an event. FPC_CTL_RETRAIN of one port retrains every
link in full where the pair is open and no slice holds the port and it is not the alignment parent; otherwise the write is dropped and LLY_FPC_ADMIT
bit 16 is set. (13_fabric_ports.md) -/
def Obligations.PortsOpenCloseAndRetrain : Prop :=
  ∀ s : State, s.Runs →
    (∀ k, k < 4 → (s.bypass k).1 = .waitAck →
      (∀ p ∈ [2 * k, 2 * k + 1], ∀ l < linkCount (s.rf (R.fpcCfg + 4 * p) 1 0), (s.link p l).silent = true ∨ (s.link p l).ack = true) →
      Goes (.bypassOpen k) s (fun t => t.bypass k = (.opened, 0)
        ∧ (∀ p ∈ [2 * k, 2 * k + 1], s.rf (R.fpcCfg + 4 * p) 1 0 = t.widthOf p ∧ ∀ l < linkCount (s.rf (R.fpcCfg + 4 * p) 1 0),
            (t.link p l).st = .training ∧ (t.link p l).tfail = 0 ∧ (t.link p l).trainAt = s.spn.tick)
        ∧ t = { s with tpl := t.tpl, fpc := t.fpc }))
    ∧ (∀ k, k < 4 → (s.bypass k).1 = .closing → (s.bypass k).2 ≠ 0 → (s.bypass k).2 + 4 ≤ s.spn.tick →
      Goes (.bypassClose k) s (fun t => t.bypass k = (.closed, 0) ∧ (∀ p ∈ [2 * k, 2 * k + 1], ∀ l < 4, (t.link p l).st = .down)
        ∧ (∀ p ∈ t.fpc.admitted, p / 2 ≠ k) ∧ t = { s with tpl := t.tpl, fpc := t.fpc }))
    ∧ (∀ p, p < 8 → s.portHeld p = false → s.parentPort ≠ some p → (s.bypass (p / 2)).1 = .opened →
      Goes (.fpcCtlRetrain (2 ^ p)) s (fun t => t.widthOf p = s.rf (R.fpcCfg + 4 * p) 1 0
        ∧ (∀ l < t.nLinks p, (t.link p l).st = .training ∧ (t.link p l).full = true) ∧ t = { s with tpl := t.tpl, fpc := t.fpc }))
    ∧ (∀ p, p < 8 → (s.portHeld p = true ∨ s.parentPort = some p ∨ (s.bypass (p / 2)).1 ≠ .opened) →
      Goes (.fpcCtlRetrain (2 ^ p)) s (fun t => t.rf R.fpcAdmit 16 16 = 1 ∧ Writes s t [(R.fpcAdmit, setBits (s.rd R.fpcAdmit) 16 16 1)]))

/-- Out of halt and DEEP, STATUS_WORD on the lane of a link sends this package's word and keeps the partner's state, fingerprint, width and failed lanes.
In training another width ends it with reason 2; a partner DOWN takes a link in service DOWN with PORT_DOWN, and one whose close ended starts
training. MGMT_LANE_SILENT 4,000 tk after the last word marks the lane silent, ends a training with reason 1 and takes a link in service DOWN with
PORT_DOWN. (13_fabric_ports.md) -/
def Obligations.ManagementLaneRulesLinks : Prop :=
  let noted := fun (s t : State) (p l state width mask fp : Nat) => (t.link p l).lastRx = s.spn.tick ∧ (t.link p l).silent = false
    ∧ (t.link p l).peerState = state ∧ (t.link p l).peerFp = fp ∧ (t.link p l).peerWidth = width ∧ (t.link p l).peerMask = mask % 2 ^ s.nLanes p
  ∀ (s : State) (p q l : Nat), p < 8 → s.linkOfQuarter p q = some l →
    (∀ state gen2 width mask byp fp, s.mce.fenced = false → s.src.deep = 0 →
      let c : Instr := .statusWord p q state gen2 width mask byp fp
      (((s.link p l).st = .training ∧ width = s.rf (R.fpcCfg + 4 * p) 1 0 ∧ state ≠ Word.training) ∨ (s.link p l).st = .down ∨ (s.link p l).st = .off →
        Goes c s (fun t => noted s t p l state width mask fp ∧ (t.link p l).st = (s.link p l).st ∧ t.out = s.out ++ [⟨.signal, s.statusWord p l q, []⟩]
          ∧ LinkOnly s t p l ∧ t = { s with fpc := { s.fpc with links := t.fpc.links }, out := t.out }))
      ∧ ((s.link p l).st = .training → width ≠ s.rf (R.fpcCfg + 4 * p) 1 0 → Goes c s (fun t => (t.link p l).st = .down ∧ (t.link p l).reason = 2
          ∧ noted s t p l state width mask fp ∧ LinkOnly s t p l ∧ t = { s with regs := t.regs, spn := t.spn, tpl := t.tpl, fpc := t.fpc, draws := t.draws, out := t.out }))
      ∧ ((s.link p l).st.carries = true → state = Word.down → (s.link p l).peerState ≠ Word.closing → Goes c s (fun t => (t.link p l).st = .down
          ∧ noted s t p l state width mask fp ∧ Raised t ⟨3, none, Sub.fpc, .portDown p l 0⟩ ∧ LinkOnly s t p l ∧ t = { s with regs := t.regs, spn := t.spn, tpl := t.tpl, fpc := t.fpc, draws := t.draws, out := t.out }))
      ∧ ((s.link p l).st.carries = true → state ≠ Word.closing → state ≠ Word.training → (s.link p l).peerState = Word.closing →
          Goes c s (fun t => (t.link p l).st = .training ∧ noted s t p l state width mask fp ∧ LinkOnly s t p l ∧ t = { s with regs := t.regs, spn := t.spn, tpl := t.tpl, fpc := t.fpc, draws := t.draws, out := t.out })))
    ∧ ((s.link p l).lastRx + 4000 ≤ s.spn.tick →
      ((s.link p l).st = .training → Goes (.mgmtLaneSilent p q) s (fun t => (t.link p l).st = .down ∧ (t.link p l).reason = 1 ∧ (t.link p l).silent = true
        ∧ LinkOnly s t p l ∧ t = { s with fpc := t.fpc, tpl := t.tpl }))
      ∧ ((s.link p l).st.carries = true → Goes (.mgmtLaneSilent p q) s (fun t => (t.link p l).st = .down ∧ (t.link p l).silent = true
        ∧ Raised t ⟨3, none, Sub.fpc, .portDown p l 1⟩ ∧ LinkOnly s t p l ∧ t = { s with regs := t.regs, spn := t.spn, tpl := t.tpl, fpc := t.fpc })))

/-- LANE_FAIL with lost lock on a link up: where the failed lanes of both sides leave a group other than the one in use, the link is DEGRADING on it and
PORT_DEGRADE is raised; where they leave none, it is DOWN with reason 5 and PORT_DOWN is raised; where they leave the same, only the mask changes. A
correction count at or below its threshold changes nothing. DEGRADE_DONE, with no fence, returns the link to service with a SYNC flit, sealed under
the transmit key at its count, which it carries. (13_fabric_ports.md, 14_fabric_security_and_abort.md) -/
def Obligations.LanesFailAndDegrade : Prop :=
  ∀ (s : State) (p lane : Nat), p < 8 → lane < 32 →
    let w := s.nLanes p
    let l := lane / w
    let mask := (s.link p l).ownMask ||| 2 ^ (lane % w) ||| (s.link p l).peerMask
    ((s.link p l).st = .up →
      (laneGroup w mask = none → Goes (.laneFail p lane true 0) s (fun t => (t.link p l).st = .down ∧ (t.link p l).reason = 5
        ∧ Raised t ⟨3, none, Sub.fpc, .portDown p l 5⟩ ∧ LinkOnly s t p l ∧ t = { s with regs := t.regs, spn := t.spn, tpl := t.tpl, fpc := t.fpc }))
      ∧ (∀ g, laneGroup w mask = some g → g ≠ ((s.link p l).lane0, (s.link p l).lanes) → Goes (.laneFail p lane true 0) s (fun t =>
        (t.link p l).st = .degrading ∧ (t.link p l).wasUp = true ∧ (t.link p l).lane0 = g.1 ∧ (t.link p l).lanes = g.2
        ∧ Raised t ⟨3, none, Sub.fpc, .portDegrade p l g.2⟩ ∧ LinkOnly s t p l ∧ t = { s with regs := t.regs, spn := t.spn, tpl := t.tpl, fpc := t.fpc }))
      ∧ (laneGroup w mask = some ((s.link p l).lane0, (s.link p l).lanes) → Goes (.laneFail p lane true 0) s (fun t =>
        t = s.modLink p l (fun x => { x with ownMask := x.ownMask ||| 2 ^ (lane % w) }))))
    ∧ (∀ corr, (s.rf R.fpcDegThr 15 0 = 0 ∨ corr ≤ s.rf R.fpcDegThr 15 0) → Goes (.laneFail p lane false corr) s (fun t => t = s))
    ∧ (∀ k, (s.link p k).st = .degrading → s.mce.fenced = false → Goes (.degradeDone p k) s (fun t => (t.link p k).st = (if (s.link p k).wasUp then .up else .ready)
        ∧ (∃ h, hdrType h = 1 ∧ (⟨.flit, [p, k, h, (s.link p k).txCtr], sealFlit (s.link p k).keyTx (s.link p k).txCtr h (zeros 224 ++ leBytes 8 (s.link p k).txCtr)⟩ : Output) ∈ t.out) ∧ LinkOnly s t p k ∧ t = { s with fpc := t.fpc, out := t.out }))

/-- For a flit (row IDLE) on a link that carries flits, with no fence: the receive count rises by its slot. Uncorrectable codewords and a tag that does
not verify under the receive key at the count set the gap; such a tag also counts in LLY_FPC_LNKCNT, saturating, and beyond the limit of the epoch
takes the link DOWN with PORT_DOWN reason 7. One that passes with type IDLE frees the replay entries its ACK names and leaves the sequence and the
gap; with RETRY set the rest is sent again and counted in LLY_FPC_RETRY. Behind the fence, or on a link that does not carry flits, nothing changes.
(14_fabric_security_and_abort.md) -/
def Obligations.FlitsPassOrAreAskedAgain : Prop :=
  ∀ (s : State) (p l hdr : Nat) (tag : List Byte), p < 8 →
    let x := s.link p l
    let good := tagsOk (x.rxKey hdr) (if hdrType hdr = 1 then 0 else x.rxCtr) (flitsOf hdr []) tag
    let lost := { x with rxCtr := x.rxCtr + 1, gap := true, gapTold := x.gap && x.gapTold }
    let sent := (x.txSeq + 4096 - x.acked) % 4096
    let n := (hdrAck hdr + 1 + 4096 - x.acked) % 4096
    let freed := if n ≤ sent then n else 0
    (s.mce.fenced = false → x.st.carries = true →
      Goes (.idle p l hdr true tag) s (fun t => t.link p l = lost ∧ LinkOnly s t p l ∧ t = { s with fpc := { s.fpc with links := t.fpc.links } })
      ∧ (good = false → x.gcmBad + 1 ≤ s.rf R.fpcGcmLimit 7 0 → Goes (.idle p l hdr false tag) s (fun t =>
        t.link p l = { lost with gcmBad := x.gcmBad + 1 } ∧ LinkOnly s t p l
        ∧ t.rf R.fpcLnkcnt 15 0 = min 0xFFFF (s.rf R.fpcLnkcnt 15 0 + 1) ∧ t.rf R.fpcLnkcnt 31 16 = s.rf R.fpcLnkcnt 31 16
        ∧ t = { s with fpc := { s.fpc with links := t.fpc.links }, regs := t.regs }))
      ∧ (good = false → s.rf R.fpcGcmLimit 7 0 < x.gcmBad + 1 → Goes (.idle p l hdr false tag) s (fun t => (t.link p l).st = .down
        ∧ (t.link p l).reason = 7 ∧ Raised t ⟨3, none, Sub.fpc, .portDown p l 7⟩ ∧ LinkOnly s t p l ∧ t = { s with regs := t.regs, spn := t.spn, tpl := t.tpl, fpc := t.fpc, out := t.out }))
      ∧ (good = true → hdrGood hdr = true → hdrType hdr = 0 → Goes (.idle p l hdr false tag) s (fun t =>
        (t.link p l).rxCtr = x.rxCtr + 1 ∧ (t.link p l).rxSeq = x.rxSeq ∧ (t.link p l).gap = x.gap ∧ (t.link p l).acked = (x.acked + freed) % 4096
        ∧ (t.link p l).replay = x.replay.drop freed ∧ LinkOnly s t p l ∧ t = { s with fpc := t.fpc, tpl := t.tpl, out := t.out, regs := t.regs }
        ∧ t.rd R.fpcRetry = (if hdrRetry hdr then min 0xFFFFFFFF (s.rd R.fpcRetry + (sent - freed)) else s.rd R.fpcRetry)
        ∧ ∀ a, a ≠ R.fpcRetry → t.rd a = s.rd a)))
    ∧ ((s.mce.fenced = true ∨ x.st.carries = false) → ∀ ue, Goes (.idle p l hdr ue tag) s (fun t => t = s))

/-- Each flit passing its link: SYNC with a counter above every one accepted makes the count one more than it carries, and under the new key of a rekey it
ends the old key. CREDIT adds its entries, the first flit of an advertisement in place of those held, and every holder's credits on every VC become
the larger of the partner's part for its slice and what is in flight. ABORT for a local slice of that port, with a tick earlier than any held, is
held, counted and raised in class 3; one with a later tick changes nothing but the link, and one with a reserved field set is a protocol discard.
(12_buffers_credits_conservation.md, 14_fabric_security_and_abort.md) -/
def Obligations.FlitsOfTheLinkItselfAct : Prop :=
  ∀ (s : State) (p l hdr : Nat) (tag : List Byte), p < 8 →
    (∀ ctr, s.Accepts p l hdr (zeros 224 ++ leBytes 8 ctr) tag true → hdrType hdr = 1 →
      ((s.link p l).oldKey = false → (s.link p l).rxCtr ≤ ctr → Goes (.sync p l hdr ctr false tag) s (fun t =>
        (t.link p l).rxCtr = ctr + 1 ∧ (t.link p l).rxSeq = (s.link p l).rxSeq ∧ LinkOnly s t p l ∧ t = { s with regs := t.regs, spn := t.spn, tpl := t.tpl, fpc := t.fpc, out := t.out }))
      ∧ ((s.link p l).oldKey = true → bit hdr 7 = (s.link p l).keysel → Goes (.sync p l hdr ctr false tag) s (fun t =>
        (t.link p l).rxCtr = ctr + 1 ∧ (t.link p l).oldKey = false ∧ (t.link p l).keyPrev = [] ∧ (t.link p l).rekey = 0 ∧ LinkOnly s t p l ∧ t = { s with regs := t.regs, spn := t.spn, tpl := t.tpl, fpc := t.fpc, out := t.out })))
    ∧ (∀ i entries, s.Accepts p l hdr (creditPayload i (entries.take 6)) tag false → hdrType hdr = 4 → (∀ d ∈ s.slices, d.slice < 64) →
      Goes (.credit p l hdr i entries false tag) s (fun t =>
        (tget (dflt []) t.fpc.entries (4 * p + l)).map (fun e => (e.1, e.2.1))
          = (if i = 0 then [] else (tget (dflt []) s.fpc.entries (4 * p + l)).map (fun e => (e.1, e.2.1))) ++ (entries.take 6).map (fun e => (e.1, e.2.1))
        ∧ (∀ h ∈ s.fabHolders p, ∀ v < 8, let c := t.fab p l v h
            c.txGranted = max (t.peerPart p l v h) c.txOut ∧ c.txHeld = c.txGranted - c.txOut)
        ∧ (i = 0 → ∀ h v e, v < 8 → (entries.take 6).find? (fun e => e.1 == (s.sdef h).elim 0 SliceDef.fsliceId) = some e →
            t.peerPart p l v h = e.2.2.getD v 0 % 2 ^ 24)
        ∧ (t.link p l).rxSeq = (hdrSeq hdr + 1) % 4096 ∧ LinkOnly s t p l ∧ t = { s with regs := t.regs, spn := t.spn, tpl := t.tpl, fpc := t.fpc, out := t.out }))
    ∧ (∀ fslice hops kind x origin res rest d, s.Accepts p l hdr (abortPayload fslice hops kind res x origin rest) tag false → hdrType hdr = 7 → x ≠ 0 →
      s.fabSlice fslice = some d → bit d.fabMask p = true →
      let c : Instr := .abort p l hdr fslice hops kind x origin res rest false tag
      let clean := res = 0 ∧ rest.all (· == 0) = true
      (clean → (∀ y, s.abortTick d.slice = some y → x < y) → Goes c s (fun t =>
        t.abortTick d.slice = some x ∧ Raised t ⟨3, some d.slice, Sub.fpc, .abortIn fslice x hops kind origin p⟩
        ∧ t.rf R.fpcAbort 15 0 = min 0xFFFF (s.rf R.fpcAbort 15 0 + 1) ∧ t = { s with regs := t.regs, spn := t.spn, tpl := t.tpl, fpc := t.fpc, out := t.out }))
      ∧ (clean → ∀ y, s.abortTick d.slice = some y → y ≤ x → Goes c s (fun t =>
        t.abortTick d.slice = some y ∧ t.spn = s.spn ∧ LinkOnly s t p l ∧ t = { s with regs := t.regs, spn := t.spn, tpl := t.tpl, fpc := t.fpc, out := t.out }))
      ∧ (¬ clean → Goes c s (fun t => t.fpc.abortAt = s.fpc.abortAt ∧ t.spn = s.spn ∧ LinkOnly s t p l
        ∧ t.rf R.fpcLnkcnt 31 16 = min 0xFFFF (s.rf R.fpcLnkcnt 31 16 + 1) ∧ t = { s with regs := t.regs, spn := t.spn, tpl := t.tpl, fpc := t.fpc, out := t.out })))

/-- RD and WR in a packet on VC 1 or 2 that passes, naming an uncontained local slice: the request waits under that slice's tag with all its lines, its
flit slots, as far as the partner held them, occupied; one naming no local slice is answered NO_SLICE and counts a protocol discard. RDRSP, WRACK and
ERR for a request sent on that link end it with result and data; for none they count a protocol discard. SIGNAL on VC 5 brings counter LEN of its
slice to at least AUX. (08_fold_operations.md, 14_fabric_security_and_abort.md) -/
def Obligations.TransactionsAreServed : Prop :=
  ∀ (s : State) (p l hdr : Nat) (tag : List Byte), p < 8 → hdrType hdr = 2 →
    let discard := fun (t : State) => t.rf R.fpcLnkcnt 31 16 = min 0xFFFF (s.rf R.fpcLnkcnt 31 16 + 1)
    (∀ (fslice len addr rtag : Nat) (data : List Byte) (write : Bool), (hdrVc hdr = 1 ∨ hdrVc hdr = 2) → len ≤ 4096 →
      s.Accepts p l hdr (txHeader fslice (if write then 2 else 1) 0 len addr rtag 0 ++ if write then slice data 0 len else []) tag false →
      let c : Instr := if write then .wr p l hdr fslice 0 len addr rtag data false tag else .rd p l hdr fslice 0 len addr rtag false tag
      let n := packetFlits (if write then len else 0)
      let slots := fun (t : State) (h : Nat) => t.fab p l (hdrVc hdr) h
      (∀ d, s.fabSlice fslice = some d → s.contained d.slice = false → 0 < len → Goes c s (fun t =>
        (∃ x, t.fpc.ins = s.fpc.ins ++ [x] ∧ x.sl = d.slice ∧ x.fslice = fslice ∧ x.rtag = rtag ∧ x.addr = addr ∧ x.len = len ∧ x.write = write
          ∧ x.left = (addr + (len - 1)) / 256 - addr / 256 + 1 ∧ x.bad = 0 ∧ x.slots = n)
        ∧ (slots t d.slice).rxOcc = (slots s d.slice).rxOcc + min (slots s d.slice).rxPartner n
        ∧ (slots t d.slice).rxPartner = (slots s d.slice).rxPartner - n
        ∧ t = { s with fpc := t.fpc, tpl := t.tpl, regs := t.regs, out := t.out, spn := t.spn, draws := t.draws, mce := t.mce, fld := t.fld }))
      ∧ (s.fabSlice fslice = none → Goes c s (fun t => t.fpc.ins = s.fpc.ins ∧ t.mce = s.mce ∧ discard t
        ∧ flitOut 2 (hdrVc hdr + 2) (txHeader fslice 5 3 0 addr rtag 0) ∈ (t.link p l).replay)))
    ∧ (∀ (fslice rtag addr result : Nat) (data : List Byte) (d : SliceDef) (o : FabOut), (hdrVc hdr = 3 ∨ hdrVc hdr = 4) → s.fabSlice fslice = some d →
      let asked := fun (ops : List Nat) => s.fpc.out.find? (fun o => o.sent && o.sl == d.slice && o.port == p && o.link == l && o.rtag == rtag && ops.contains o.op)
      let answer := fun (op result : Nat) (data : List Byte) => txHeader fslice op result data.length addr rtag 0 ++ data
      let ends := fun (t : State) (result : Nat) (data : List Byte) => t.fpc.out = s.fpc.out.erase o
        ∧ (⟨.memDone, [o.sl, o.rtag, result], data⟩ : Output) ∈ t.out
      (s.Accepts p l hdr (answer 3 0 data) tag false →
        (asked [1] = some o → Goes (.rdrsp p l hdr fslice addr rtag data false tag) s (fun t => ends t 0 (slice data 0 o.len) ∧ t = { s with regs := t.regs, spn := t.spn, tpl := t.tpl, fpc := t.fpc, out := t.out }))
        ∧ (asked [1] = none → Goes (.rdrsp p l hdr fslice addr rtag data false tag) s (fun t => t.fpc.out = s.fpc.out ∧ discard t ∧ t = { s with regs := t.regs, spn := t.spn, tpl := t.tpl, fpc := t.fpc, out := t.out })))
      ∧ (s.Accepts p l hdr (answer 4 0 []) tag false →
        (asked [2] = some o → Goes (.wrack p l hdr fslice addr rtag false tag) s (fun t => ends t 0 [] ∧ t = { s with regs := t.regs, spn := t.spn, tpl := t.tpl, fpc := t.fpc, out := t.out }))
        ∧ (asked [2] = none → Goes (.wrack p l hdr fslice addr rtag false tag) s (fun t => t.fpc.out = s.fpc.out ∧ discard t ∧ t = { s with regs := t.regs, spn := t.spn, tpl := t.tpl, fpc := t.fpc, out := t.out })))
      ∧ (0 < result → s.Accepts p l hdr (answer 5 result []) tag false →
        (asked [1, 2] = some o → Goes (.err p l hdr fslice result addr rtag false tag) s (fun t => ends t result [] ∧ t = { s with regs := t.regs, spn := t.spn, tpl := t.tpl, fpc := t.fpc, out := t.out }))
        ∧ (asked [1, 2] = none → Goes (.err p l hdr fslice result addr rtag false tag) s (fun t => t.fpc.out = s.fpc.out ∧ discard t ∧ t = { s with regs := t.regs, spn := t.spn, tpl := t.tpl, fpc := t.fpc, out := t.out }))))
    ∧ (∀ fslice len aux d, hdrVc hdr = 5 → len ≤ 255 → s.fabSlice fslice = some d → bit d.fabMask p = true → s.contained d.slice = false →
      s.Accepts p l hdr (txHeader fslice 6 0 len 0 0 aux) tag false →
      Goes (.signal p l hdr fslice 0 len aux false tag) s (fun t => t.syncOf d.slice len = max (s.syncOf d.slice len) (aux % 2 ^ 64)
        ∧ (∀ n k, k < 256 → (n, k) ≠ (d.slice, len) → t.syncOf n k = s.syncOf n k) ∧ t = { s with regs := t.regs, spn := t.spn, tpl := t.tpl, dpa := t.dpa, fpc := t.fpc, out := t.out }))

/-- In training, with a fused fabric domain secret: HELLO with another nonce than this side's own derives session 1's keys for each direction and sends a
CONFIRM, an equal one ends the training with reason 7; a CONFIRM whose tag and HMAC are right completes the keys, any other, and KEYX_TIMEOUT 3,907 tk
after this side's HELLO, end it with 7. In service, with the DRBG running: REKEY_THRESHOLD asks with a fresh nonce where the transmit count is reached
and only notes the receive count, REKEY_TIMEOUT asks again at an epoch boundary, REKEY_REQ and a REKEY_ACK that was asked for switch to the next
session, its KEYSEL and a count from 0; COUNTER_LIMIT takes a link past 2^39 without new keys DOWN. (14_fabric_security_and_abort.md,
15_vault_keys_attestation.md) -/
def Obligations.LinkKeysAreExchanged : Prop :=
  let down := fun (s t : State) (p l : Nat) => (t.link p l).st = .down ∧ (t.link p l).reason = 7 ∧ LinkOnly s t p l
  let keys := fun (s t : State) (p l n : Nat) =>
    let x := t.link p l
    let k := kdf s.fds "LLY-LINK" (s.linkContext x n) 576
    x.session = n ∧ x.keysel = (n % 2 == 1) ∧ x.keyTx = slice k (if x.nonceOwn < x.noncePeer then 0 else 36) 36
      ∧ x.keyRx = slice k (if x.nonceOwn < x.noncePeer then 36 else 0) 36
  let next := fun (s t : State) (p l nonce : Nat) => keys s t p l ((s.link p l).session + 1)
    ∧ (t.link p l).noncePeer = nonce % 2 ^ 256 + 1 ∧ (t.link p l).rekey = 2 ∧ (t.link p l).oldKey = true ∧ (t.link p l).keyPrev = (s.link p l).keyRx
    ∧ (t.link p l).txCtr = 1 ∧ LinkOnly s t p l
  let fresh := fun (s : State) => leNat (slice (Config.random s.draws 32) 0 32)
  let asks := fun (s t : State) (p l : Nat) => (t.link p l).rekey = 1 ∧ (t.link p l).keyAt = s.spn.tick ∧ (t.link p l).nonceOwn = fresh s + 1
    ∧ t.draws = s.draws + 1 ∧ flitOut 5 0 ([3] ++ leBytes 32 (fresh s)) ∈ (t.link p l).replay ∧ LinkOnly s t p l
  ∀ (s : State) (p l hdr nonce fp : Nat) (tag mac : List Byte), p < 8 →
    let x := s.link p l
    (x.st = .training →
      (s.Accepts p l hdr (helloPayload nonce fp) tag true → hdrType hdr = 5 → x.nonceOwn ≠ 0 → x.noncePeer = 0 →
        (x.nonceOwn ≠ nonce % 2 ^ 256 + 1 → s.fds.all (· == 0) = false → Goes (.hello p l hdr nonce fp false tag) s (fun t => keys s t p l 1
          ∧ (t.link p l).noncePeer = nonce % 2 ^ 256 + 1 ∧ (t.link p l).peerFp = fp ∧ flitOut 5 0 ([2] ++ s.confirmMac (t.link p l)) ∈ (t.link p l).replay
          ∧ LinkOnly s t p l ∧ t.draws = s.draws ∧ t = { s with regs := t.regs, spn := t.spn, tpl := t.tpl, fpc := t.fpc, draws := t.draws, out := t.out }))
        ∧ (x.nonceOwn = nonce % 2 ^ 256 + 1 ∨ s.fds.all (· == 0) = true → Goes (.hello p l hdr nonce fp false tag) s (fun t => down s t p l ∧ t = { s with regs := t.regs, spn := t.spn, tpl := t.tpl, fpc := t.fpc, draws := t.draws, out := t.out })))
      ∧ (x.noncePeer ≠ 0 → x.keyed = false → x.oldKey = false →
        (s.Accepts p l hdr ([2] ++ mac) tag true → hdrType hdr = 5 → mac = s.confirmMac x → Goes (.confirm p l hdr mac false tag) s (fun t =>
          (t.link p l).keyed = true ∧ (t.link p l).st = .training ∧ LinkOnly s t p l ∧ t = { s with regs := t.regs, spn := t.spn, tpl := t.tpl, fpc := t.fpc, out := t.out }))
        ∧ (s.mce.fenced = false → (tagsOk x.keyRx x.rxCtr (flitsOf hdr ([2] ++ mac)) tag = false ∨ mac ≠ s.confirmMac x) →
          Goes (.confirm p l hdr mac false tag) s (fun t => down s t p l ∧ t = { s with regs := t.regs, spn := t.spn, tpl := t.tpl, fpc := t.fpc, out := t.out })))
      ∧ (x.nonceOwn ≠ 0 → x.keyed = false → x.keyAt + 3907 ≤ s.spn.tick → Goes (.keyxTimeout p l) s (fun t => down s t p l ∧ t = { s with regs := t.regs, spn := t.spn, tpl := t.tpl, fpc := t.fpc })))
    ∧ (s.vlt.drbgStopped = false →
      (x.st.carries = true → x.rekey = 0 → Goes (.rekeyThreshold p l false) s (fun t => asks s t p l ∧ 2 ^ 39 ≤ (t.link p l).txCtr ∧ t = { s with fpc := t.fpc, draws := t.draws, out := t.out }))
      ∧ (x.rekey = 1 → x.keyAt + 3907 ≤ s.spn.tick → s.spn.tick % 4000 = 0 → Goes (.rekeyTimeout p l) s (fun t => asks s t p l ∧ t = { s with fpc := t.fpc, draws := t.draws, out := t.out }))
      ∧ (s.Accepts p l hdr ([3] ++ leBytes 32 nonce) tag false → hdrType hdr = 5 → Goes (.rekeyReq p l hdr nonce false tag) s (fun t => next s t p l nonce
          ∧ t.draws = s.draws + 1 ∧ (t.link p l).nonceOwn = fresh s + 1 ∧ flitOut 5 0 ([4] ++ leBytes 32 (fresh s)) ∈ (t.link p l).replay ∧ t = { s with regs := t.regs, spn := t.spn, tpl := t.tpl, fpc := t.fpc, draws := t.draws, out := t.out })))
    ∧ (x.st.carries = true → x.rekey = 0 → Goes (.rekeyThreshold p l true) s (fun t =>
        t = s.modLink p l (fun x => { x with rxCtr := max x.rxCtr (2 ^ 39) })))
    ∧ (s.Accepts p l hdr ([4] ++ leBytes 32 nonce) tag false → hdrType hdr = 5 → x.rekey = 1 →
        Goes (.rekeyAck p l hdr nonce false tag) s (fun t => next s t p l nonce ∧ t.draws = s.draws ∧ (t.link p l).nonceOwn = x.nonceOwn ∧ t = { s with regs := t.regs, spn := t.spn, tpl := t.tpl, fpc := t.fpc, out := t.out }))
    ∧ (x.st.carries = true → x.rekey ≠ 2 → (2 ^ 39 ≤ x.txCtr ∨ 2 ^ 39 ≤ x.rxCtr) →
      Goes (.counterLimit p l) s (fun t => down s t p l ∧ Raised t ⟨3, none, Sub.fpc, .portDown p l 7⟩ ∧ t = { s with regs := t.regs, spn := t.spn, tpl := t.tpl, fpc := t.fpc }))

/-- MEMORY_REQUEST to this package with no fence: held in a drain or retraining it waits undecided; else, its slice not contained and no block reset in
force, it is admitted where the filter passes it, one waiting entry for each line, and denied with the first reason that fails, shown in the denial
count and the last-denial register; reason 10 raises nothing, any other a class 3 event. A contained slice's request is answered with an error. One
for the partner on a link of a port its slice holds stands among the requests to that partner and leaves the memory engines alone; on any other port,
and behind the fence, nothing changes. (03_slices_and_binder.md, 04_chuck_and_rebinding.md, 14_fabric_security_and_abort.md,
22_faults_and_recovery.md) -/
def Obligations.RequestsPassTheFilter : Prop :=
  ∀ (s : State) (id0 cls tag addr len : Nat) (write : Bool) (mask : Nat) (data : List Byte) (port aux sub : Nat), 0 < len →
    let id := id0 % 2 ^ 40
    let c := Instr.memoryRequest id0 cls tag addr len write mask data port aux sub
    let k := RClass.ofCode cls
    let lines := linesOf addr len mask data
    let part := write && lines.any (fun l => l.2.1 != 2 ^ 256 - 1 && l.2.1 != 0)
    let verdict := s.filter k tag port aux addr len (!write || part) write
    let held := s.holds k tag port addr len
    let cut := decide (tag < 64) && s.contained tag && !(k == .sav && (s.fsl tag).phase == .capture)
    (s.mce.fenced = true → ∀ far, Goes (c far) s (fun t => t = s))
    ∧ (s.mce.fenced = false → held = true → Goes (c none) s (fun t => ∃ r, t = { s with mce := { s.mce with reqs := s.mce.reqs ++ [r] } } ∧ r.phase = .held
        ∧ r.id = id ∧ r.cls = k ∧ r.tag = tag ∧ r.addr = addr ∧ r.line = len ∧ r.write = write ∧ r.mask = mask ∧ r.data = data ∧ r.port = port
        ∧ r.arrived = s.now sub))
    ∧ (s.mce.fenced = false → held = false → cut = true → Goes (c none) s (fun t => (⟨.memDenied, [id, k.code, tag, 0, addr], []⟩ : Output) ∈ t.out
        ∧ t = { s with mce := { s.mce with colls := t.mce.colls }, fld := t.fld, out := t.out }))
    ∧ (s.mce.fenced = false → held = false → cut = false → s.flt.block = 0 →
      (∀ g, verdict = .pass g → Goes (c none) s (fun t => ∃ rs, t = { s with mce := { s.mce with reqs := s.mce.reqs ++ rs } }
        ∧ rs.map (fun r => (r.addr, r.mask, r.data)) = lines
        ∧ ∀ r ∈ rs, r.id = id ∧ r.cls = k ∧ r.tag = tag ∧ r.write = write ∧ r.phase = .waiting ∧ r.arrived = s.now sub ∧ r.port = port))
      ∧ (∀ reason, verdict = .deny reason → Goes (c none) s (fun t =>
        (⟨.memDenied, [id, k.code, tag, reason, addr], []⟩ : Output) ∈ t.out
        ∧ t.rd R.bndDenyCnt = min 0xFFFFFFFF (s.rd R.bndDenyCnt + 1) ∧ t.rd R.bndDenyLast = (reason + 16 * k.code + 256 * tag) % 2 ^ 32
        ∧ (reason = 10 → t.spn = s.spn)
        ∧ (reason ≠ 10 → ∃ e, Raised t e ∧ e.cls = 3 ∧ e.src = Sub.bnd ∧ e.sl = if reason = 9 ∨ 64 ≤ tag then none else some tag)
        ∧ t = { s with mce := { s.mce with colls := t.mce.colls }, fld := t.fld, regs := t.regs, spn := t.spn, out := t.out })))
    ∧ (∀ p l qcls rtag d, s.mce.fenced = false → p < 8 → s.sdef tag = some d →
      (bit d.fabMask p = true → s.contained tag = false → len ≤ 4096 → l < s.nLinks p → Goes (c (some (p, l, qcls, rtag))) s (fun t =>
        (∃ o ∈ t.fpc.out, o.sl = tag ∧ o.port = p ∧ o.link = l ∧ o.rtag = rtag % 65536 ∧ o.op = (if write then 2 else 1)
          ∧ o.vc = (if qcls < 2 then 1 else 2) ∧ o.addr = addr ∧ o.len = len)
        ∧ t = { s with fpc := t.fpc, tpl := t.tpl, bwr := t.bwr, out := t.out }))
      ∧ (bit d.fabMask p = false → Goes (c (some (p, l, qcls, rtag))) s (fun t => t = s)))

/-- REQUEST_ISSUE of a regulator whose next request r may issue, q being r under the KeyID its line has now: a write with no byte enabled is done at once;
one under an entry without keys is answered with an error and a block-level class 3 event; a full line is encrypted under the entry's keys at its
physical address, sent and done, the scrubber's as zeros; a read, or a partial write to be merged, is issued now to its controller with the slot its
tag's cache holds; the merged line of a partial write is encrypted and sent and waits to be delivered. A request the bucket does not cover stays, and
nothing changes. (05_memory_crypt.md, 11_bandwidth_and_timing_isolation.md) -/
def Obligations.LinesLeaveTheRegulator : Prop :=
  ∀ (s : State) (tag k sub : Nat), k < 8 → s.mce.fenced = false → (s.mce.remark = false ∨ tag ≠ 0xFF) →
    let now := s.now sub
    let ws := s.mce.reqs.filter (fun r => r.phase == .waiting && r.tag == tag && stackOf r.grain == k && s.engineTakes r)
    let cost := fun (r : MemReq) => if r.write && r.mask = 0 then 0 else lineCharge
    let may := fun (d : SliceDef) (r : MemReq) =>
      mayIssue d.teff (rampLevel d.teff (now - r.arrived)) (s.regul tag k).bucket (s.depth tag k) (cost r)
    let next := fun (r : MemReq) => (∃ d, s.sdef tag = some d ∧ nextIssue d.teff now ws = some r ∧ may d r = true)
      ∨ (s.sdef tag = none ∧ tag = 0xFF ∧ (tget (dflt (0, 0)) s.bwr.qlvl k).1 < 4 ∧ nextIssue 0 now ws = some r)
    let c : Instr := .requestIssue tag k sub
    (∀ r, next r →
      let q := s.keyed r
      let sent := fun (t : State) (d : List Byte) =>
        (⟨.memIssue, [r.id, r.grain, r.line, 1, s.dataPort r.grain r.line], lineEnc (s.key q.keyid).keys r.pa d⟩ : Output) ∈ t.out
      (r.write = true → r.mask = 0 → Goes c s (fun t => r ∉ t.mce.reqs ∧ (⟨.memDone, [r.id, r.addr, 0], []⟩ : Output) ∈ t.out ∧ t.bwr = s.bwr ∧ t.spn = s.spn))
      ∧ ((r.write = false ∨ r.mask ≠ 0) → (s.key q.keyid).live = false → Goes c s (fun t => r ∉ t.mce.reqs
        ∧ (⟨.memDenied, [r.id, r.cls.code, r.tag, 0, r.addr], []⟩ : Output) ∈ t.out ∧ Raised t ⟨3, none, Sub.mce, .fault (FaultEv.base 0x41 5 [])⟩ ∧ t.bwr = s.bwr))
      ∧ ((s.key q.keyid).live = true →
        (r.write = true → r.mask = 2 ^ 256 - 1 → r.res ≠ .ok → Goes c s (fun t => r ∉ t.mce.reqs ∧ (⟨.memDone, [r.id, r.addr, 0], []⟩ : Output) ∈ t.out
          ∧ sent t (if r.cls = .scr then zeros 256 else r.data) ∧ t.spn = s.spn))
        ∧ ((r.write = false ∨ r.mask ≠ 0 ∧ r.mask ≠ 2 ^ 256 - 1 ∧ r.res ≠ .ok) → Goes c s (fun t =>
          (∃ pre, { q with phase := .issued, issued := now, slot := s.cachedSlot r.tag r.grain r.line, pre := pre } ∈ t.mce.reqs)
          ∧ (⟨.memIssue, [r.id, r.grain, r.line, 0, s.dataPort r.grain r.line], []⟩ : Output) ∈ t.out ∧ t.spn = s.spn))
        ∧ (r.write = true → r.mask ≠ 0 → r.res = .ok → r.cls ≠ .scr → Goes c s (fun t => { r with phase := .ready } ∈ t.mce.reqs ∧ sent t r.data ∧ t.spn = s.spn))))
    ∧ (∀ d r, s.sdef tag = some d → nextIssue d.teff now ws = some r → may d r = false → Goes c s (fun t => t = s))
    ∧ (∀ d, s.sdef tag = some d → nextIssue d.teff now ws = none → Goes c s (fun t => t = s))

/-- MEM_RESPONSE for an issued request r, no fence standing: the first matching row of its slot, the one it was issued with or the fetched line's, gives
the line's data, 256 zeros or POISONED. A read with data is held ready with its lateness; a partial write has its bytes merged and waits to be
written. A poisoning not yet known is raised in class 3; a tag mismatch with clean ECC drops the request, sets the fence and raises the security halt.
READ_DELIVERY at or after issue + 10,240 answers and removes it, and before changes nothing. MEM_TIMEOUT after the watchdog's time makes it ready with
an error and raises the TASK fault of its slice, if not contained. A walk's line moves its watermark on, with data goes out under the new KeyID, and
with a tag mismatch halts. (05_memory_crypt.md, 11_bandwidth_and_timing_isolation.md, 22_faults_and_recovery.md) -/
def Obligations.LinesAreResolvedAndDelivered : Prop :=
  ∀ (s : State) (id addr sub : Nat), s.mce.fenced = false →
    let now := s.now sub
    let late := fun (r : MemReq) => decide (r.tag < 64) && decide (r.issued + 10240 < now)
    let issued := s.mce.reqs.find? (fun r => r.id == id && r.addr == addr && r.phase == .issued)
    (∀ r tagEcc tagLine dataEcc cipher, issued = some r →
      let got := resolve s.markKey (s.key r.keyid).keys r.keyid r.pa (if r.slot.isSome then 0 else tagEcc)
        (r.slot.getD (tagLine.getD (slotOf r.line) 0)) dataEcc cipher
      let known := s.cachedSlot r.tag r.grain r.line = some (poisonMark s.markKey r.pa)
      let good := fun (t : State) (d : List Byte) => t.spn = s.spn
        ∧ (if r.write then { r with phase := .waiting, res := .ok, data := mergeBytes r.mask r.data d }
            else { r with phase := .ready, res := .ok, data := d, late := late r }) ∈ t.mce.reqs
      let bad := fun (t : State) => { r with phase := .ready, res := .poisoned, data := [], late := late r } ∈ t.mce.reqs
      Goes (.memResponse id addr tagEcc tagLine dataEcc cipher sub) s (fun t =>
        (match got with
          | .plain d => good t d
          | .zeros => good t (zeros 256)
          | .wasPoison | .poisonTagLine => bad t
          | .poison cause => bad t ∧ (¬ known → ∃ e, Raised t e ∧ e.cls = 3 ∧ e.body = .linePoison r.grain r.line (slotEngine r.grain r.line) cause)
          | .halt => r ∉ t.mce.reqs ∧ t.mce.fenced = true
              ∧ Raised t ⟨1, none, Sub.mce, .secHalt (if r.write then 2 else 1) (s.dataPort r.grain r.line) r.tag r.grain r.line⟩)
        ∧ t = { s with regs := t.regs, spn := t.spn, mce := t.mce, bwr := t.bwr, hfp := t.hfp, evr := t.evr, out := t.out }))
    ∧ (∀ r, s.mce.reqs.find? (fun r => r.id == id && r.addr == addr && r.phase == .ready) = some r →
      (r.issued + 10240 ≤ now → Goes (.readDelivery id addr sub) s (fun t =>
        (⟨.memDone, [r.id, r.addr, match r.res with | .ok => 0 | .poisoned => 1 | _ => 2], if r.write then [] else r.data⟩ : Output) ∈ t.out
        ∧ t.mce.reqs = s.mce.reqs.filter (· != r) ∧ t = { s with mce := t.mce, bwr := t.bwr, fld := t.fld, fpc := t.fpc, ccx := t.ccx, out := t.out }))
      ∧ (now < r.issued + 10240 → Goes (.readDelivery id addr sub) s (fun t => t = s)))
    ∧ (∀ r, issued = some r → r.issued + 4096 * max 16 (s.rf R.fltWdMem 15 0) ≤ now → Goes (.memTimeout id addr sub) s (fun t =>
        { r with phase := .ready, res := .error, data := [], late := late r } ∈ t.mce.reqs
        ∧ ((64 ≤ r.tag ∨ s.contained r.tag = false) → ∃ e f, Raised t e ∧ e.cls = 3 ∧ e.src = Sub.mce ∧ e.body = .fault f ∧ f.kind = 0x11 ∧ f.scope = 1
            ∧ f.da = s.dataPort r.grain r.line ∧ f.addr = r.addr)
        ∧ t = { s with regs := t.regs, spn := t.spn, mce := t.mce, bwr := t.bwr, hfp := t.hfp, evr := t.evr }))
    ∧ (∀ n w x tagEcc tagLine dataEcc cipher, id = walkId n → issued = none → tget (dflt none) s.mce.walks n = some w →
      w.reads.find? (fun x => x.grain * 2 ^ 21 + x.line * 256 == addr) = some x →
      let got := resolve s.markKey (s.key w.old).keys w.old addr (if x.slot.isSome then 0 else tagEcc) (x.slot.getD (tagLine.getD (slotOf x.line) 0)) dataEcc cipher
      Goes (.memResponse id addr tagEcc tagLine dataEcc cipher sub) s (fun t =>
        (∀ d, got = .plain d → (⟨.memIssue, [id, x.grain, x.line, 1, s.dataPort x.grain x.line], lineEnc (s.key w.new).keys addr d⟩ : Output) ∈ t.out)
        ∧ (got = .halt → t.mce.fenced = true ∧ Raised t ⟨1, none, Sub.mce, .secHalt 1 (s.dataPort x.grain x.line) n x.grain x.line⟩)
        ∧ (∃ w', tget (dflt none) t.mce.walks n = some w' ∧ tget (dflt 0) w'.marks x.eng = tget (dflt 0) w.marks x.eng + 1) ∧ t = { s with regs := t.regs, spn := t.spn, mce := t.mce, bwr := t.bwr, hfp := t.hfp, evr := t.evr, out := t.out }))

/-- FAILED_REGION inside a stack's data lines poisons by a class 3 event exactly the grains with a line there, and one of all its lines is a failure of
the stack. A stack's controllers at level 7 for 4,000 tk are one as well; any other level is noted. SCRUB_START of the grain its stack's order names,
none there being scrubbed, and SCRUB_DONE of a SCRUBBING one whose lines are all written raise the class 6 event (class 3 for a bad one).
REKEY_GRAIN_DONE, with all 32 engines past the grain at the head of its stack's list, gives it the new KeyID, and the last one zeroises the old key
and raises its retirement. (03_slices_and_binder.md, 04_chuck_and_rebinding.md, 05_memory_crypt.md, 25_boundary_signals.md) -/
def Obligations.MemoryReportsRaiseEvents : Prop :=
  ∀ s : State,
    (∀ k first last, k < 8 → first ≤ last → last < stackGrains * 8192 →
      Goes (.failedRegion k first last) s (fun t =>
        let g := fun l => if bit (s.rd R.chkMode) 1 then l / 1024 else k * stackGrains + l / 8192
        t = s.raise ⟨3, none, Sub.bnd, .grainPoison (g first) (g last + 1 - g first) 8⟩))
    ∧ (∀ k, k < 8 → Goes (.failedRegion k 0 301989887) s (fun t =>
        Raised t ⟨3, none, Sub.bnd, .fault { FaultEv.base 0x21 3 [] with sub := 2, da := k }⟩ ∧ t = { s with regs := t.regs, spn := t.spn }))
    ∧ (∀ k v, k < 8 → v < 8 →
      let q := tget (dflt (0, 0)) s.bwr.qlvl k
      ((v ≠ 7 ∨ q.1 ≠ 7) → Goes (.stackQueueLevelHold k v) s (fun t => tget (dflt (0, 0)) t.bwr.qlvl k = (v, s.spn.tick)
        ∧ t = { s with bwr := { s.bwr with qlvl := t.bwr.qlvl } }))
      ∧ (v = 7 → q.1 = 7 → q.2 + 4000 ≤ s.spn.tick → Goes (.stackQueueLevelHold k v) s (fun t =>
        Raised t ⟨3, none, Sub.bwr, .fault { FaultEv.base 0x21 3 [] with sub := 1, da := k }⟩ ∧ t = { s with regs := t.regs, spn := t.spn, bwr := t.bwr })))
    ∧ (∀ g, s.nextScrub (stackOf g) = some g → s.scrubBusy (stackOf g) = false → Goes (.scrubStart g) s (fun t =>
        Raised t ⟨6, none, Sub.bnd, .scrubStart g⟩ ∧ t = { s with regs := t.regs, spn := t.spn }))
    ∧ (∀ g, s.nextScrub (stackOf g) ≠ some g → Goes (.scrubStart g) s (fun t => t = s))
    ∧ (∀ g bad, (s.grain g).st = .scrubbing → tget (dflt 0) s.bnd.scrub g = 8192 → Goes (.scrubDone g bad) s (fun t =>
        Raised t (if bad then ⟨3, none, Sub.bnd, .scrubBad g⟩ else ⟨6, none, Sub.bnd, .scrubDone g⟩) ∧ t = { s with regs := t.regs, spn := t.spn }))
    ∧ (∀ n k w g rest, tget (dflt none) s.mce.walks n = some w → tget (dflt []) w.left k = g :: rest →
      ((s.grain g).st = .owned → (s.grain g).owner = n → ∀ e < 32, tget (dflt 0) w.marks (32 * k + e) = 256) → Goes (.rekeyGrainDone n k) s (fun t =>
        t.grain g = (if (s.grain g).st = .owned ∧ (s.grain g).owner = n then { s.grain g with keyid := w.new } else s.grain g)
        ∧ (∀ h, h ≠ g → t.grain h = s.grain h)
        ∧ (∃ w', tget (dflt none) t.mce.walks n = some w' ∧ tget (dflt []) w'.left k = rest ∧ w'.old = w.old ∧ w'.new = w.new
            ∧ (w'.count = 0 → Raised t ⟨7, none, Sub.mce, .keyRetire w.old⟩ ∧ (t.key w.old).live = false) ∧ (w'.count ≠ 0 → t.spn = s.spn))
        ∧ t = { s with regs := t.regs, spn := t.spn, bnd := t.bnd, mce := t.mce, fld := t.fld, fpc := t.fpc, out := t.out }))

/-- While the block runs, TILE_READ by a cluster of an uncontained slice, with a format 1 to 6 and no fold: where the filter passes tile and entry, their
lines wait as the cluster's reads; a denial of the tile is counted, shown and raised. A fold read of no pass is answered with an error and raises
FOLD_REQUEST; a format 0, or 7 and more with no fold, answers BAD_FIELD. DIE_CHECK_REPORT at site 2 or 3 with another format or CRC than the tile's,
the injected fault included, counts the mismatch, shows it and raises TILE_CRC; a match only disarms. TCU_INJECT_WRITE in a development state with no
slice sets site and arming, and elsewhere does nothing. (06_tile_check.md, 08_fold_operations.md) -/
def Obligations.CheckSitesAnswer : Prop :=
  ∀ s : State, s.Runs →
    (∀ rid cl taddr caddr img tix variant fmt,
      let sl := (s.cluster cl).owner
      let c := Instr.tileRead rid cl taddr caddr img tix variant fmt
      let may := fun (a n : Nat) => s.filter .cd sl cl 0 a n true false
      (sl < 64 → s.contained sl = false) →
        (1 ≤ fmt → fmt ≤ 6 → s.holds .cd sl cl taddr (tileBytes fmt) = false → s.holds .cd sl cl caddr 8 = false →
          (∀ a b, may taddr (tileBytes fmt) = .pass a → may caddr 8 = .pass b → Goes (c 0) s (fun t => ∃ rs, t.mce.reqs = s.mce.reqs ++ rs
            ∧ rs.map (fun r => r.addr) = (linesOf taddr (tileBytes fmt) 0 [] ++ linesOf caddr 8 0 []).map (fun l => l.1)
            ∧ (∀ r ∈ rs, r.cls = .cd ∧ r.tag = sl ∧ r.port = cl ∧ r.write = false ∧ r.phase = .waiting) ∧ t.spn = s.spn ∧ t = { s with regs := t.regs, spn := t.spn, mce := t.mce, fld := t.fld, out := t.out }))
          ∧ (∀ r b, may taddr (tileBytes fmt) = .deny r → may caddr 8 = .pass b → Goes (c 0) s (fun t =>
            t.rd R.bndDenyLast = (r + 256 * sl) % 2 ^ 32 ∧ t.rd R.bndDenyCnt = min 0xFFFFFFFF (s.rd R.bndDenyCnt + 1)
            ∧ (r ≠ 10 → ∃ e, Raised t e ∧ e.cls = 3 ∧ e.src = Sub.bnd) ∧ t = { s with regs := t.regs, spn := t.spn, mce := t.mce, fld := t.fld, out := t.out })))
        ∧ (∀ fold, fmt ≠ 0 → fold ≠ 0 → s.fld.passes.find? (fun p => p.sl == sl && p.kind == .inFlight && fdId p.desc == fold) = none →
            s.fld.failed.contains (sl, fold) = false → Goes (c fold) s (fun t => (⟨.tile, [rid, cl, 1], []⟩ : Output) ∈ t.out
              ∧ Raised t ⟨3, some sl, Sub.fld, .fault { FaultEv.base 0x03 2 [sl] with cluster := cl, aux := fold, da := tix, addr := variant }⟩
              ∧ t = { s with regs := t.regs, spn := t.spn, mce := t.mce, fld := t.fld, out := t.out }))
        ∧ (∀ fold, (fmt = 0 ∨ fold = 0 ∧ 7 ≤ fmt) → Goes (c fold) s (fun t => t = s.emit .tile [rid, cl, Status.badField] [])))
    ∧ (∀ site cl engine q jgen taskId instr img tix variant fmt crc word ident tile mod, (site = 2 ∨ site = 3) → (s.cluster cl).owner < 64 →
      let v := if ident then 0 else variant
      let armed := bit (s.rd R.tcuInject) 2 && s.rd R.tcuInject % 4 == site
      let own := tileCrc tile tix (tget (dflt 0) s.tcu.dieVer img) v
      let got := if armed then own ^^^ 1 else own
      let c := Instr.dieCheckReport site cl engine q jgen taskId instr img tix variant fmt crc word ident tile mod
      ((word ≠ fmt ∨ got ≠ crc) → Goes c s (fun t =>
        t.rd R.tcuMissCnt = min 0xFFFFFFFF (s.rd R.tcuMissCnt + 1)
        ∧ t.rd R.tcuLast = (site + 4 * img + 16 * fmt + 256 * (s.cluster cl).owner) % 2 ^ 32 ∧ t.rd R.tcuLastTix = tix % 2 ^ 32
        ∧ (∃ e f, Raised t e ∧ e.cls = 3 ∧ e.sl = some (s.cluster cl).owner ∧ e.body = .fault f ∧ f.kind = 0x01 ∧ f.scope = 2 ∧ f.sub = site
            ∧ f.cluster = cl ∧ f.queue = q ∧ f.jgen = jgen ∧ f.taskId = taskId ∧ f.db = crc ∧ f.dc = got ∧ f.da = tix ∧ f.addr = v)
        ∧ t = { s with regs := t.regs, spn := t.spn }))
      ∧ (word = fmt → got = crc → Goes c s (fun t => Writes s t [(R.tcuInject, if armed then s.rd R.tcuInject % 4 else s.rd R.tcuInject)])))
    ∧ (∀ v,
      let dev := s.lcCode = 0 ∨ (s.lcCode ≤ 15 ∧ s.lcCode % 2 = 1) ∨ s.lcCode = 0x11
      (dev → s.slices = [] → Goes (.tcuInjectWrite v) s (fun t => Writes s t [(R.tcuInject, v % 8)]))
      ∧ (¬ dev ∨ s.slices ≠ [] → Goes (.tcuInjectWrite v) s (fun t => t = s)))

/-- A staging command next to start: the first check it fails gives its status, and no bank changes; with none, SLICE_STAGE's definition is the one of its
slice in the loading bank, SLICE_DESTROY's slice is among the destroyed, GRAIN_STAGE's records follow those there, the bank is LOADING and the command
ends with OK. KEY_FIND answers the lowest FREE KeyID from the one asked, at least 1, whose index is not spent, or 0 where there is none.
(04_chuck_and_rebinding.md, 19_commands_slices_security.md) -/
def Obligations.StagingFillsTheLoadingBank : Prop :=
  ∀ (s : State) (e : ExecCmd),
    let l := s.bank s.chk.load
    let n := fieldAt e.entry 0x0C 2
    (Starts s pf0 Op.sliceStage e →
      let checks := firstOf (defChecks e.entry e.slice ++ [badAt (l.destroys.contains e.slice) 0x0C 0])
      (checks = none → Goes .sliceStage s (fun t => Ended t e.ref Status.ok
        ∧ t.bank s.chk.load = { l with st := .loading, defs := l.defs.filter (fun x => x.slice != (defOf e.entry).slice) ++ [defOf e.entry] } ∧ t = { s with chk := t.chk, mbx := t.mbx }))
      ∧ (∀ x, checks = some x → Goes .sliceStage s (fun t => Ended t e.ref x.status ∧ t = { s with mbx := t.mbx })))
    ∧ (Starts s pf0 Op.sliceDestroy e →
      let bad := (s.sdef e.slice).isNone || l.defs.any (fun d => d.slice == e.slice)
      (bad = false → Goes .sliceDestroy s (fun t => Ended t e.ref Status.ok
        ∧ t.bank s.chk.load = { l with st := .loading, destroys := l.destroys.filter (· != e.slice) ++ [e.slice] } ∧ t = { s with chk := t.chk, mbx := t.mbx }))
      ∧ (bad = true → Goes .sliceDestroy s (fun t => Ended t e.ref Status.badField ∧ t = { s with mbx := t.mbx })))
    ∧ (Starts s pf0 Op.grainStage e → n ≠ 0 → l.recs.length + n ≤ 4096 →
      let pods := (s.grainsWhere (fun g => g.st == .owned && g.attr == .pod)).length
        + (lsum ((s.bank 0).recs.map GrainChg.podGiven) + lsum ((s.bank 1).recs.map GrainChg.podGiven))
      (∀ rs, recList e.slice e.data pods 0 n = .inr rs → Goes .grainStage s (fun t => Ended t e.ref Status.ok
        ∧ t.bank s.chk.load = { l with st := .loading, recs := l.recs ++ rs } ∧ t = { s with chk := t.chk, mbx := t.mbx }))
      ∧ (∀ f, recList e.slice e.data pods 0 n = .inl f → Goes .grainStage s (fun t => Ended t e.ref f.status ∧ t = { s with mbx := t.mbx })))
    ∧ (Starts s pf0 Op.keyFind e → n ≤ 1023 → Goes .keyFind s (fun t => t = { s with mbx := t.mbx }
        ∧ ∃ x ∈ (t.mb pf0).exec, x.ref = e.ref ∧ x.done = true ∧ x.status = Status.ok
          ∧ let k := fieldAt x.result 0 2
            let free := fun (j : Nat) => max 1 n ≤ j ∧ j < 1024 ∧ (s.key j).st = .free ∧ (s.key j).dix < 65535
            (k = 0 ∧ ∀ j, ¬ free j) ∨ (free k ∧ (∀ j < k, ¬ free j) ∧ fieldAt x.result 2 2 = (s.key k).dix)))

/-- CHECK, by command or register, of a bank with items not being checked starts its check where no bank is armed; of an empty one the register changes
nothing. CHECK_DONE gives CHECKED, or LOADING with number, slice and grain of the first check that fails. COMMIT and GO, with no bank armed, out of
DEEP, arm a bank with items for its named tick if that is to come, and the other becomes the loading bank; the first new KeyID's key is asked for. An
armed bank that passes waits for blanks. CANCEL empties a bank that does not drain. (04_chuck_and_rebinding.md, 19_commands_slices_security.md) -/
def Obligations.BanksAreCheckedAndArmed : Prop :=
  let result := fun (t : State) (status num sl grain : Nat) =>
    t.rd R.chkResult = (status + 256 * num + 65536 * (sl % 256)) % 2 ^ 32 ∧ t.rd R.chkRgrain = grain % 2 ^ 32
  let free := fun (s : State) (b : Nat) => s.armed = none ∧ (s.bank b).checkAsked = false
  let asked := fun (s t : State) (b : Nat) (cmd : Option CmdRef) => t.bank b = { s.bank b with checkAsked := true, cmd := cmd, since := s.spn.tick }
    ∧ t.bank (1 - b) = s.bank (1 - b)
  let mayArm := fun (s : State) (b named : Nat) => s.lc.gone = false ∧ s.armed = none ∧ s.src.deep = 0 ∧ (s.bank b).checkAsked = false
    ∧ (s.bank b).noItem = false ∧ (named = 0 ∨ s.spn.tick < named)
  let armed := fun (s t : State) (b named : Nat) (cmd : Option CmdRef) => t.chk.load = 1 - b ∧ t.rd R.chkAtLo = 0 ∧ t.rd R.chkAtHi = 0
    ∧ t.bank b = { s.bank b with st := .checking, named := named, since := s.spn.tick, drain := .none, keysWanted := s.newKeys (s.bank b), derived := (s.newKeys (s.bank b)).take 1, cmd := cmd }
    ∧ t.bank (1 - b) = s.bank (1 - b) ∧ t.spn = s.spn
  ∀ (s : State) (b : Nat), b < 2 →
    (s.Runs → free s b → (s.bank b).st ≠ .empty → Goes (.chkCommitCheck b) s (fun t => asked s t b none ∧ t = { s with chk := t.chk }))
    ∧ (s.Runs → free s b → (s.bank b).st = .empty → Goes (.chkCommitCheck b) s (fun t => t = s))
    ∧ (∀ e, Starts s pf0 Op.check e → bankOf e = b → (s.bank b).st ≠ .empty → free s b → Goes .check s (fun t => asked s t b (some e.ref) ∧ t = { s with chk := t.chk, mbx := t.mbx }))
    ∧ ((s.bank b).checkAsked = true → (s.bank b).st ≠ .checking →
      (s.checkBank (s.bank b) false = none → Goes (.checkDone b) s (fun t => (t.bank b).st = .checked ∧ (t.bank b).checkAsked = false ∧ result t 0 0 0 0
        ∧ t.bank (1 - b) = s.bank (1 - b) ∧ t.bnd = s.bnd))
      ∧ (∀ f, s.checkBank (s.bank b) false = some f → Goes (.checkDone b) s (fun t => (t.bank b).st = .loading ∧ (t.bank b).checkAsked = false
        ∧ result t f.status f.num f.slice f.grain ∧ t.bank (1 - b) = s.bank (1 - b) ∧ t.bnd = s.bnd)))
    ∧ ((s.bank b).st = .checking → (s.bank b).isBind = false →
      (s.checkBank (s.bank b) false = none → Goes (.checkDone b) s (fun t => t.bank b = { s.bank b with st := .waitBlank, since := s.spn.tick }
        ∧ result t 0 0 0 0 ∧ t.bnd = s.bnd))
      ∧ (∀ f, s.checkBank (s.bank b) false = some f → Goes (.checkDone b) s (fun t => (t.bank b).st = .loading ∧ (t.bank b).named = 0
        ∧ result t f.status f.num f.slice f.grain)))
    ∧ (∀ e, Starts s pf0 Op.commit e → bankOf e = b → mayArm s b (fieldAt e.entry 0x10 8) →
      Goes .commit s (fun t => armed s t b (fieldAt e.entry 0x10 8) (some e.ref)))
    ∧ (s.Runs → (s.mb pf0).orphan = false → mayArm s b (s.rd R.chkAtLo + 2 ^ 32 * s.rd R.chkAtHi) →
      Goes (.chkCommitGo b) s (fun t => armed s t b (s.rd R.chkAtLo + 2 ^ 32 * s.rd R.chkAtHi) none))
    ∧ ((s.bank b).st ≠ .drain → (s.bank b).st ≠ .deciding → (s.bank b).checkAsked = false → (s.bank b).isBind = false →
      (s.Runs → Goes (.chkCommitCancel b) s (fun t => t.bank b = Bank.init ∧ t.bank (1 - b) = s.bank (1 - b) ∧ t.bnd = s.bnd))
      ∧ (∀ e, Starts s pf0 Op.cancel e → bankOf e = b → (s.bank b).st ≠ .empty → (s.bank b).cmd ≠ some e.ref →
        Goes .cancel s (fun t => t.bank b = Bank.init ∧ t.bank (1 - b) = s.bank (1 - b) ∧ t.bnd = s.bnd ∧ Ended t e.ref Status.ok)))

/-- With bank b armed: BLANKS_READY with nothing awaited starts the drain, saving first where clusters depart; DRAIN_SAVE_DONE goes on to clearing,
CLUSTER_CLEAR_DONE clears the departing clusters and goes on to memory; DRAIN_DONE with no request in flight waits for keys still missing, holds for a
named stamp, or raises the commit; KEYSET_READY of the key being derived goes on to the next, and of the last does the same; of any other it changes
nothing. WAIT_LIMIT_EXPIRY beyond the limit returns it to CHECKED and ends its command with DEFER_MEM. CHK_MODE_WRITE stages the mode, or shows
REJECTED where tenants or images exist. (04_chuck_and_rebinding.md) -/
def Obligations.CommitsDrainInOrder : Prop :=
  let ready := fun (s t : State) (b : Nat) (k : Bank) =>
    if k.named ≠ 0 then t.bank b = { k with drain := .held } ∧ t.spn = s.spn
    else t.bank b = { k with st := .deciding, drain := .raised } ∧ Raised t ⟨5, none, Sub.chk, .commit b⟩
  (∀ (s : State) (b : Nat), s.armed = some b →
    let k := s.bank b
    (k.st = .waitBlank → s.awaited k = 0 → Goes .blanksReady s (fun t => (t.bank b).st = .drain
      ∧ (t.bank b).drain = (if k.departing s = [] then .memory else .saving) ∧ t.bank (1 - b) = s.bank (1 - b) ∧ t = { s with regs := t.regs, spn := t.spn, bnd := t.bnd, chk := t.chk, mce := t.mce, fld := t.fld, pcm := t.pcm, dpa := t.dpa, out := t.out }))
    ∧ (k.drain = .saving → Goes .drainSaveDone s (fun t => t.bank b = { k with drain := .clearing, since := s.spn.tick }
      ∧ t.bank (1 - b) = s.bank (1 - b) ∧ t = { s with chk := t.chk, dpa := t.dpa, mbx := t.mbx }))
    ∧ (k.drain = .clearing → Goes .clusterClearDone s (fun t => t.bank b = { k with drain := .memory, since := s.spn.tick }
      ∧ (∀ p ∈ k.departing s, (t.cluster p.2).cleared = true ∧ (t.cluster p.2).groups = []) ∧ t.bank (1 - b) = s.bank (1 - b) ∧ t = { s with regs := t.regs, chk := t.chk, mce := t.mce, fld := t.fld, dpa := t.dpa }))
    ∧ (k.drain = .memory → s.drainBusy k = false →
      (k.keysWanted ≠ [] → Goes .drainDone s (fun t => t.bank b = { k with drain := .keys } ∧ t = { s with chk := t.chk }))
      ∧ (k.keysWanted = [] → Goes .drainDone s (fun t => ready s t b k ∧ t = { s with regs := t.regs, spn := t.spn, chk := t.chk })))
    ∧ (∀ i rest, k.keysWanted = i :: rest → s.vlt.drbgStopped = false →
      (rest = [] → k.drain = .keys → Goes (.keysetReady i) s (fun t => ready s t b { k with keysWanted := [] } ∧ t = { s with regs := t.regs, spn := t.spn, chk := t.chk, mce := t.mce }))
      ∧ ((rest ≠ [] ∨ k.drain ≠ .keys) → Goes (.keysetReady i) s (fun t =>
        t.bank b = { k with keysWanted := rest, derived := k.derived ++ rest.take 1 } ∧ t.bank (1 - b) = s.bank (1 - b) ∧ t = { s with regs := t.regs, spn := t.spn, chk := t.chk, mce := t.mce })))
    ∧ (∀ i, k.keysWanted.head? ≠ some i → Goes (.keysetReady i) s (fun t => t = s))
    ∧ (k.st = .waitBlank → k.isBind = false → s.rf R.chkWaitLimit 15 0 ≠ 0 → k.since * 4 + s.rf R.chkWaitLimit 15 0 * 15625 < s.spn.tick * 4 →
      Goes .waitLimitExpiry s (fun t => t.bank b = { k with st := .checked, named := 0, keysWanted := [], derived := [], cmd := none }
        ∧ t.rd R.chkResult = Status.deferMem ∧ t.bnd = s.bnd ∧ ∀ r, k.cmd = some r → (∃ e ∈ (s.mb r.fn).exec, e.ref = r ∧ e.done = false) →
          Ended t r Status.deferMem)))
  ∧ (∀ (s : State) (v : Nat), s.Runs → v < 4 →
    let staged := match (s.bank s.chk.load).rws.find? (fun e => e.1 == R.chkMode) with | some e => e.2 | none => s.viewed R.chkMode
    let busy := (List.range 4).any (fun i => (s.image i).bound) || !(s.grainsWhere (fun e => e.st == .owned && e.owner < 64)).isEmpty
    ((bits v 1 1 = bits staged 1 1 ∨ busy = false) → Goes (.chkModeWrite v) s (fun t => t = s.stageReg R.chkMode v ∧ (R.chkMode, v) ∈ (t.bank s.chk.load).rws))
    ∧ (bits v 1 1 ≠ bits staged 1 1 → busy = true → Goes (.chkModeWrite v) s (fun t => Writes s t [(R.chkMode, setBits (s.rd R.chkMode) 8 8 1)])))

/-- IN_FLIGHT, COPY, STEP and REDUCE at the turn of a fold queue whose descriptor is of that kind: one that fails a check of its fields ends with that
status, with no pass; one whose pods are resident and agree is admitted as a pass on the unit with the fewest waiting passes, and the queue's turn
goes on; one naming a pod that is ABSENT or being fetched waits at its turn for all its pods. A queue with nothing at its turn, or a descriptor of
another kind, changes nothing. (07_fold_arithmetic.md, 08_fold_operations.md, 09_pods.md) -/
def Obligations.FoldDescriptorsAreAdmitted : Prop :=
  ∀ (s : State) (sl q : Nat) (k : FoldKind),
    let c : Instr := match k with | .inFlight => .inFlight sl q | .copy => .copy sl q | .step => .step sl q | .reduce => .reduce sl q
    (s.atTurn sl q .fold = none → Goes c s (fun t => t = s))
    ∧ (∀ x d, s.atTurn sl q .fold = some (x, d) →
      ((∃ j, fdKindOf d = some j ∧ j ≠ k) → Goes c s (fun t => t = s))
      ∧ (fdKindOf d = some k →
        (∀ f, s.fdCheck sl d = some f → Goes c s (fun t => t.fld = s.fld
          ∧ (∃ w ∈ t.dpa.cpls, w.sl = sl ∧ w.queue = q ∧ w.entry = x.turn ∧ w.data.head? = some (BitVec.ofNat 8 f.status))
          ∧ (t.queue sl q).map Queue.turn = some (x.turn + 1) ∧ t.pcm = s.pcm ∧ t.pending = s.pending))
        ∧ (s.fdCheck sl d = none → x.podFail = 0 →
          (∀ u, (∀ h ∈ fdPods d, ∃ p, s.pod sl h = some p ∧ p.life ≠ .retired ∧ p.res ≠ .absent ∧ p.res ≠ .fetching ∧ (k = .step → p.train = 2)) →
            s.fdPodCheck sl (x.orderOf x.turn) d = none → s.pickUnit sl d = some u → Goes c s (fun t =>
              (∃ p ∈ t.fld.passes, p.sl = sl ∧ p.queue = q ∧ p.entry = x.turn ∧ p.kind = k ∧ p.desc = d ∧ p.unit = u ∧ p.order = x.orderOf x.turn
                ∧ p.tiles = 0 ∧ p.served = 0)
              ∧ (t.queue sl q).map Queue.turn = some (x.turn + 1) ∧ t.dpa.cpls = s.dpa.cpls
              ∧ t = { s with regs := t.regs, spn := t.spn, bnd := t.bnd, mce := t.mce, tpl := t.tpl, fld := t.fld, pcm := t.pcm, dpa := t.dpa, hfp := t.hfp, mbx := t.mbx, draws := t.draws, out := t.out }))
          ∧ ((∀ h ∈ fdPods d, ∃ p, s.pod sl h = some p ∧ p.life ≠ .retired) → (∃ h ∈ fdPods d, ∃ p, s.pod sl h = some p ∧ (p.res = .absent ∨ p.res = .fetching)) →
            Goes c s (fun t => (t.queue sl q).map Queue.waitPods = some (fdPods d) ∧ (t.queue sl q).map Queue.turn = some x.turn
              ∧ t = { s with spn := t.spn, regs := t.regs, dpa := t.dpa })))))

/-- For a pass of an uncontained slice, with no fence. GATHER_END of a gather that is complete or timed out ends it, and reads its tile and checks where
no other is in hand. TILE_FOLD_DONE of a tile that fails FOLD_IN, or whose reads went bad, ends the pass with FAULTED and answers its reads with an
error; a folded variant leaves to every read that asked for it, if the unit's cycles cover it, and is counted; a COPY's folded tile is counted and its
next one read; a REDUCE block's sums stand in its accumulator. STEP_DONE puts the stepped pod in place, and ends STEPPING when its writes are done or
the step was skipped. PASS_DONE of a pass that is done makes its completion and removes it. (06_tile_check.md, 07_fold_arithmetic.md,
08_fold_operations.md) -/
def Obligations.GathersAndTilesAreFolded : Prop :=
  ∀ (s : State) (sl q entry : Nat) (p : Pass), s.passAt sl q entry = some p → s.contained sl = false → s.mce.fenced = false →
    let at' := fun (t : State) (P : Pass → Prop) => ∃ x ∈ t.fld.passes, x.sl = sl ∧ x.queue = q ∧ x.entry = entry ∧ P x
    let cycles := tget (dflt 0) s.fld.cyc (cycKey p.unit p.sl)
    let good := fun (is : List Nat) => ∀ i ∈ is, s.collDone i = true ∧ s.collBad i = 0
    (∀ g tix, p.st = .running → p.ended = none → p.gathers.find? (fun g => g.tix == tix && !g.ended) = some g →
      (fdNvar p.desc ≤ g.variants.length ∨ g.since + fdGather p.desc ≤ s.spn.tick) → Goes (.gatherEnd sl q entry tix) s (fun t =>
        at' t (fun x => ∃ y ∈ x.gathers, y.tix = tix ∧ y.ended = true ∧ y.reads = g.reads ∧ y.out = g.out
          ∧ (g.ids = [] → p.gathers.all (fun y => !y.ended) = true → y.ids ≠ [] ∧ x.baseRead.contains tix = true)) ∧ t = { s with regs := t.regs, spn := t.spn, mce := t.mce, fld := t.fld, out := t.out }))
    ∧ (∀ g, p.st = .running → p.ended = none → p.kind = .inFlight → p.gathers.find? (fun g => g.ended) = some g → g.reads ≠ [] → g.ids ≠ [] →
      (g.out = [] → (∀ i ∈ g.ids, s.collDone i = true) → Goes (.tileFoldDone sl q entry) s (fun t =>
        let hub := s.hubCheck p g.tix (s.collBytes (g.ids.getD 0 0)) (s.collBytes (g.ids.getD 1 0))
        let bad := at' t (fun x => x.ended = some Status.faulted ∧ x.gathers = []) ∧ ∀ y ∈ p.gathers, ∀ r ∈ y.reads, (⟨.tile, [r.rid, r.cluster, 1], []⟩ : Output) ∈ t.out
        ((∃ i ∈ g.ids, s.collBad i ≠ 0) → bad ∧ t.spn = s.spn)
        ∧ (good g.ids → hub.2 = false → bad ∧ ∃ e f, Raised t e ∧ e.cls = 3 ∧ e.sl = some p.sl ∧ e.body = .fault f ∧ f.kind = 0x01 ∧ f.sub = 1 ∧ f.queue = p.queue ∧ f.da = g.tix)
        ∧ (good g.ids → hub.2 = true → t.draws = s.draws + 131072 * g.variants.length) ∧ t = { s with regs := t.regs, spn := t.spn, mce := t.mce, fld := t.fld, draws := t.draws, out := t.out }))
      ∧ (∀ o rest, g.out = o :: rest → o.cost ≤ cycles → Goes (.tileFoldDone sl q entry) s (fun t =>
        (∀ r ∈ g.reads, r.variant = o.v → (⟨.tile, [r.rid, r.cluster, 0, o.crc, if fdRank p.desc = 0 then fdInFmt p.desc else fdOutFmt p.desc,
            if fdRank p.desc = 0 then 1 else 0, fdImage p.desc, g.tix, fdPod p.desc o.v], o.bytes⟩ : Output) ∈ t.out)
        ∧ at' t (fun x => x.tiles = p.tiles + 1 ∧ x.served = p.served + (g.reads.filter (fun r => r.variant == o.v)).length)
        ∧ tget (dflt 0) t.fld.cyc (cycKey p.unit p.sl) = cycles - o.cost ∧ t = { s with regs := t.regs, spn := t.spn, mce := t.mce, fld := t.fld, draws := t.draws, out := t.out }))
      ∧ (∀ o rest, g.out = o :: rest → cycles < o.cost → Goes (.tileFoldDone sl q entry) s (fun t => t = s)))
    ∧ (∀ o rest, p.st = .running → p.ended = none → p.kind = .copy → p.out = o :: rest → o.cost ≤ cycles → Goes (.tileFoldDone sl q entry) s (fun t =>
        at' t (fun x => x.tiles = p.tiles + 1 ∧ x.satNf = p.satNf + o.sat ∧ x.out = []) ∧ t = { s with regs := t.regs, spn := t.spn, mce := t.mce, fld := t.fld, draws := t.draws, out := t.out }))
    ∧ (p.st = .running → p.ended = none → p.kind = .reduce → p.ids ≠ [] → good p.ids → (∀ i ∈ p.ids, i ∉ p.wids) → p.redCost ≤ cycles →
      let srcs := p.ids.map (fun i => words (redBytes p.desc) (s.collBytes i))
      Goes (.tileFoldDone sl q entry) s (fun t => at' t (fun x => x.tiles = p.tiles + 1)
        ∧ tget (dflt []) t.fld.acc (s.accPlace p.sl p.unit (fdAcc p.desc)) = (List.range p.block).map (fun e =>
          reduceElem (bits (fieldAt p.desc 0x10 1) 1 0) (reduceOrder (fdFast p.desc) (s.draws + e) (srcs.map (fun x => x.getD e 0))))
        ∧ t.draws = s.draws + p.block ∧ t = { s with regs := t.regs, spn := t.spn, mce := t.mce, fld := t.fld, draws := t.draws, out := t.out }))
    ∧ (∀ pod, p.kind = .step → p.st = .running → p.ended = none → s.pod sl (fieldAt p.desc 0x10 4) = some pod → pod.life = .stepping →
      let h := fieldAt p.desc 0x10 4
      let r := pod.stepped p.desc (words 4 (s.collBytes (p.ids.getD 0 0)))
      let n := if r.2.1 then 0 else ceilDiv pod.factors.length 16384
      let ends := fun (t : State) (skip tiles : Nat) => at' t (fun x => x.ended = some Status.ok)
        ∧ (∃ e, Raised t e ∧ e.cls = 6 ∧ e.sl = some sl ∧ e.body = .pod sl h PodW.stepEnd [q, entry, skip, tiles] none)
      (p.wids = [] → (p.ids ≠ [] ∨ pod.factors = []) → good p.ids → stepCost p.desc pod.factors.length ≤ cycles → Goes (.stepDone sl q entry) s (fun t =>
        (n ≠ 0 → t.pod sl h = some r.1 ∧ at' t (fun x => x.tiles = n ∧ x.satNf = r.2.2 ∧ x.ended = none))
        ∧ (n = 0 → t.pod sl h = some pod ∧ ends t (if r.2.1 then 1 else 0) 0) ∧ t = { s with regs := t.regs, spn := t.spn, bnd := t.bnd, mce := t.mce, tpl := t.tpl, fld := t.fld, pcm := t.pcm, dpa := t.dpa, hfp := t.hfp, mbx := t.mbx, draws := t.draws, out := t.out }))
      ∧ (p.wids ≠ [] → good (p.ids ++ p.wids) → Goes (.stepDone sl q entry) s (fun t => ends t 0 p.tiles ∧ t.pod sl h = some pod ∧ t = { s with regs := t.regs, spn := t.spn, bnd := t.bnd, mce := t.mce, tpl := t.tpl, fld := t.fld, pcm := t.pcm, dpa := t.dpa, hfp := t.hfp, mbx := t.mbx, draws := t.draws, out := t.out })))
    ∧ (let done := fun (d : List Byte) => Goes (.passDone sl q entry) s (fun t => (∃ w ∈ t.dpa.cpls, w.sl = p.sl ∧ w.queue = p.queue ∧ w.entry = p.entry ∧ w.data = d)
          ∧ (∀ x ∈ t.fld.passes, ¬ (x.sl = sl ∧ x.queue = q ∧ x.entry = entry)) ∧ t.pending = s.pending)
      let wrote := p.ids = [] ∧ p.out = [] ∧ ∀ i ∈ p.wids, s.collDone i = true
      let st := if p.wids.any (fun i => s.collBad i != 0) then Status.faulted else Status.ok
      (∀ st, p.ended = some st → (p.kind = .step → st ≠ Status.ok) → done (p.cpl st false (s.genOf p)))
      ∧ (p.ended = none → p.st = .running → p.kind = .inFlight → fdReads p.desc ≤ p.served → done (p.cpl Status.ok false 0))
      ∧ (p.ended = none → p.st = .running → p.kind = .copy → fdTiles p.desc ≤ p.tiles → wrote → done (p.cpl st false p.podGen))
      ∧ (p.ended = none → p.st = .running → p.kind = .reduce → p.block = 0 → wrote → done (p.cpl st false 0)))

/-- FETCH_START of the first fetch of a slice whose header has been moved in: one failing a check raises the pod's failure; one that finds its units takes
them and asks for its key; else it waits. HUSK_KEY_READY 260 tk later goes on to its section. FETCH_DONE of a section moved in raises the failure of
one that does not open, or whose layer records fail, and else fetched or trained. PROMOTION_DONE with its reads back raises the promotion, or
withdraws it where one went bad; HUSK_WRITE_DONE of a husk moved out ends the put with OK and the pod is saved. SHELF_UE counts and takes the shelf
copy away, FACTOR_ECC counts and faults the slice. (09_pods.md, 15_vault_keys_attestation.md) -/
def Obligations.HusksAreFetchedAndWritten : Prop :=
  let podRaised := fun (t : State) (sl h what : Nat) (args : List Nat) =>
    ∃ e, Raised t e ∧ e.sl = some sl ∧ e.src = Sub.pcm ∧ e.body = .pod sl h what args none
  ∀ (s : State) (sl : Nat),
    (∀ f p, s.pcm.fetches.find? (fun f => f.sl == sl && f.stage < 2) = some f → f.header ≠ [] → 128 ≤ f.moved → s.pod sl f.pod = some p →
      (∀ e, s.fetchChecks sl p f.secT f.header = some e → Goes (.fetchStart sl) s (fun t =>
        podRaised t sl f.pod PodW.failed [e.status, e.detail, if f.secT then 1 else 0] ∧ t.pcm.fetches.length = s.pcm.fetches.length
        ∧ (∃ x ∈ t.pcm.fetches, x.sl = sl ∧ x.pod = f.pod ∧ x.secT = f.secT ∧ x.stage = 4)))
      ∧ (∀ s' u, s.fetchChecks sl p f.secT f.header = none → s.takeRun sl f.units = some (s', u) → Goes (.fetchStart sl) s (fun t =>
        (∃ y, t.pod sl f.pod = some y ∧ (if f.secT then y.runT else y.run) = (u, f.units))
        ∧ (∃ x ∈ t.pcm.fetches, x.sl = sl ∧ x.pod = f.pod ∧ x.secT = f.secT ∧ x.stage = 2 ∧ x.keyAsked = s.spn.tick)))
      ∧ (s.fetchChecks sl p f.secT f.header = none → s.takeRun sl f.units = none → Goes (.fetchStart sl) s (fun t =>
        (∃ x ∈ t.pcm.fetches, x.sl = sl ∧ x.pod = f.pod ∧ x.secT = f.secT ∧ x.stage = 1) ∧ t.bnd.defs = s.bnd.defs)))
    ∧ (∀ f p v h secT, s.pcm.fetches.find? (fun f => f.sl == sl && f.pod == h && f.secT == secT && f.stage == 2) = some f → s.pod sl h = some p →
      s.vfOf sl = some v → f.keyAsked + 260 ≤ s.spn.tick → Goes (.huskKeyReady sl h secT) s (fun t =>
        (∃ x ∈ t.pcm.fetches, x.sl = sl ∧ x.pod = h ∧ x.secT = secT ∧ x.stage = 3) ∧ t = { s with tpl := t.tpl, pcm := t.pcm, hfp := t.hfp, out := t.out }))
    ∧ (∀ f h secT, s.pcm.fetches.find? (fun f => f.sl == sl && f.pod == h && f.secT == secT && f.stage == 3) = some f → f.bytes ≠ [] → f.total ≤ f.moved →
      Goes (.fetchDone sl h secT) s (fun t =>
        (if s.sectionOk sl f.header f.bytes secT = false then podRaised t sl h PodW.failed [Status.checkFailed, 7, if secT then 1 else 0]
            ∧ t.rd R.pcmHuskFail = min 0xFFFFFFFF (s.rd R.pcmHuskFail + 1)
          else if secT then podRaised t sl h PodW.trained []
          else match (s.layersCheck ((s.baseOf sl (huskBase f.header)).getD 0) (huskLayers f.header)
              (s.openSection sl f.header f.bytes false (huskFlen f.header)) (huskFlen f.header - 256 * huskLayers f.header)).1 with
            | some e => podRaised t sl h PodW.failed [e.status, e.detail, 0]
            | none => podRaised t sl h PodW.fetched [])
        ∧ (∃ x ∈ t.pcm.fetches, x.sl = sl ∧ x.pod = h ∧ x.secT = secT ∧ x.stage = 4) ∧ t = { s with regs := t.regs, spn := t.spn, mce := t.mce, fld := t.fld, pcm := t.pcm, evr := t.evr, out := t.out }))
    ∧ (∀ h, s.pcm.promos.contains (sl, h) = true → let ids := tget (dflt []) s.pcm.xfer (podKey sl h)
      (∀ i ∈ ids, s.collDone i = true) → Goes (.promotionDone sl h) s (fun t =>
        ((∀ i ∈ ids, s.collBad i = 0) → podRaised t sl h PodW.promoted [])
        ∧ ((∃ i ∈ ids, s.collBad i ≠ 0) → t.pcm.promos.contains (sl, h) = false ∧ t.spn = s.spn) ∧ t = { s with regs := t.regs, spn := t.spn, mce := t.mce, pcm := t.pcm, mbx := t.mbx }))
    ∧ (∀ j h r p, s.pcm.jobs.find? (fun j => j.sl == sl && j.pod == h && !j.rebase && j.started) = some j → j.cmd = some r → s.pod sl h = some p → j.len ≤ j.moved →
      (∀ a ∈ s.tpl.accs, ¬ (a.use = .huskPut ∧ a.sl = sl ∧ a.a = h ∧ a.sent < a.len)) → (∃ e ∈ (s.mb r.fn).exec, e.ref = r ∧ e.done = false) →
      Goes (.huskWriteDone sl h) s (fun t => Ended t r Status.ok ∧ t.pcm.jobs.length < s.pcm.jobs.length
        ∧ (p.life ≠ .retired → t.pod sl h = some { p with huskAddr := j.addr, huskLen := j.len, savedGen := j.gen, unsaved := false, rebased := false })))
    ∧ (∀ u, let e := s.pcm.pods.find? (fun e => match e.2 with | some p => p.shelf.contains u | none => false)
      Goes (.shelfUe u) s (fun t => t.rd R.pcmFactorUe = min 0xFFFFFFFF (s.rd R.pcmFactorUe + 1)
        ∧ (∀ x, e = some x → podRaised t (x.1 / 2 ^ 32) (x.1 % 2 ^ 32) PodW.unshelved []) ∧ (e = none → t.spn = s.spn) ∧ t = { s with regs := t.regs, spn := t.spn }))
    ∧ (∀ q entry h p, s.passAt sl q entry = some p → Goes (.factorEcc sl q entry h) s (fun t =>
        t.rd R.pcmFactorUe = min 0xFFFFFFFF (s.rd R.pcmFactorUe + 1)
        ∧ (∃ e f, Raised t e ∧ e.cls = 3 ∧ e.sl = some sl ∧ e.body = .fault f ∧ f.kind = 0x04 ∧ f.queue = q ∧ f.da = p.unit ∧ f.addr = h) ∧ t = { s with regs := t.regs, spn := t.spn }))

/-- A pod command next to start: POD_OPEN, POD_PIN, POD_UNPIN, POD_EVICT and POD_CLOSE raise the pod's transition, SLOT_CLAIM and EXPERT_CLAIM a claim in
class 9, the releases in class 6, each naming its command; POD_QUERY answers at once, a POD_PUT of a saved pod answers OK_EMPTY and any other joins
the jobs, POD_REBASE joins them, POD_SET_MODE writes the mask, POD_KEY_BIND asks the vault, and EXPERT_CLAIM of a pod not resident waits for its
fetch. (09_pods.md, 20_commands_pods_jobs_recovery.md) -/
def Obligations.PodCommandsRaiseTheirTransitions : Prop :=
  let ev := fun (s t : State) (e : ExecCmd) (cls : Nat) (b : EvBody) => Raised t ⟨cls, some e.slice, Sub.pcm, b⟩ ∧ t = { s with mbx := t.mbx, spn := t.spn, regs := t.regs }
  ∀ (s : State) (f : Nat) (e : ExecCmd),
    let b := fun o n => fieldAt e.entry o n
    let h := handleOf e
    let away := match s.pod e.slice h with | some p => p.res == .absent || p.res == .fetching | none => false
    (Starts s f Op.podOpen e →
      ((bit (b 0x10 1) 1 = false ∨ bit (b 0x10 1) 0 = true) → b 0x14 4 ≠ 0 → Goes (.podOpen f) s (fun t =>
        ev s t e 8 (.pod e.slice h PodW.opened [b 0x18 8, b 0x14 4, b 0x20 4, b 0x10 1 % 2, bits (b 0x10 1) 1 1] (some e.ref))))
      ∧ (b 0x14 4 = 0 → Goes (.podOpen f) s (fun t => Ended t e.ref Status.badField ∧ t = { s with mbx := t.mbx })))
    ∧ (Starts s f Op.podQuery e →
      (∀ p, s.pod e.slice h = some p → Goes (.podQuery f) s (fun t => t = { s with mbx := t.mbx }
        ∧ ∃ x ∈ (t.mb e.ref.fn).exec, x.ref = e.ref ∧ x.done = true ∧ x.status = Status.ok ∧ fieldAt x.result 0 8 = p.pid % 2 ^ 64 ∧ fieldAt x.result 8 4 = p.gen % 2 ^ 32))
      ∧ (s.pod e.slice h = none → Goes (.podQuery f) s (fun t => Ended t e.ref Status.badField ∧ t = { s with mbx := t.mbx })))
    ∧ (Starts s f Op.podPut e → ∀ p, s.pod e.slice h = some p → p.life ≠ .retired → p.res ≠ .absent → p.res ≠ .fetching → b 0x10 4 ≠ 0 → p.huskSize ≤ b 0x10 4 → (s.vfOf e.slice).isSome = true →
      (p.unsaved = false → Goes (.podPut f) s (fun t => Ended t e.ref Status.okEmpty ∧ t = { s with mbx := t.mbx }))
      ∧ (p.unsaved = true → Goes (.podPut f) s (fun t => (∃ j ∈ t.pcm.jobs, j.sl = e.slice ∧ j.pod = h ∧ j.rebase = false ∧ j.cmd = some e.ref
          ∧ j.addr = b 0x18 8) ∧ t.pod e.slice h = some p)))
    ∧ (Starts s f Op.podPin e → Goes (.podPin f) s (fun t => ev s t e 8 (.pod e.slice h PodW.pin [] (some e.ref))))
    ∧ (Starts s f Op.podUnpin e → Goes (.podUnpin f) s (fun t => ev s t e 6 (.pod e.slice h PodW.unpin [] (some e.ref))))
    ∧ (Starts s f Op.podEvict e → Goes (.podEvict f) s (fun t => ev s t e 6 (.pod e.slice h PodW.evict [b 0x10 1 % 2] (some e.ref))))
    ∧ (Starts s f Op.podClose e → Goes (.podClose f) s (fun t => ev s t e 6 (.pod e.slice h PodW.close [b 0x10 1 % 2] (some e.ref))))
    ∧ (Starts s f Op.podRebase e → ∀ p, s.pod e.slice h = some p → p.life ≠ .retired → p.opt ≠ 0 → p.train = 2 → (s.vfOf e.slice).isSome = true → Goes (.podRebase f) s (fun t =>
        ∃ j ∈ t.pcm.jobs, j.sl = e.slice ∧ j.pod = h ∧ j.rebase = true ∧ j.cmd = some e.ref ∧ j.gen = b 0x10 8))
    ∧ (Starts s f Op.podSetMode e → ∀ p, s.pod e.slice h = some p → p.life ≠ .retired → p.fetched = true → b 0x10 2 ≠ 0 → b 0x10 2 >>> p.layers.length = 0 →
        b 0x12 2 &&& (0xFFFF ^^^ b 0x10 2) = 0 → Goes (.podSetMode f) s (fun t => Ended t e.ref Status.ok
          ∧ t.pod e.slice h = some { p with fmode := (p.fmode &&& (0xFFFF ^^^ b 0x10 2)) ||| b 0x12 2, modes := p.modes ++ [(4096 * s.fld.nextOrder, p.fmode)] } ∧ t = { s with fld := t.fld, pcm := t.pcm, mbx := t.mbx }))
    ∧ (Starts s f Op.podKeyBind e →
      (s.vaultRoom e.slice = true → Goes (.podKeyBind f) s (fun t =>
        t.vlt = { s.vlt with reqs := s.vlt.reqs ++ [⟨e.slice, VW.podRoot, [b 0x0C 1 % 2], e.data, s.spn.tick, none, some e.ref⟩] } ∧ t = { s with mbx := t.mbx, vlt := t.vlt }))
      ∧ (s.vaultRoom e.slice = false → Goes (.podKeyBind f) s (fun t => Ended t e.ref Status.busyRetry ∧ t = { s with mbx := t.mbx })))
    ∧ (Starts s f Op.slotClaim e → (bit (b 0x11 1) 0 = false ∨ b 0x10 1 = 0) → Goes (.slotClaim f) s (fun t => ev s t e 9 (.claim e.slice false 0
        (if bit (b 0x11 1) 0 then 256 else b 0x10 1) h (b 0x13 1 % 4) (b 0x14 4) (some e.ref))))
    ∧ (Starts s f Op.slotRelease e → Goes (.slotRelease f) s (fun t => ev s t e 6 (.release e.slice false 0 (b 0x10 1) 0 (some e.ref))))
    ∧ (Starts s f Op.expertClaim e → s.podGone e = false →
      (away = false → Goes (.expertClaim f) s (fun t =>
        ev s t e 9 (.claim e.slice true (b 0x10 2) (b 0x12 1 % 16) h (b 0x13 1 % 4) (b 0x14 4) (some e.ref))))
      ∧ (away = true → Goes (.expertClaim f) s (fun t => t.pcm = { s.pcm with waits := s.pcm.waits
          ++ [⟨e.slice, h, 2, b 0x10 2, b 0x12 1 % 16, b 0x13 1 % 4, b 0x14 4, some e.ref⟩] } ∧ t = { s with regs := t.regs, spn := t.spn, pcm := t.pcm, mbx := t.mbx })))
    ∧ (Starts s f Op.expertRelease e → Goes (.expertRelease f) s (fun t => ev s t e 6 (.release e.slice true (b 0x10 2) (b 0x12 1 % 16) 0 (some e.ref))))

/-- While the block runs, for a VF that presents a slice, and a queue of it: DOORBELL with 1 to 4,096 raises the event, with more only sets BADDB;
DPA_CQH_WRITE below DEPTH holds the value and moves the head, at or above it changes nothing. COMPLETION_WRITE of the oldest waiting completion, with
room and a host credit, writes it at the tail of the ring, counts it, and releases its entry; of an older generation it is discarded as stale but
counted; with no room it waits. REFUSALS writes the record of the period and starts a new one. (10_dispatch_and_preemption.md, 17_host_functions.md) -/
def Obligations.RingsAreRungAndCompleted : Prop :=
  ∀ (s : State), s.Runs →
    (∀ v n q x, v < 64 → q < 4096 → s.exists v = true → s.presents v = some n → s.queue n q = some x →
      (∀ count, 1 ≤ count → count ≤ 4096 → (s.fn v).reset = false → x.stopped = false → Goes (.doorbell v q count) s (fun t =>
        Raised t ⟨11, some n, Sub.dpa, .doorbell n q count⟩ ∧ t = { s with spn := t.spn, regs := t.regs }))
      ∧ (∀ count, 4096 < count → count < 8192 → (s.fn v).reset = false → Goes (.doorbell v q count) s (fun t =>
        t = s.modQueue n q (fun x => { x with baddb := true })))
      ∧ (∀ h, h < 4096 → h < x.depth → Goes (.dpaCqhWrite v q h) s (fun t => t.rd (vfReg v (V.dpaCqh + 8 * q)) = h
        ∧ t.queue n q = some { x with cqSeen := x.seenBy h } ∧ t = { s with regs := t.regs, dpa := { s.dpa with queues := t.dpa.queues } }))
      ∧ (∀ h, h < 4096 → x.depth ≤ h → Goes (.dpaCqhWrite v q h) s (fun t => t = s)))
    ∧ (∀ n q x c, s.queue n q = some x → s.dpa.cpls.find? (fun c => c.sl == n && c.queue == q) = some c →
      (∀ v, x.cqTail - x.cqSeen < x.depth → x.dying = false → x.stopped = false → s.vfOf n = some v →
        (s.mayWrite v x.gen = true → s.tpl.hostUp = true → 0 < s.tpl.hostHeld → Goes (.completionWrite n q false) s (fun t =>
          (⟨.hostWrite, [v, x.cqAddr + 32 * (x.cqTail % x.depth)], c.data⟩ : Output) ∈ t.out
          ∧ (∃ y, t.queue n q = some y ∧ y.completed = x.completed + 1 ∧ y.cqTail = x.cqTail + 1 ∧ y = { (x.close c.entry) with completed := y.completed, cqTail := y.cqTail })
          ∧ t.dpa.cpls = s.dpa.cpls.erase c ∧ t.tpl.hostHeld = s.tpl.hostHeld - 1 ∧ t = { s with regs := t.regs, spn := t.spn, tpl := t.tpl, dpa := t.dpa, hfp := t.hfp, mbx := t.mbx, out := t.out }))
        ∧ (s.mayWrite v x.gen = false → Goes (.completionWrite n q false) s (fun t =>
          (∃ y, t.queue n q = some y ∧ y.completed = x.completed + 1 ∧ y.cqTail = x.cqTail) ∧ t.dpa.cpls = s.dpa.cpls.erase c ∧ t.out = s.out
          ∧ (t.fn v).stale = min 0xFFFFFFFF ((s.fn v).stale + 1) ∧ t = { s with regs := t.regs, spn := t.spn, tpl := t.tpl, dpa := t.dpa, hfp := t.hfp, mbx := t.mbx, out := t.out })))
      ∧ (x.depth ≤ x.cqTail - x.cqSeen → Goes (.completionWrite n q false) s (fun t => t = s)))
    ∧ (∀ n, let k := tget (dflt 0) s.dpa.refusals n
      (k ≠ 0 → tget (dflt 0) s.dpa.lastRef n + 3906250 ≤ s.spn.tick → Goes (.refusals n) s (fun t =>
        tget (dflt 0) t.dpa.refusals n = 0 ∧ tget (dflt 0) t.dpa.lastRef n = s.spn.tick ∧ t = { s with regs := t.regs, dpa := t.dpa, evr := t.evr }))
      ∧ ((k = 0 ∨ s.spn.tick < tget (dflt 0) s.dpa.lastRef n + 3906250) → Goes (.refusals n) s (fun t => t = s)))

/-- A descriptor at the turn of its queue, with its fence met: RUN with all checks passed and its FDIDs known adds a waiting task, with one it does not
know it fails; JOIN enters the admission queue with fewer than 64 before it and raises its event, its turn held; LEAVE raises its event and passes the
turn; a DMA descriptor starts its transfer and passes the turn. One that fails a check makes a completion with that status and nothing else, and
passes the turn. A DMA descriptor to the host asks the memory for its lines. DMA_DONE with nothing on its way completes the transfer, with a bad read
it completes it FAULTED; when all the reads of a transfer to the host have ended soundly it sends their bytes. (10_dispatch_and_preemption.md) -/
def Obligations.DescriptorsTakeTheirTurn : Prop :=
  let turn := fun (s : State) (sl q : Nat) => (s.queue sl q).map Queue.turn
  let failed := fun (s t : State) (sl q : Nat) (x : Queue) (st : Nat) => turn t sl q = some (x.turn + 1) ∧ t.dpa.tasks = s.dpa.tasks ∧ t.dpa.joins = s.dpa.joins
    ∧ (∃ w, t.dpa.cpls = s.dpa.cpls ++ [w] ∧ w.sl = sl ∧ w.queue = q ∧ w.entry = x.turn ∧ w.data.head? = some (BitVec.ofNat 8 st))
    ∧ t = { s with tpl := t.tpl, hfp := t.hfp, dpa := t.dpa, out := t.out }
  ∀ (s : State) (sl q : Nat) (x : Queue) (d : List Byte),
    (s.atTurn sl q .task = some (x, d) →
      (fieldAt d 0 1 = 1 → (bit (fieldAt d 2 1) 0 = false ∨ s.fenceMet sl q x = true) →
        (∀ st, s.runCheck sl d = some st → Goes (.run sl q) s (fun t => failed s t sl q x st))
        ∧ (s.runCheck sl d = none → (∀ f ∈ runFdids d, s.fdidKnown sl f = true) → Goes (.run sl q) s (fun t => turn t sl q = some (x.turn + 1)
          ∧ (∃ k, t.dpa.tasks = s.dpa.tasks ++ [k] ∧ k.sl = sl ∧ k.queue = q ∧ k.entry = x.turn ∧ k.desc = d ∧ k.st = .waiting ∧ k.cluster = 0xFF
            ∧ k.jgen = x.jgenOf x.turn ∧ k.saves = 0 ∧ k.failed = false) ∧ t.dpa.cpls = s.dpa.cpls ∧ t = { s with tpl := t.tpl, dpa := t.dpa, hfp := t.hfp, out := t.out }))
        ∧ (s.runCheck sl d = none → (∃ f ∈ runFdids d, s.fdidKnown sl f = false ∧ s.fld.failed.contains (sl, f) = true) →
          Goes (.run sl q) s (fun t => failed s t sl q x Status.checkFailed))
        ∧ (s.runCheck sl d = none → (∀ f ∈ runFdids d, s.fdidKnown sl f = true ∨ s.fld.failed.contains (sl, f) = false) → (∃ f ∈ runFdids d, s.fdidKnown sl f = false) →
          Goes (.run sl q) s (fun t => failed s t sl q x Status.badField)))
      ∧ (fieldAt d 0 1 ∉ [1, 2, 3] → (bit (fieldAt d 2 1) 0 = false ∨ s.fenceMet sl q x = true) → Goes (.run sl q) s (fun t => failed s t sl q x (badOp d)))
      ∧ (fieldAt d 0 1 = 2 → (bit (fieldAt d 2 1) 0 = false ∨ s.fenceMet sl q x = true) →
        (∀ st, joinCheck d = some st → Goes (.join sl q) s (fun t => failed s t sl q x st))
        ∧ (joinCheck d = none → (s.admQueue sl).length < 64 → Goes (.join sl q) s (fun t =>
          t.dpa.joins = s.dpa.joins ++ [⟨sl, q, x.turn, d, 0, [], false⟩] ∧ t.queue sl q = some { x with joinHeld := true }
          ∧ Raised t ⟨8, some sl, Sub.dpa, .join sl q x.turn⟩ ∧ t.dpa.cpls = s.dpa.cpls ∧ t = { s with regs := t.regs, spn := t.spn, tpl := t.tpl, dpa := t.dpa, hfp := t.hfp, out := t.out })))
      ∧ (fieldAt d 0 1 = 3 → s.fenceMet sl q x = true →
        (∀ st, leaveCheck d = some st → Goes (.leave sl q) s (fun t => failed s t sl q x st))
        ∧ (leaveCheck d = none → Goes (.leave sl q) s (fun t => turn t sl q = some (x.turn + 1) ∧ Raised t ⟨6, some sl, Sub.dpa, .leave sl q x.turn d⟩
          ∧ t.dpa.cpls = s.dpa.cpls ∧ t.bnd = s.bnd ∧ t = { s with regs := t.regs, spn := t.spn, tpl := t.tpl, dpa := t.dpa, hfp := t.hfp, out := t.out }))))
    ∧ (s.atTurn sl q .dma = some (x, d) → (∀ y ∈ s.dpa.dmas, ¬ (y.sl = sl ∧ y.queue = q)) → (bit (fieldAt d 2 1) 0 = false ∨ s.fenceMet sl q x = true) →
      (fieldAt d 0 1 ∉ [1, 2] → Goes (.toDevice sl q) s (fun t => failed s t sl q x (badOp d)))
      ∧ (∀ c, (fieldAt d 0 1 = 1 ∧ c = Instr.toDevice sl q) ∨ (fieldAt d 0 1 = 2 ∧ c = Instr.toHost sl q) →
        (∀ st, dmaCheck d = some st → Goes c s (fun t => failed s t sl q x st))
        ∧ (dmaCheck d = none → Goes c s (fun t => turn t sl q = some (x.turn + 1) ∧ t.dpa.cpls = s.dpa.cpls
          ∧ (∃ m, t.dpa.dmas = s.dpa.dmas ++ [m] ∧ m.sl = sl ∧ m.queue = q ∧ m.entry = x.turn ∧ m.desc = d
            ∧ m.moved = 0 ∧ m.status = none
            ∧ m.ids.map Prod.snd = if fieldAt d 0 1 = 1 then [] else (linePieces (fieldAt d 0x18 6) (fieldAt d 4 4)).map Prod.snd) ∧ t = { s with regs := t.regs, spn := t.spn, mce := t.mce, tpl := t.tpl, fld := t.fld, dpa := t.dpa, hfp := t.hfp, out := t.out }))))
    ∧ (∀ m y, s.mce.fenced = false → s.dpa.dmas.find? (fun d => d.sl == sl && d.queue == q) = some m → s.queue sl q = some y →
      (let ended := fun (t : State) (st : Nat) => (∃ w, t.dpa.cpls = s.dpa.cpls ++ [w] ∧ w.sl = sl ∧ w.queue = q ∧ w.entry = m.entry
          ∧ w.data.head? = some (BitVec.ofNat 8 st)) ∧ t.dpa.dmas = s.dpa.dmas.filter (fun z => !(z.sl == sl && z.queue == q)) ∧ t = { s with mce := t.mce, tpl := t.tpl, dpa := t.dpa, hfp := t.hfp, out := t.out }
      (m.ids = [] → (∀ a ∈ s.tpl.accs, a.id ≠ m.acc) → Goes (.dmaDone sl q) s (fun t => ended t (m.status.getD Status.ok)))
      ∧ (∀ e es, m.ids = e :: es → fieldAt m.desc 0 1 ≠ 2 → s.collDone e.1 = true → s.collBad e.1 ≠ 0 → Goes (.dmaDone sl q) s (fun t => ended t Status.faulted))
      ∧ (m.ids ≠ [] → fieldAt m.desc 0 1 = 2 → (∀ e ∈ m.ids, s.collDone e.1 = true ∧ s.collBad e.1 = 0) → Goes (.dmaDone sl q) s (fun t =>
        t.dpa.dmas.find? (fun d => d.sl == sl && d.queue == q)
          = some { m with ids := [], moved := (m.ids.flatMap (fun e => s.collBytes e.1)).length, acc := s.tpl.nextAcc, status := none } ∧ t.dpa.cpls = s.dpa.cpls ∧ t = { s with mce := t.mce, tpl := t.tpl, dpa := t.dpa, hfp := t.hfp, out := t.out }))))

/-- PLACEMENT of an uncontained slice that is not parked: the first piece of ready work with a candidate runs there from now, an image restores there.
TASK_END of a running task makes its completion, keeps its scratch as the newest resident group and signals its counter. QUANTUM_EXPIRY where another
queue of its class waits and an image is allowed saves it in the lowest free slot; SAVE_DONE leaves it saved, counted once more, RESTORE_DONE running
from now. SYNC_COUNTER_SET raises a counter and lowers none. (10_dispatch_and_preemption.md) -/
def Obligations.TasksArePlacedAndEnd : Prop :=
  ∀ s : State,
    (∀ sl, s.contained sl = false → (s.sdef sl).isSome = true → tget (dflt ParkSt.none) s.src.park sl = .none →
      let w := s.wake sl
      (∀ k c, (w.workOrder sl).find? (fun t => (w.candidate t).isSome) = some k → w.candidate k = some c → Goes (.placement sl) s (fun t =>
        ∃ y ∈ t.dpa.tasks, y.same k = true ∧ y.cluster = c ∧ y.placedAt = s.spn.tick ∧ y.st = (if k.st = .saved then .restoring else .running) ∧ y.desc = k.desc))
      ∧ ((w.workOrder sl) = [] → Goes (.placement sl) s (fun t => t = w)))
    ∧ (∀ c k, s.taskOn c = some k → s.contained k.sl = false →
      (∀ x, k.st = .running → s.queue k.sl k.queue = some x → Goes (.taskEnd c false) s (fun t =>
        (∃ e, t.dpa.cpls = s.dpa.cpls ++ [e] ∧ e.sl = k.sl ∧ e.queue = k.queue ∧ e.entry = k.entry ∧ e.data.head? = some (BitVec.ofNat 8 Status.ok))
        ∧ t.dpa.tasks = s.dpa.tasks.filter (fun y => !y.same k)
        ∧ (t.cluster c).groups = (if runKeep k.desc = 0 then (s.cluster c).groups else (⟨runKeys k.desc, runKeep k.desc⟩ :: (s.cluster c).groups).take 8)
        ∧ (bit (fieldAt k.desc 0x52 1) 1 = true → t.syncOf k.sl (fieldAt k.desc 0x51 1) = max (s.syncOf k.sl (fieldAt k.desc 0x51 1)) (fieldAt k.desc 0x60 8))
        ∧ (bit (fieldAt k.desc 0x52 1) 1 = false → t.dpa.sync = s.dpa.sync) ∧ t = { s with dpa := t.dpa, mbx := t.mbx })
        ∧ Goes (.taskEnd c true) s (fun t => (∃ e, t.dpa.cpls = s.dpa.cpls ++ [e] ∧ e.entry = k.entry ∧ e.data.head? = some (BitVec.ofNat 8 Status.checkFailed))
          ∧ t.dpa.clusters = s.dpa.clusters ∧ t.dpa.sync = s.dpa.sync ∧ t = { s with dpa := t.dpa, mbx := t.mbx }))
      ∧ (k.st = .running → (s.queue k.sl k.queue).elim true Queue.preemptTask = false →
        let qt := 64 * s.rf (vfReg ((s.vfOf k.sl).getD 0) V.dpaQuantum) 15 0
        let w := s.wake k.sl
        qt ≠ 0 → k.placedAt + qt ≤ s.spn.tick → k ∈ w.dpa.tasks →
        (w.work k.sl).any (fun x => x.queue != k.queue && w.prioOf x == w.prioOf k && runAllows x.desc c
          && !(w.idleClusters k.sl).any (fun j => runAllows x.desc j)) = true →
        w.imageAllowed k.sl = true → Goes (.quantumExpiry c) s (fun t => t = w.startSave k false ∧ ∃ y ∈ t.dpa.tasks, y.same k = true ∧ y.st = .saving
          ∧ y.savedAt = s.spn.tick ∧ some y.slot = w.freeSlot k.sl))
      ∧ (k.st = .saving → k.drain = false → Goes (.saveDone c) s (fun t => (∃ y ∈ t.dpa.tasks, y.same k = true ∧ y.st = .saved ∧ y.saves = k.saves + 1 ∧ y.slot = k.slot)
          ∧ t = { s with dpa := t.dpa, mbx := t.mbx }))
      ∧ (k.st = .restoring → Goes (.restoreDone c) s (fun t => (∃ y ∈ t.dpa.tasks, y.same k = true ∧ y.st = .running ∧ y.placedAt = s.spn.tick)
          ∧ t = { s with bnd := t.bnd, dpa := t.dpa })))
    ∧ (∀ sl k v, k < 256 →
      ((s.sdef sl).isSome = true → s.contained sl = false → Goes (.syncCounterSet sl k v) s (fun t => t.syncOf sl k = max (s.syncOf sl k) (v % 2 ^ 64)
        ∧ (∀ n j, j < 256 → (n, j) ≠ (sl, k) → t.syncOf n j = s.syncOf n j) ∧ t = { s with dpa := { s.dpa with sync := t.dpa.sync } }))
      ∧ (((s.sdef sl).isNone = true ∨ s.contained sl = true) → Goes (.syncCounterSet sl k v) s (fun t => t = s)))

/-- A command next to start: QUEUE_CREATE with a kind, depth and aligned rings the spec admits raises a creation in class 8; QUEUE_DESTROY and QUEUE_FLUSH
raise theirs in class 6, the three operations of QUEUE_SUSPEND in class 10, and SLICE_RESET a slice reset in class 4, each naming its command.
QUEUE_COUNTS and CAPTURE_READ write the counts of the queue and the bytes of the capture or record to the host address given, CAPTURE_READ of one
being taken ends with BUSY_RETRY, and CAPTURE_MODE holds the mode. (10_dispatch_and_preemption.md, 20_commands_pods_jobs_recovery.md,
22_faults_and_recovery.md) -/
def Obligations.QueueAndCaptureCommandsAct : Prop :=
  let ev := fun (s t : State) (e : ExecCmd) (cls src : Nat) (b : EvBody) => Raised t ⟨cls, some e.slice, src, b⟩ ∧ t = { s with mbx := t.mbx, spn := t.spn, regs := t.regs }
  let writes := fun (t : State) (e : ExecCmd) (dst : Nat) (d : List Byte) =>
    ∃ a ∈ t.tpl.accs, a.use = .mbxWrite ∧ a.a = e.ref.id ∧ a.fn = e.ref.fn ∧ a.write = true ∧ a.addr = dst ∧ a.data = d
  ∀ (s : State) (f : Nat) (e : ExecCmd),
    let b := fun o n => fieldAt e.entry o n
    let q := queueOf e
    (Starts s f Op.queueCreate e → let k := b 0x0C 1
      bit (s.rd R.chkMode) 1 = false → 1 ≤ k % 16 → k % 16 ≤ 3 → (bit k 6 = false ∨ k % 16 = 1) → 1 ≤ b 0x0E 2 % 8192 → b 0x0E 2 % 8192 ≤ 4096 →
      b 0x10 8 % 4096 = 0 → b 0x18 8 % 4096 = 0 → Goes (.queueCreate f) s (fun t => ev s t e 8 Sub.dpa (.queueOp e.slice 0 0
        [k % 16, b 0x0E 2 % 8192, bits k 5 4, bits k 6 6, b 0x10 8, b 0x18 8, b 0x0D 1 % 32, e.ref.gen] (some e.ref))))
    ∧ (Starts s f Op.queueCreate e → bit (s.rd R.chkMode) 1 = true → Goes (.queueCreate f) s (fun t => Ended t e.ref Status.notPermitted ∧ t = { s with mbx := t.mbx }))
    ∧ (Starts s f Op.queueDestroy e → Goes (.queueDestroy f) s (fun t => ev s t e 6 Sub.dpa (.queueOp e.slice q 1 [] (some e.ref))))
    ∧ (Starts s f Op.queueFlush e → Goes (.queueFlush f) s (fun t => ev s t e 6 Sub.dpa (.queueOp e.slice q 2 [] (some e.ref))))
    ∧ (Starts s f Op.queueSuspend e →
      (b 0x0E 1 % 4 = 1 → Goes (.suspend f) s (fun t => ev s t e 10 Sub.dpa (.queueOp e.slice q 3 [] (some e.ref))) ∧ Goes (.resume f) s (fun t => t = s))
      ∧ (b 0x0E 1 % 4 = 2 → Goes (.suspendSave f) s (fun t => ev s t e 10 Sub.dpa (.queueOp e.slice q 4 [] (some e.ref))) ∧ Goes (.suspend f) s (fun t => t = s))
      ∧ (b 0x0E 1 % 4 = 3 → Goes (.resume f) s (fun t => ev s t e 10 Sub.dpa (.queueOp e.slice q 5 [] (some e.ref))) ∧ Goes (.suspendSave f) s (fun t => t = s))
      ∧ (b 0x0E 1 % 4 = 0 → Goes (.suspend f) s (fun t => Ended t e.ref Status.badField ∧ t = { s with mbx := t.mbx })))
    ∧ (Starts s f Op.sliceReset e → Goes (.sliceReset f) s (fun t => ev s t e 4 Sub.ccx (.sliceReset e.slice 3 (some e.ref))))
    ∧ (Starts s f Op.captureMode e → let m := b 0x0C 1 % 4
      (m ≠ 3 → (m = 1 → ∀ d, s.sdef e.slice = some d → d.fabMask = 0) → Goes (.captureMode f) s (fun t =>
        Ended t e.ref Status.ok ∧ t.fsl e.slice = { (s.fsl e.slice) with capMode := m } ∧ (∀ n, n ≠ e.slice → t.fsl n = s.fsl n) ∧ t = { s with mbx := t.mbx, flt := t.flt }))
      ∧ (m = 3 → Goes (.captureMode f) s (fun t => Ended t e.ref Status.badField ∧ t = { s with mbx := t.mbx })))
    ∧ (s.mayWrite e.ref.fn e.ref.gen = true →
      (∀ x, Starts s f Op.queueCounts e → s.queue e.slice q = some x → (e.ref.direct = false ∨ b 0x10 8 ≠ 0) → Goes (.queueCounts f) s (fun t =>
        writes t e (b 0x10 8) (s.queueCounts e.slice q x) ∧ t.dpa = s.dpa ∧ t = { s with regs := t.regs, tpl := t.tpl, hfp := t.hfp, mbx := t.mbx, out := t.out }))
      ∧ (∀ c, Starts s f Op.captureRead e → s.captureOf e.slice (b 0x0C 4) = some c → (∀ k, (s.fsl e.slice).capture = some k → k.taking = false) →
        b 0x10 4 + b 0x14 4 ≤ c.2.2.1 → b 0x14 4 ≠ 0 → (e.ref.direct = false ∨ b 0x18 8 ≠ 0) → Goes (.captureRead f) s (fun t =>
        writes t e (b 0x18 8) (c.2.2.2 (b 0x10 4) (b 0x14 4)) ∧ t.flt = s.flt ∧ t = { s with regs := t.regs, tpl := t.tpl, hfp := t.hfp, mbx := t.mbx, out := t.out })))
    ∧ (∀ k, Starts s f Op.captureRead e → (s.fsl e.slice).capture = some k → k.taking = true → b 0x0C 4 = 0 → Goes (.captureRead f) s (fun t =>
        Ended t e.ref Status.busyRetry ∧ t = { s with mbx := t.mbx }))

/-- RECORD_WRITE, while no clear zeroes the SRAM, puts the oldest record of the input queue at the next index, or counts it in FULLDROP when all 65,536
are written. CLEAR_DONE of a clear with nothing being copied leaves the CLEARED record alone, the counters 0 and the freeze as it is. REC_READ and
LOG_READ next to start and within their bounds write the bytes asked for to the address given, REC_READ during the zeroing ends with BUSY_RETRY;
LOG_MASK holds the mask and answers the one before. (20_commands_pods_jobs_recovery.md, 21_control_complex_firmware.md, 24_event_recorder.md) -/
def Obligations.TheRecorderIsWrittenAndRead : Prop :=
  let writes := fun (t : State) (e : ExecCmd) (dst : Nat) (d : List Byte) =>
    ∃ a ∈ t.tpl.accs, a.use = .mbxWrite ∧ a.a = e.ref.id ∧ a.fn = e.ref.fn ∧ a.write = true ∧ a.addr = dst ∧ a.data = d
  ∀ (s : State),
    (∀ r q, s.evr.inq = r :: q → s.recZeroing = false → (s.pins.vddSec = true ∨ s.pins.vbak = true) →
      (s.evr.mem.length < 65535 → Goes .recordWrite s (fun t => t = { s with evr := { s.evr with inq := q, mem := s.evr.mem ++ [r] } }))
      ∧ (s.evr.mem.length = 65535 → Goes .recordWrite s (fun t => t.evr = { s.evr with inq := q, mem := s.evr.mem ++ [r] } ∧ (s.mce.halted = false → bit (t.rd R.irqStat) 9 = true)
        ∧ t = { s with regs := t.regs, hfp := t.hfp, evr := t.evr }))
      ∧ (65536 ≤ s.evr.mem.length → Goes .recordWrite s (fun t => t = { s with evr := { s.evr with inq := q, fulldrop := min 0xFFFFFFFF (s.evr.fulldrop + 1) } })))
    ∧ (s.evr.inq = [] ∨ s.recZeroing = true → Goes .recordWrite s (fun t => t = s))
    ∧ (s.recZeroing = true →
      Goes .clearDone s (fun t => (∃ x, t.evr.mem = [x] ∧ x.kind = 0x71 ∧ x.tick = s.spn.tick ∧ x.d = [s.evr.mem.length, s.evr.fulldrop, s.evr.qdrop, s.evr.rseq])
        ∧ t.evr.rseq = (s.evr.rseq + 1) % 2 ^ 32 ∧ t.evr.fulldrop = 0 ∧ t.evr.qdrop = 0 ∧ t.evr.clearing = false ∧ t.evr.frozen = s.evr.frozen
        ∧ t.evr.inq = s.evr.inq ∧ (∀ r, s.evr.clearCmd = some r → (∃ e ∈ (s.mb r.fn).exec, e.ref = r ∧ e.done = false) → Ended t r Status.ok) ∧ t = { s with mbx := t.mbx, evr := t.evr }))
    ∧ (∀ e, s.mayWrite e.ref.fn e.ref.gen = true → (e.ref.direct = false ∨ fieldAt e.entry 0x18 8 ≠ 0) →
      (Starts s pf0 Op.recRead e → let st := fieldAt e.entry 0x0C 3 % 131072
        let n := fieldAt e.entry 0x10 3 % 131072
        st ≤ 65535 → n ≤ 65536 → s.recZeroing = false → (s.evr.mem.drop st).take n ≠ [] → Goes .recRead s (fun t =>
          writes t e (fieldAt e.entry 0x18 8) (((s.evr.mem.drop st).take n).flatMap EvrRec.bytes) ∧ t = { s with regs := t.regs, tpl := t.tpl, hfp := t.hfp, mbx := t.mbx, out := t.out }))
      ∧ (Starts s pf0 Op.logRead e → let off := fieldAt e.entry 0x0C 4 % 2 ^ 23
        let n := fieldAt e.entry 0x10 4
        n ≠ 0 → off + n ≤ 8388608 → Goes .logRead s (fun t => writes t e (fieldAt e.entry 0x18 8) (s.logBytes off n) ∧ t = { s with regs := t.regs, tpl := t.tpl, hfp := t.hfp, mbx := t.mbx, out := t.out })))
    ∧ (∀ e, Starts s pf0 Op.recRead e → fieldAt e.entry 0x0C 3 % 131072 ≤ 65535 → fieldAt e.entry 0x10 3 % 131072 ≤ 65536 → s.recZeroing = true →
      Goes .recRead s (fun t => Ended t e.ref Status.busyRetry ∧ t = { s with mbx := t.mbx }))
    ∧ (∀ e, Starts s pf0 Op.logMask e → Goes .logMask s (fun t => t.ccx = { s.ccx with logMask := fieldAt e.entry 0x10 8 }
        ∧ (∃ x ∈ (t.mb pf0).exec, x.ref = e.ref ∧ x.done = true ∧ x.status = Status.ok ∧ x.result = slice (leBytes 8 s.ccx.logMask) 0 16) ∧ t = { s with mbx := t.mbx, ccx := t.ccx }))

/-- REC_CTL next to start: OP 1, 2 and 3 raise FREEZE, UNFREEZE and CLEAR in class 12, naming the command, and nothing else changes but what the start of
a command does; OP 0 ends with BAD_FIELD. As the event takes effect with its command waiting: FREEZE of a running recorder freezes it at its stamp
with FRZDROP 0 and ends with OK, of a frozen one ends with OK_EMPTY; UNFREEZE of a frozen one thaws it and ends with OK, of a running one ends with
OK_EMPTY; CLEAR of one that is not frozen ends with BAD_FIELD, and of a frozen one begins, its OK following when CLEAR_DONE ends it. (R447) -/
def Obligations.RecCtlActsInClassTwelve : Prop :=
  let ev := fun (s t : State) (b : EvBody) => Raised t ⟨12, none, Sub.evr, b⟩ ∧ t = { s with mbx := t.mbx, spn := t.spn, regs := t.regs }
  ∀ (s : State),
    (∀ e, Starts s pf0 Op.recCtl e → let op := fieldAt e.entry 0x0C 1 % 4
      (op = 1 → Goes .freeze s (fun t => ev s t (.recFreeze (some e.ref))) ∧ Goes .unfreeze s (fun t => t = s) ∧ Goes .clear s (fun t => t = s))
      ∧ (op = 2 → Goes .unfreeze s (fun t => ev s t (.recThaw (some e.ref))) ∧ Goes .freeze s (fun t => t = s) ∧ Goes .clear s (fun t => t = s))
      ∧ (op = 3 → Goes .clear s (fun t => ev s t (.recClear (some e.ref))) ∧ Goes .freeze s (fun t => t = s) ∧ Goes .unfreeze s (fun t => t = s))
      ∧ (op = 0 → ∀ c ∈ [Instr.freeze, .unfreeze, .clear], Goes c s (fun t => Ended t e.ref Status.badField ∧ t = { s with mbx := t.mbx })))
    ∧ (∀ (r : CmdRef) (stamp due : Nat) (src : Nat) (nums : List Nat) (later : List Ev), (∃ e ∈ (s.mb r.fn).exec, e.ref = r ∧ e.done = false) →
      let applied := fun (b : EvBody) => s.applyEvent ⟨stamp, due, ⟨12, none, src, b⟩, nums, later⟩
      (s.evr.frozen = none →
        applied (.recFreeze (some r)) = { s with evr := { s.evr with frozen := some stamp, frzdrop := 0 }, mbx := (applied (.recFreeze (some r))).mbx }
        ∧ Ended (applied (.recFreeze (some r))) r Status.ok
        ∧ applied (.recThaw (some r)) = { s with mbx := (applied (.recThaw (some r))).mbx } ∧ Ended (applied (.recThaw (some r))) r Status.okEmpty
        ∧ applied (.recClear (some r)) = { s with mbx := (applied (.recClear (some r))).mbx } ∧ Ended (applied (.recClear (some r))) r Status.badField)
      ∧ (s.evr.frozen ≠ none →
        applied (.recFreeze (some r)) = { s with mbx := (applied (.recFreeze (some r))).mbx } ∧ Ended (applied (.recFreeze (some r))) r Status.okEmpty
        ∧ (applied (.recThaw (some r))).evr.frozen = none ∧ Ended (applied (.recThaw (some r))) r Status.ok
        ∧ (s.evr.clearing = false → applied (.recClear (some r)) = { s with evr := { s.evr with clearing := true, clearCmd := some r } })))

/-- BUFFER_ZEROED of a buffer returning makes it free; HOST_CREDIT_RETURN and HOST_LINK_UP give their credits, and requests that wait may use them at
once: held and used together stay what was given. The link going down leaves none. HOST_COMPLETION of a queue's ring read that completes puts the
descriptor at its turn; with an error it raises HOST_ERROR, completes the descriptor with BAD_FIELD and passes the turn. A completion with a tag of no
request only lets waiting requests go on. (12_buffers_credits_conservation.md, 22_faults_and_recovery.md) -/
def Obligations.HostLinkCreditsAreKept : Prop :=
  ∀ s : State,
    (∀ ch h, ch < 112 → h < 256 → (s.bufUse ch h).returning ≠ 0 → Goes (.bufferZeroed ch h) s (fun t =>
      t.bufUse ch h = { s.bufUse ch h with returning := (s.bufUse ch h).returning - 1 } ∧ t.tpl.free = s.tpl.free + 1
      ∧ t = { s with tpl := { s.tpl with use := t.tpl.use, free := t.tpl.free } }))
    ∧ (∀ n, n ≤ s.tpl.hostUsed → Goes (.hostCreditReturn n) s (fun t => t.tpl.hostHeld + t.tpl.hostUsed = s.tpl.hostHeld + s.tpl.hostUsed
        ∧ t.tpl.hostGiven = s.tpl.hostGiven ∧ t = { s with tpl := t.tpl, out := t.out }))
    ∧ (∀ init, s.tpl.hostUp = false → Goes (.hostLinkUp true init) s (fun t => t.tpl.hostUp = true ∧ t.tpl.hostGiven = init
        ∧ t.tpl.hostHeld + t.tpl.hostUsed = init ∧ t = { s with tpl := t.tpl, out := t.out }))
    ∧ (∀ init, s.tpl.hostUp = true → Goes (.hostLinkUp false init) s (fun t =>
        t = { s with tpl := { s.tpl with hostUp := false, hostGiven := 0, hostHeld := 0, hostUsed := 0 } }))
    ∧ (∀ tag stat data, (∀ r ∈ s.tpl.reqs, r.tag ≠ tag) → Goes (.hostCompletion tag stat data) s (fun t => t = s.pumpHost))
    ∧ (∀ tag data r a x, s.tpl.reqs.find? (fun r => r.tag == tag) = some r → s.tpl.accs.find? (fun a => a.id == r.acc) = some a →
      a.use = .ring → a.write = false → s.contained a.sl = false → s.mce.fenced = false → s.queue a.sl a.a = some x → x.reading = true → x.turn = a.b →
      (r.off = 0 → a.len = r.len → a.back = 0 → a.data = [] → Goes (.hostCompletion tag 0 data) s (fun t =>
        t.queue a.sl a.a = some { x with reading := false, fetched := some (slice data 0 r.len) } ∧ t.spn = s.spn ∧ t.bnd = s.bnd))
      ∧ (∀ stat, stat ≠ 0 → Goes (.hostCompletion tag stat data) s (fun t => (t.queue a.sl a.a).map Queue.turn = some (x.turn + 1)
        ∧ (∃ w, t.dpa.cpls = s.dpa.cpls ++ [w] ∧ w.sl = a.sl ∧ w.queue = a.a ∧ w.entry = x.turn ∧ w.data.head? = some (BitVec.ofNat 8 Status.badField))
        ∧ (∃ e f, Raised t e ∧ e.cls = 3 ∧ e.sl = some a.sl ∧ e.body = .fault f ∧ f.kind = 0x12 ∧ f.queue = a.a) ∧ t.bnd = s.bnd)))

/-- While the block runs: VF_ENABLE sets how many VFs exist; a rise or a change of the number advances the GEN of those that exist then, a fall or a
change that of every locked or running VF and puts it in ERROR, by one class 4 event. CONFIG_WRITE of another value holds it, and puts a locked or
running VF in ERROR. FLR of a VF that presents a slice raises that slice's reset in class 4 and puts it under reset, of one that presents none it is
done at once; PF0_FLR takes the VFs and interrupt enables away. MSIX_UNMASK sends a vector that was pending, or counts it stale where host memory is
withheld. (17_host_functions.md) -/
def Obligations.FunctionsFollowTheirConfiguration : Prop :=
  ∀ s : State, s.Runs →
    (∀ en num, num ≤ 64 → Goes (.vfEnable en num) s (fun t => t.hfp.vfEnable = en ∧ t.hfp.numVfs = num
        ∧ (let fns := uniq ((if en = true ∧ (s.hfp.vfEnable = false ∨ s.hfp.numVfs ≠ num) then List.range num else [])
              ++ (if s.hfp.vfEnable = true ∧ en = false ∨ s.hfp.numVfs ≠ num then s.boundVfs else []))
           (fns ≠ [] → Raised t ⟨4, none, Sub.hfp, .genAdvance fns⟩) ∧ (fns = [] → t.spn = s.spn))
        ∧ (s.hfp.vfEnable = true → en = false → ∀ v < 64, (t.fn v).tdisp ≠ .locked ∧ (t.fn v).tdisp ≠ .run)
        ∧ t = { s with tpl := t.tpl, hfp := t.hfp, spn := t.spn, regs := t.regs, out := t.out }))
    ∧ (∀ f r v, s.exists f = true → r < 4 → let w := if r = 2 then v % 2 else if r = 3 then v % 4 else v % 2 ^ 32
      tget (dflt 0) (s.fn f).cfg r ≠ w → Goes (.configWrite f r v) s (fun t => tget (dflt 0) (t.fn f).cfg r = w
        ∧ (r = 3 → (t.fn f).fnMask = bit w 1) ∧ (r ≠ 3 → (t.fn f).fnMask = (s.fn f).fnMask)
        ∧ ((s.fn f).bound = true → f ≠ pf0 → (t.fn f).tdisp = .error ∧ Raised t ⟨4, none, Sub.hfp, .genAdvance [f]⟩)
        ∧ ((s.fn f).bound = false → (t.fn f).tdisp = (s.fn f).tdisp ∧ t.spn = s.spn)
        ∧ t = { s with hfp := t.hfp, spn := t.spn, regs := t.regs, out := t.out }))
    ∧ (∀ v, s.exists v = true → v ≠ pf0 →
        (∀ n, s.presents v = some n → Goes (.flr v) s (fun t => (t.fn v).reset = true ∧ Raised t ⟨4, some n, Sub.hfp, .sliceReset n 2 none⟩
          ∧ (t.fn v).tdisp ≠ .locked ∧ (t.fn v).tdisp ≠ .run ∧ t = { s with hfp := t.hfp, spn := t.spn, regs := t.regs }))
        ∧ (s.presents v = none → Goes (.flr v) s (fun t => Raised t ⟨4, none, Sub.hfp, .genAdvance [v]⟩ ∧ (⟨.signal, [4, v], []⟩ : Output) ∈ t.out
          ∧ (t.fn v).tdisp ≠ .locked ∧ (t.fn v).tdisp ≠ .run ∧ t = { s with hfp := t.hfp, spn := t.spn, regs := t.regs, out := t.out })))
    ∧ Goes .pf0Flr s (fun t => t.hfp.vfEnable = false ∧ t.hfp.numVfs = 0 ∧ t.rd R.irqEn = 0 ∧ Raised t ⟨4, none, Sub.hfp, .genAdvance (pf0 :: s.boundVfs)⟩
        ∧ (∀ v < 64, (t.fn v).tdisp ≠ .locked ∧ (t.fn v).tdisp ≠ .run) ∧ t = { s with hfp := t.hfp, spn := t.spn, regs := t.regs, out := t.out })
    ∧ (∀ f v, v < 32 → s.exists f = true →
        (bit (s.fn f).pend v = true → (s.fn f).fnMask = false → s.withheld f = false → Goes (.msixUnmask f v false) s (fun t =>
          bit (t.fn f).vecMask v = false ∧ (t.fn f).pend = (s.fn f).pend - 2 ^ v ∧ t.out = s.out ++ [⟨.msix, [f, v], []⟩] ∧ t = { s with hfp := t.hfp, out := t.out }))
        ∧ (bit (s.fn f).pend v = true → (s.fn f).fnMask = false → s.withheld f = true → Goes (.msixUnmask f v false) s (fun t =>
          (t.fn f).stale = min 0xFFFFFFFF ((s.fn f).stale + 1) ∧ t.out = s.out ∧ t = { s with hfp := t.hfp }))
        ∧ Goes (.msixUnmask f v true) s (fun t => bit (t.fn f).vecMask v = true ∧ (t.fn f).pend = (s.fn f).pend ∧ t.out = s.out ∧ t = { s with hfp := t.hfp }))

/-- While the block runs, for PF0 or a VF that exists: MBX_CFG_WRITE with ENABLE on a mailbox that is off, DEPTH 1 to 4,096 and aligned rings, starts it
empty, and sets CFG_ERR otherwise; SQ_TAIL below DEPTH raises its tail event, at or above sets its error; the head written frees completions.
MBX_COMPLETION_WRITE with room and a host credit writes the next completion with its phase and, if final, drops the command. LEASE_EXPIRY past a lease
with no older entry left raises its end. DCTL_GO of an idle direct mailbox takes the command words of the registers. (18_mailbox_protocol.md) -/
def Obligations.MailboxesRunTheirRings : Prop :=
  ∀ (s : State) (f : Nat), s.Runs → (f = pf0 ∨ f < 64 ∧ s.exists f = true) →
    let m := s.mb f
    let base := fun (p q : Nat) => s.rd (mbReg f p q)
    let sq := base R.mbxSqBaseLo V.mbxSqBaseLo + 2 ^ 32 * base R.mbxSqBaseHi V.mbxSqBaseHi
    let cq := base R.mbxCqBaseLo V.mbxCqBaseLo + 2 ^ 32 * base R.mbxCqBaseHi V.mbxCqBaseHi
    (∀ d, m.on = false → d < 8192 →
      (1 ≤ d → d ≤ 4096 → sq % 4096 = 0 → cq % 4096 = 0 → Goes (.mbxCfgWrite f (d + 2 ^ 16)) s (fun t =>
        t.mb f = { m with on := true, depth := d, sq := sq, cq := cq, stamp := (s.fn f).gen, tail := 0, head := 0, cqTail := 0, cqSeen := 0, marks := [], reading := false }
        ∧ t.rd (mbReg f R.mbxCfg V.mbxCfg) = d + 2 ^ 16 ∧ t.rd (mbReg f R.mbxCqHead V.mbxCqHead) = 0 ∧ t = { s with mbx := t.mbx, regs := t.regs }))
      ∧ ((d = 0 ∨ 4096 < d ∨ sq % 4096 ≠ 0 ∨ cq % 4096 ≠ 0) → Goes (.mbxCfgWrite f (d + 2 ^ 16)) s (fun t =>
        t.rf (mbReg f R.mbxState V.mbxState) 4 4 = 1 ∧ t = { s with regs := t.regs })))
    ∧ (∀ d, m.on = true → d < 8192 → Goes (.mbxCfgWrite f (d + 2 ^ 16)) s (fun t => t.rd (mbReg f R.mbxCfg V.mbxCfg) = d + 2 ^ 16 ∧ t = { s with regs := t.regs })
      ∧ Goes (.mbxCfgWrite f d) s (fun t => t.rd (mbReg f R.mbxCfg V.mbxCfg) = d ∧ (t.mb f).on = false))
    ∧ (∀ v, v < 4096 → m.on = true →
      (v < m.depth → Goes (.sqTail f v) s (fun t => Raised t ⟨11, if f = pf0 then none else s.presents f, Sub.hfp, .mbTail f v⟩ ∧ t = { s with spn := t.spn, regs := t.regs }))
      ∧ (m.depth ≤ v → Goes (.sqTail f v) s (fun t => t.rf (mbReg f R.mbxState V.mbxState) 5 5 = 1 ∧ t = { s with regs := t.regs }))
      ∧ (v < m.depth → Goes (.mbxCqHeadWrite f v) s (fun t => t.rd (mbReg f R.mbxCqHead V.mbxCqHead) = v
        ∧ (let adv := (v + m.depth - m.cqSeen % m.depth) % m.depth
           t.mb f = { m with cqSeen := if m.cqSeen + adv ≤ m.cqTail then m.cqSeen + adv else m.cqSeen })
        ∧ t = { s with mbx := t.mbx, regs := t.regs })))
    ∧ ((∀ e ∈ m.exec, ¬ (e.ref.direct = true ∧ e.done = true)) → ∀ e final, s.nextCpl f = some (e, final) → e.lost = false → s.mayWrite f e.ref.gen = true → m.on = true →
      e.ref.fn = f →
      (m.cqTail - m.cqSeen < m.depth → s.tpl.hostUp = true → 0 < s.tpl.hostHeld → Goes (.mbxCompletionWrite f false) s (fun t =>
        (⟨.hostWrite, [f, m.cq + 32 * (m.cqTail % m.depth)], e.cpl final (m.cqTail / m.depth % 2 == 0) m.stamp⟩ : Output) ∈ t.out
        ∧ (t.mb f).cqTail = m.cqTail + 1 ∧ (final = true → ∀ x ∈ (t.mb f).exec, x.ref ≠ e.ref)
        ∧ (final = false → ∃ x ∈ (t.mb f).exec, x.ref = e.ref ∧ x.interimSent = true) ∧ t = { s with regs := t.regs, tpl := t.tpl, hfp := t.hfp, mbx := t.mbx, out := t.out }))
      ∧ (m.depth ≤ m.cqTail - m.cqSeen → (m.ended = false ∨ m.lease = true) → Goes (.mbxCompletionWrite f false) s (fun t => t = s)))
    ∧ (m.lease = true → m.leaseAt ≤ s.spn.tick → (m.tail ≤ m.head ∨ m.leaseAt < m.stampOf m.head) → Goes (.leaseExpiry f) s (fun t =>
        Raised t ⟨11, if f = pf0 then none else s.presents f, Sub.hfp, .lease f 0⟩ ∧ t = { s with regs := t.regs, spn := t.spn }))
    ∧ (s.directBusy = false → Goes .dctlGo s (fun t => (t.mb pf0).directWait = true
        ∧ Raised t ⟨11, none, Sub.hfp, .mbGo ((List.range 16).flatMap (fun i => leBytes 4 (s.rd (R.mbxDcmd + 4 * i))))⟩
        ∧ t = { s with mbx := t.mbx, spn := t.spn, regs := t.regs }))

/-- A session command next to start: NEGOTIATE of majors LO to HI, with nothing else in progress, raises the highest of both sides with the features asked
that it has; no common major ends with BAD_VERSION. ATTACH with a length of 0, or 50 to 60,000 ms, raises the lease; another length ends with
BAD_FIELD. LEASE of a lease that had not ended when it was stamped renews it to the later of both ends and answers OK, else NOT_PERMITTED. DETACH
raises the end of the lease. (18_mailbox_protocol.md, 19_commands_slices_security.md) -/
def Obligations.SessionsAreNegotiatedAndLeased : Prop :=
  let ev := fun (s t : State) (f : Nat) (e : ExecCmd) (what : Nat) (args : List Nat) =>
    Raised t ⟨11, if f = pf0 then none else s.presents f, Sub.hfp, .mbCmd f what args (some e.ref)⟩ ∧ t = { s with mbx := t.mbx, spn := t.spn, regs := t.regs }
  ∀ (s : State) (f : Nat) (e : ExecCmd),
    (Starts s f Op.negotiate e →
      let lo := fieldAt e.entry 0x0C 1
      let hi := fieldAt e.entry 0x0D 1
      lo ≠ 0 → lo ≤ hi → (∀ x ∈ (s.mb f).exec, x.ref = e.ref ∨ x.done = true) →
      (lo ≤ 3 → Goes (.negotiate f) s (fun t => ev s t f e MbW.negotiate [min hi 3,
        fieldAt e.entry 0x10 8 &&& (if min hi 3 = 1 then 1 else if min hi 3 = 2 then 3 else 7)]))
      ∧ (3 < lo → Goes (.negotiate f) s (fun t => Ended t e.ref Status.badVersion ∧ t = { s with mbx := t.mbx })))
    ∧ (Starts s f Op.attach e →
      let ms := fieldAt e.entry 0x0C 2
      ((ms = 0 ∨ 50 ≤ ms ∧ ms ≤ 60000) → Goes (.attach f) s (fun t => ev s t f e MbW.attach [leaseTicks ms]))
      ∧ (ms ≠ 0 → (ms < 50 ∨ 60000 < ms) → Goes (.attach f) s (fun t => Ended t e.ref Status.badField ∧ t = { s with mbx := t.mbx })))
    ∧ (Starts s f Op.lease e →
      ((s.mb f).lease = true → e.stamp ≤ (s.mb f).leaseAt → Goes (.lease f) s (fun t => Ended t e.ref Status.ok
        ∧ (t.mb f).leaseAt = max (s.mb f).leaseAt (e.stamp + (s.mb f).leaseLen) ∧ (t.mb f).lease = true ∧ t = { s with mbx := t.mbx }))
      ∧ (((s.mb f).lease = false ∨ (s.mb f).leaseAt < e.stamp) → Goes (.lease f) s (fun t => Ended t e.ref Status.notPermitted
        ∧ (t.mb f).leaseAt = (s.mb f).leaseAt ∧ t = { s with mbx := t.mbx })))
    ∧ (Starts s f Op.detach e → Goes (.detach f) s (fun t => ev s t f e MbW.detach []))

/-- Commands next to start, with room at the vault: STATEMENT_GET and SECRET_INSTALL place their request, IMAGE_BIND of a free image whose checks pass
begins a bind and asks for its key. CHALLENGE is answered from the secret, version and digest kept for its tail write, or those now in force where
none are kept, and falls due 162 tk after its stamp; CHALLENGE_RESPONSE then writes it to the address asked. SIGNING_SLOT begins the owner's oldest
request at the first tick of its slot and at no other. IMAGE_LOAD_DONE of a load complete, with no tile that fails its check and a sound spare table,
lets the bind go on to the seal; a tile that fails ends the command with CHECK_FAILED. (03_slices_and_binder.md, 15_vault_keys_attestation.md,
19_commands_slices_security.md) -/
def Obligations.VaultRequestsTakeTheirSlots : Prop :=
  let placed := fun (s t : State) (r : VReq) => t.vlt = { s.vlt with reqs := s.vlt.reqs ++ [r] }
  ∀ (s : State),
    (∀ (f : Nat) (e : ExecCmd), let b := fun o n => fieldAt e.entry o n
      (Starts s f Op.statementGet e → s.aliasUp = true → s.vaultRoom e.slice = true → Goes (.statementGet f) s (fun t =>
        placed s t ⟨e.slice, VW.statement, [b 0x2C 8], slice e.entry 0x0C 32, s.spn.tick, none, some e.ref⟩ ∧ t = { s with mbx := t.mbx, vlt := t.vlt }))
      ∧ (Starts s f Op.secretInstall e → s.vaultRoom e.slice = true → Goes (.secretInstall f) s (fun t =>
        placed s t ⟨e.slice, VW.secret, [], e.data, s.spn.tick, none, some e.ref⟩ ∧ t = { s with mbx := t.mbx, vlt := t.vlt }))
      ∧ (Starts s f Op.secretInstall e → s.vaultRoom e.slice = false → Goes (.secretInstall f) s (fun t =>
        Ended t e.ref Status.busyRetry ∧ t = { s with mbx := t.mbx }))
      ∧ (Starts s f Op.challenge e → s.aliasUp = true →
        (∀ k shown, s.chalFrom e.ref.fn e.stamp e.slice = some (k, shown) → Goes (.challenge f) s (fun t => t.vlt = { s.vlt with chals := s.vlt.chals
          ++ [⟨e.slice, e.stamp + 162, b 0x2C 8, shown ++ hmac384 (leBytes 48 k) (ascii "LLY-SLICE-RSP" ++ 0 :: slice e.entry 0x0C 32 ++ leBytes 1 e.slice ++ shown),
            some e.ref⟩] } ∧ t = { s with mbx := t.mbx, vlt := t.vlt }))
        ∧ (s.chalFrom e.ref.fn e.stamp e.slice = none → Goes (.challenge f) s (fun t => Ended t e.ref Status.badField ∧ t = { s with mbx := t.mbx })))
      ∧ (Starts s pf0 Op.imageBind e → let i := b 0x0C 1 % 4
        (s.image i).bound = false → bit (s.rd R.chkMode) 1 = false → s.vlt.binding = none → s.systemGrant = true → s.vaultRoom 66 = true →
        (∀ x ∈ s.headerCheck (slice e.data 0 128) (bit (b 0x0C 1) 2), x.1 = false) → Goes .imageBind s (fun t =>
          (∃ x, t.vlt.binding = some x ∧ x.image = i ∧ x.phase = 2 ∧ x.mirrored = bit (b 0x0C 1) 2 ∧ x.addr = b 0x10 8
            ∧ x.header = slice e.data 0 128 ∧ x.cmd = some e.ref)
          ∧ t.vlt.reqs = s.vlt.reqs ++ [⟨66, VW.image, [], slice e.data 128 228, s.spn.tick, none, none⟩] ∧ t = { s with mbx := t.mbx, vlt := t.vlt })))
    ∧ (let p := slotAt s.spn.tick
      (p.2.1 = false → Goes .signingSlot s (fun t => t = s))
      ∧ (∀ r, p.2.1 = true → s.vlt.st ≠ 4 → s.vlt.reqs.find? (fun r => r.owner == p.1) = some r → r.begun = none →
        (r.needsRandom = true → s.vlt.drbgStopped = false ∧ s.aliasUp = true) → Goes .signingSlot s (fun t =>
          (∃ x ∈ t.vlt.reqs, x.owner = r.owner ∧ x.what = r.what ∧ x.begun = some s.spn.tick ∧ x.data = s.formed r ∧ x.cmd = r.cmd)
          ∧ t.vlt.reqs.length = s.vlt.reqs.length ∧ t.draws = s.draws + (if r.what = VW.exchange then 2 else if r.needsRandom then 1 else 0) ∧ t = { s with vlt := t.vlt, draws := t.draws })))
    ∧ (∀ n c r e, s.vlt.chals.find? (fun c => c.sl == n && decide (c.due ≤ s.spn.tick)) = some c → c.cmd = some r →
      (s.mb r.fn).exec.find? (fun e => e.ref == r && !e.done) = some e → s.mayWrite e.ref.fn e.ref.gen = true →
      (e.ref.direct = false ∨ c.dst ≠ 0 → Goes (.challengeResponse n) s (fun t => t.vlt = { s.vlt with chals := s.vlt.chals.erase c }
        ∧ (∃ a ∈ t.tpl.accs, a.use = .mbxWrite ∧ a.fn = e.ref.fn ∧ a.write = true ∧ a.addr = c.dst ∧ a.data = c.data) ∧ t = { s with regs := t.regs, tpl := t.tpl, hfp := t.hfp, mbx := t.mbx, vlt := t.vlt, out := t.out }))
      ∧ (e.ref.direct = true → c.dst = 0 → c.data.length ≤ 3840 → Goes (.challengeResponse n) s (fun t =>
        t.vlt = { s.vlt with chals := s.vlt.chals.erase c } ∧ Ended t r Status.ok ∧ t = { s with regs := t.regs, vlt := t.vlt, mbx := t.mbx })))
    ∧ (∀ x, s.vlt.binding = some x → x.phase = 4 → x.failing = none → x.loaded = ihGrains x.header → (∀ q ∈ s.mce.reqs, q.cls ≠ .img) →
      (x.firstBad = none → ((List.range (ihSpares x.header)).map x.spareBytes).any x.spareBad = false → Goes .imageLoadDone s (fun t =>
        (∃ y, t.vlt.binding = some y ∧ y.image = x.image ∧ y.phase = 5 ∧ y.failing = none)
        ∧ (t.image x.image).spares = ((List.range (ihSpares x.header)).map x.spareBytes).map spareAt ∧ (t.image x.image).loaded = x.wrote ∧ t = { s with bnd := t.bnd, chk := t.chk, tpl := t.tpl, mbx := t.mbx, vlt := t.vlt }))
      ∧ (∀ r tix, x.firstBad = some tix → x.cmd = some r → (∃ e ∈ (s.mb r.fn).exec, e.ref = r ∧ e.done = false) → Goes .imageLoadDone s (fun t =>
        Ended t r Status.checkFailed ∧ (∀ y, t.vlt.binding = some y → y.failing = some (Status.checkFailed, 3 * 2 ^ 30 + tix % 2 ^ 30)) ∧ t = { s with bnd := t.bnd, chk := t.chk, tpl := t.tpl, mbx := t.mbx, vlt := t.vlt })))

/-- DRBG_RESEED and REMASK take a draw, REMASK counting and masking each key set anew with its value kept, and wait while the DRBG gives nothing.
ENTROPY_FAIL counts and stops the DRBG; within 3,906,250 tk of another failure it is also a tamper, as ENTROPY_RETEST that fails then is. A retest
that passes lets the DRBG give output again. GLITCH, LOCKSTEP_MISMATCH and CLOCK_MONITOR_TRIP are tampers: the fence stands and a class 1 event with
SOURCE 3 waits, and nothing else changes. (15_vault_keys_attestation.md, 25_boundary_signals.md) -/
def Obligations.EntropyFailuresAndTampersAreMet : Prop :=
  let tampered := fun (t : State) => t.mce.fenced = true ∧ Raised t ⟨1, none, Sub.vlt, .secHalt 3 0 0 0 0⟩
  let failed := fun (s t : State) => t.rd R.vltTrng = min 0xFF (s.rd R.vltTrng + 1) ∧ t.vlt = { s.vlt with entropyFail := some s.spn.tick, drbgStopped := true }
    ∧ (match s.vlt.entropyFail with
      | some k => if s.spn.tick ≤ k + 3906250 then tampered t ∧ t = { s with regs := t.regs, spn := t.spn, mce := t.mce, vlt := t.vlt }
                  else t = { s with regs := t.regs, vlt := t.vlt }
      | none => t = { s with regs := t.regs, vlt := t.vlt })
  ∀ (s : State),
    (s.vlt.drbgStopped = false →
      Goes .drbgReseed s (fun t => t = { s with draws := s.draws + 1 })
      ∧ Goes .remask s (fun t => t.rd R.vltRemask = min 0xFFFFFFFF (s.rd R.vltRemask + 1) ∧ t = { s with regs := t.regs, draws := s.draws + 1, mce := { s.mce with keys := t.mce.keys } }
        ∧ (Tbl.wf (dflt KeyE.init) s.mce.keys → ∀ k, t.key k = { s.key k with share := (t.key k).share, mask := (t.key k).mask }
          ∧ ((s.key k).share.length ≤ 96 → (s.key k).mask.length ≤ 96 → (t.key k).keys = (s.key k).keys)))
      ∧ (∀ pass, Goes (.entropyRetest pass) s (fun t => t = s)))
    ∧ (s.vlt.drbgStopped = true → Goes .drbgReseed s (fun t => t = s) ∧ Goes .remask s (fun t => t = s)
      ∧ Goes (.entropyRetest true) s (fun t => t.vlt.drbgStopped = false ∧ (s.lc.nonceWait = true → t.lc.nonceWait = false ∧ t.lc.nonce = s.draws)
        ∧ (s.lc.nonceWait = false → t.lc = s.lc))
      ∧ Goes (.entropyRetest false) s (failed s))
    ∧ Goes .entropyFail s (failed s)
    ∧ (∀ c ∈ [Instr.glitch, Instr.lockstepMismatch, Instr.clockMonitorTrip], Goes c s (fun t =>
        tampered t ∧ t = { s with regs := t.regs, spn := t.spn, mce := { s.mce with fenced := true } }))

/-- On a transport that hears, with the alias key up: GET_VERSION, GET_CAPABILITIES and NEGOTIATE_ALGORITHMS answer and bring the connection along,
GET_DIGESTS, GET_CERTIFICATE and unsigned GET_MEASUREMENTS answer at once, SPDM_CHALLENGE and signed GET_MEASUREMENTS place their request, and
KEY_EXCHANGE a session's. FINISH sets the session up or drops it; KEY_UPDATE, HEARTBEAT and END_SESSION act on a session that is up. Any other request
is answered as unsupported. With no DeviceID key yet, each is answered Busy. (15_vault_keys_attestation.md) -/
def Obligations.SpdmRequestsAreAnswered : Prop :=
  let tells := fun (s t : State) (l : List Nat) (d : List Byte) => t.out = s.out ++ [⟨.spdm, l, d⟩]
  let only := fun (s t : State) => t = { s with vlt := { s.vlt with conns := t.vlt.conns }, out := t.out }
  let asked := fun (s t : State) (w : Nat) (k : Nat) (nums : List Nat) (d : List Byte) =>
    t.vlt.reqs = s.vlt.reqs ++ [⟨64 + k, w, nums, d, s.spn.tick, none, none⟩] ∧ t = { s with vlt := t.vlt }
  ∀ (s : State) (k : Nat), k < 2 → s.hears k = true →
    (s.aliasUp = true →
      Goes (.getVersion k) s (fun t => tells s t [k, 0x04, 0x12, 0x13] [] ∧ (t.conn k).vca = 1 ∧ only s t)
      ∧ (∀ ver, Goes (.getCapabilities k ver) s (fun t => tells s t [k, 0x61, 17, 1, 1, 2, 1, 1, 1, 1, 1, 1] []
        ∧ (t.conn k).vca = 2 ∧ (t.conn k).ver = (if ver = 0x12 then 0x12 else 0x13) ∧ (t.conn k).sess = (s.conn k).sess ∧ only s t))
      ∧ Goes (.negotiateAlgorithms k true) s (fun t => tells s t [k, 0x63, 384, 384] [] ∧ (t.conn k).vca = 3 ∧ only s t)
      ∧ Goes (.negotiateAlgorithms k false) s (fun t => tells s t [k, 0x7F, 0x01] [] ∧ t = { s with out := t.out })
      ∧ Goes (.getDigests k) s (fun t => tells s t [k, 0x01, 3] (sha384 (s.certChain 0) ++ sha384 (s.certChain 1)) ∧ t = { s with out := t.out })
      ∧ (∀ slot off len, slot < 2 → Goes (.getCertificate k slot off len) s (fun t =>
        tells s t [k, 0x02, slot] (((s.certChain slot).drop off).take len) ∧ t = { s with out := t.out }))
      ∧ (∀ nonce, s.vaultRoom (64 + k) = true → Goes (.spdmChallenge k 0 nonce) s (fun t => asked s t VW.challenge k [k] (slice nonce 0 32)))
      ∧ (∀ nonce, s.vaultRoom (64 + k) = false → Goes (.spdmChallenge k 0 nonce) s (fun t => tells s t [k, 0x7F, 0x03] [] ∧ t = { s with out := t.out }))
      ∧ (∀ idx nonce, idx ≤ 12 ∨ idx = 0xFF →
        Goes (.getMeasurements k idx false nonce) s (fun t => tells s t [k, 0x60, idx, 0] (s.measured idx) ∧ t = { s with out := t.out })
        ∧ (s.vaultRoom (64 + k) = true → Goes (.getMeasurements k idx true nonce) s (fun t => asked s t VW.measurements k [k, idx] (slice nonce 0 32))))
      ∧ (∀ data, let n := (s.conn k).sess.length + (s.vlt.reqs.filter (fun r => r.owner == 64 + k && r.what == VW.exchange)).length
        (n < 4 → s.vaultRoom (64 + k) = true → Goes (.keyExchange k 0 data) s (fun t =>
          asked s t VW.exchange k [k, (s.conn k).nextSess] data ∧ (t.conn k).nextSess = (s.conn k).nextSess + 1))
        ∧ (4 ≤ n → Goes (.keyExchange k 0 data) s (fun t => tells s t [k, 0x7F, 0x0A] [] ∧ t = { s with out := t.out })))
      ∧ (∀ id x mac, s.sess k id = some x → x.up = false → Goes (.finish k id mac) s (fun t => only s t
        ∧ ((tells s t [k, 0x65, id] [] ∧ ∃ y, t.sess k id = some y ∧ y.up = true ∧ y.keys = x.keys) ∨ (tells s t [k, 0x7F, 0x06] [] ∧ t.sess k id = none))))
      ∧ (∀ id x, s.sess k id = some x → x.up = true →
        Goes (.keyUpdate k id) s (fun t => tells s t [k, 0x69, id] [] ∧ (∃ y, t.sess k id = some y ∧ y.up = true ∧ y.keys = x.keys + 1) ∧ only s t)
        ∧ Goes (.heartbeat k id) s (fun t => tells s t [k, 0x68, id] [] ∧ t = { s with out := t.out })
        ∧ Goes (.endSession k id) s (fun t => tells s t [k, 0x6C, id] [] ∧ t.sess k id = none ∧ only s t))
      ∧ Goes (.spdmUnsupported k) s (fun t => tells s t [k, 0x7F, 0x07] [] ∧ t = { s with out := t.out }))
    ∧ (s.vlt.st < 2 → ∀ slot data, ∀ c ∈ [Instr.getVersion k, .getDigests k, .spdmChallenge k slot data, .keyExchange k slot data, .spdmUnsupported k],
        Goes c s (fun t => tells s t [k, 0x7F, 0x03] [] ∧ t = { s with out := t.out }))

/-- Inside a session of PF0's DOE that is up, for one of the 64 VFs: version, capabilities and state answer. LOCK_INTERFACE_REQUEST of an unlocked VF that
exists, presents a slice and is not under reset or faulted locks it and returns a fresh nonce; START with that nonce runs it, with another answers an
error; STOP unlocks it, advancing GEN from locked or run; the report of a VF that presents a slice answers its range, slice, version, GEN and
statement digest. DOE_DISCOVERY answers an index below 3 with the next index. (15_vault_keys_attestation.md, 17_host_functions.md) -/
def Obligations.TdispMovesAnInterface : Prop :=
  let tells := fun (s t : State) (l : List Nat) (d : List Byte) => t.out = s.out ++ [⟨.tdisp, l, d⟩]
  let moved := fun (s t : State) (f : Nat) (st : TdispSt) => (t.fn f).tdisp = st ∧ (t.fn f).gen = (s.fn f).gen ∧ (∀ g, g ≠ f → t.fn g = s.fn g)
  ∀ (s : State) (id f : Nat) (x : Sess), s.hfp.cfgReady = true → s.aliasUp = true → s.sess 0 id = some x → x.up = true → f < 64 →
    Goes (.getTdispVersion id f) s (fun t => tells s t [id, 0x01, 0x10] [] ∧ t = { s with out := t.out })
    ∧ Goes (.getTdispCapabilities id f) s (fun t => tells s t [id, 0x02] [] ∧ t = { s with out := t.out })
    ∧ Goes (.getDeviceInterfaceState id f) s (fun t => tells s t [id, 0x05, (s.fn f).tdisp.code] [] ∧ t = { s with out := t.out })
    ∧ (∀ n, s.presents f = some n → s.exists f = true → s.inFault n = false → (s.fn f).reset = false → (s.fn f).tdisp = .unlocked →
      (s.vlt.drbgStopped = false → Goes (.lockInterfaceRequest id f) s (fun t => moved s t f .locked ∧ (t.fn f).nonce = s.draws ∧ t.draws = s.draws + 1
        ∧ tells s t [id, 0x03, f] (slice (Config.random s.draws 32) 0 32) ∧ t = { s with hfp := { s.hfp with fns := t.hfp.fns }, draws := t.draws, out := t.out }))
      ∧ (s.vlt.drbgStopped = true → Goes (.lockInterfaceRequest id f) s (fun t => tells s t [id, 0x7F, 0x0103] [] ∧ t = { s with out := t.out })))
    ∧ ((s.fn f).tdisp ≠ .unlocked → Goes (.lockInterfaceRequest id f) s (fun t => tells s t [id, 0x7F, 0x0004] [] ∧ t = { s with out := t.out }))
    ∧ (∀ nonce, (s.fn f).tdisp = .locked → Goes (.startInterfaceRequest id f nonce) s (fun t =>
        t = { s with hfp := { s.hfp with fns := t.hfp.fns }, out := t.out }
        ∧ (if nonce = slice (Config.random (s.fn f).nonce 32) 0 32 then moved s t f .run ∧ tells s t [id, 0x06, f] []
          else moved s t f .locked ∧ tells s t [id, 0x7F, 0x0102] [])))
    ∧ (∀ nonce, (s.fn f).tdisp ≠ .locked → Goes (.startInterfaceRequest id f nonce) s (fun t => tells s t [id, 0x7F, 0x0004] [] ∧ t = { s with out := t.out }))
    ∧ ((s.fn f).tdisp = .locked ∨ (s.fn f).tdisp = .run → Goes (.stopInterfaceRequest id f) s (fun t => moved s t f .unlocked
        ∧ tells s t [id, 0x07, f] [] ∧ (∃ e, Raised t e ∧ e.cls = 4 ∧ e.body = .genAdvance [f])))
    ∧ (∀ n d, s.exists f = true → s.presents f = some n → s.sdef n = some d → Goes (.getDeviceInterfaceReport id f) s (fun t =>
        tells s t [id, 0x04, tget (dflt 0) (s.fn f).cfg 0 + 2 ^ 32 * tget (dflt 0) (s.fn f).cfg 1, 0x40000, n, (tget (dflt ⟨0, 0⟩) s.bnd.vers n).ver, (s.fn f).gen]
          (s.stmtDigest d) ∧ t = { s with out := t.out }))
    ∧ (∀ index len, len ≤ 4096 → Goes (.doeDiscovery index len) s (fun t => t = { s with out := s.out ++ [⟨.doe,
        if index < 3 then [0, index, if index = 2 then 0 else index + 1] else [0, 0xFF, 0], []⟩] }))

/-- GO while the block runs, and LC_TRANSITION next to start, with target and authorisation of their own: a pair without a token, no slice, no bank armed,
no burn and VBAK good starts the burn of that target, and a pair not in the table is refused with LC_FORBIDS and nothing burnt; a pair whose token
slot is not fused or is spent is refused likewise; either way the nonce is replaced. FUSE_BIT_DONE of a bit that burnt sets it and no other and goes
on to the next; of one that failed fewer than 3 times before burns it again, of one that failed more in copy A or B ends the burn.
(16_lifecycle_and_debug.md, 19_commands_slices_security.md, 25_boundary_signals.md) -/
def Obligations.TransitionsAreJudgedAndBurnt : Prop :=
  let fresh := fun (s t : State) => if s.vlt.drbgStopped then t.lc.nonceWait = true ∧ t.draws = s.draws else t.lc.nonce = s.draws ∧ t.draws = s.draws + 1
  let zeroed := fun (t : State) => ∀ k, k < 48 → t.rd (R.lcAuth + 4 * k) = 0
  let free := fun (s : State) => s.slices = [] ∧ s.armed = none ∧ s.lc.burn = none ∧ s.pins.vbak = true ∧ s.lc.lockdown = false
  ∀ (s : State),
    (s.Runs → let target := s.rf R.lcReq 7 0
      (lcPair s.lc.idx target = some none → target ≠ 19 → free s → s.burnList target none ≠ [] → Goes .go s (fun t =>
        t.lc.burn = some ⟨target, s.burnList target none, 0⟩ ∧ t.lc.gone = true ∧ t.lc.otp = s.lc.otp ∧ t.lc.idx = s.lc.idx ∧ fresh s t ∧ zeroed t
        ∧ t = { s with regs := t.regs, mbx := t.mbx, lc := t.lc, src := t.src, evr := t.evr, draws := t.draws }))
      ∧ (1 ≤ target → target ≤ 20 → s.lc.burn = none → (lcPair s.lc.idx target = none ∨ s.slices ≠ [] ∨ s.armed ≠ none
            ∨ ∃ k, lcPair s.lc.idx target = some (some k) ∧ (s.tokFused k = false ∨ (s.tokSpent k = true ∧ s.lc.resume = false))) →
          Goes .go s (fun t => t.rf R.lcResult 7 0 = Status.lcForbids ∧ t.lc.burn = none ∧ t.lc.otp = s.lc.otp ∧ t.lc.gone = s.lc.gone ∧ fresh s t ∧ zeroed t
            ∧ t = { s with regs := t.regs, mbx := t.mbx, lc := t.lc, src := t.src, evr := t.evr, draws := t.draws })))
    ∧ (∀ e, Starts s pf0 Op.lcTransition e → s.mce.halted = false → let target := fieldAt e.entry 0x0C 1
      (fieldAt e.entry 0x18 2 = 0 ∨ fieldAt e.entry 0x18 2 = 32 ∨ fieldAt e.entry 0x18 2 = 192) → 1 ≤ target → target ≤ 20 → s.lc.burn = none →
      (lcPair s.lc.idx target = some none → target ≠ 19 → free s → s.burnList target none ≠ [] → Goes .lcTransition s (fun t =>
        t.lc.burn = some ⟨target, s.burnList target none, 0⟩ ∧ t.rf R.lcReq 7 0 = target ∧ fresh s t ∧ zeroed t ∧ t = { s with regs := t.regs, mbx := t.mbx, lc := t.lc, evr := t.evr, draws := t.draws }))
      ∧ (s.slices ≠ [] ∨ lcPair s.lc.idx target = none → Goes .lcTransition s (fun t =>
        Ended t e.ref Status.lcForbids ∧ t.lc.burn = none ∧ t.lc.otp = s.lc.otp ∧ fresh s t ∧ zeroed t ∧ t = { s with regs := t.regs, mbx := t.mbx, lc := t.lc, evr := t.evr, draws := t.draws })))
    ∧ (∀ b r k rest, s.lc.burn = some b → b.bits = (r, k) :: rest →
      (∀ x rest', rest = x :: rest' → Goes (.fuseBitDone true) s (fun t => t.otpRow r = (s.otpRow r ||| 2 ^ k) % 2 ^ 64 ∧ (∀ q, q ≠ r → t.otpRow q = s.otpRow q)
        ∧ t.lc.burn = some { b with bits := rest, tries := 0 } ∧ t = { s with regs := t.regs, lc := { s.lc with otp := t.lc.otp, burn := t.lc.burn } }))
      ∧ (b.tries < 3 → Goes (.fuseBitDone false) s (fun t => t = { s with lc := { s.lc with burn := some { b with tries := b.tries + 1 } } }))
      ∧ (3 ≤ b.tries → r < 2 → s.src.deep = 0 → s.pins.wrstLatched = 0 → Goes (.fuseBitDone false) s (fun t =>
        t.rf R.lcResult 7 0 = Status.checkFailed ∧ t.lc = { s.lc with burn := none } ∧ t = { s with regs := t.regs, mbx := t.mbx, evr := t.evr, lc := t.lc })))

/-- DBG_OPEN while the block runs and DEBUG_CTL with open, next to start: in DEV with no slice and no verification in progress they start one over the
nonce that stood, which is replaced; in another state they are refused with LC_FORBIDS. DEBUG_VERIFY_DONE opens debug with OK, deriving the alias key
again, or leaves it with CHECK_FAILED. DBG_CLOSE, and DEBUG_CTL with close, of open debug close it, derive the alias key again and let halted cores
run. NEW_NONCE replaces the nonce, waiting while the DRBG gives nothing. (16_lifecycle_and_debug.md, 20_commands_pods_jobs_recovery.md) -/
def Obligations.DebugOpensAndCloses : Prop :=
  let fresh := fun (s t : State) => if s.vlt.drbgStopped then t.lc.nonceWait = true ∧ t.draws = s.draws else t.lc.nonce = s.draws ∧ t.draws = s.draws + 1
  let realias := fun (s t : State) => if s.aliasUp = false then t.vlt = s.vlt ∧ t.draws = s.draws
    else if s.vlt.drbgStopped then t.vlt.st = 2 ∧ t.vlt.cdi2 = [] ∧ t.draws = s.draws
    else t.vlt.st = 3 ∧ t.vlt.cdi2 = kdf s.vlt.cdi1 "LLY-CDI2" (s.dgOf 1 ++ s.dgOf 0 ++ s.dgOf 2 ++ t.modeBytes) 384 ∧ t.draws = s.draws + 1
  let closed := fun (s t : State) => t.lc = { s.lc with debug := false } ∧ (Tbl.wf (dflt Core.init) s.ccx.cores → ∀ c k, tget (dflt Core.init) s.ccx.cores k = c →
      tget (dflt Core.init) t.ccx.cores k = (if c.st = .halted then { c with st := .running } else c))
    ∧ realias s t
  ∀ (s : State),
    (s.Runs → Goes .newNonce s (fun t => fresh s t ∧ t = { s with lc := { s.lc with nonce := t.lc.nonce, nonceWait := t.lc.nonceWait }, draws := t.draws })
      ∧ (s.lcCode = 0x11 → s.slices = [] → s.lc.verify = none → Goes .dbgOpen s (fun t =>
        t.lc.verify = some (leBytes 8 s.lc.nonce ++ s.lcAuth 192) ∧ t.lc.debug = s.lc.debug ∧ fresh s t ∧ t = { s with regs := t.regs, mbx := t.mbx, lc := t.lc, src := t.src, draws := t.draws }))
      ∧ (s.lcCode ≠ 0x11 ∨ s.slices ≠ [] → Goes .dbgOpen s (fun t => t.rf R.lcResult 7 0 = Status.lcForbids ∧ t.lc.verify = s.lc.verify
        ∧ t.lc.debug = s.lc.debug ∧ fresh s t ∧ t = { s with regs := t.regs, mbx := t.mbx, lc := t.lc, src := t.src, draws := t.draws }))
      ∧ (s.lcCode = 0x11 → s.lc.debug = true → Goes .dbgClose s (fun t => closed s t ∧ t = { s with regs := t.regs, vlt := t.vlt, lc := t.lc, ccx := t.ccx, src := t.src, evr := t.evr, draws := t.draws })))
    ∧ (∀ a, s.lc.verify = some a → s.lcCode = 0x11 → s.slices = [] → Goes .debugVerifyDone s (fun t => t.lc.verify = none ∧ t = { s with regs := t.regs, mbx := t.mbx, vlt := t.vlt, lc := t.lc, evr := t.evr, draws := t.draws }
        ∧ ((t.lc.debug = true ∧ t.rf R.lcResult 7 0 = Status.ok ∧ realias s t)
          ∨ (t.lc.debug = s.lc.debug ∧ t.rf R.lcResult 7 0 = Status.checkFailed ∧ t.vlt = s.vlt))))
    ∧ (∀ e, Starts s pf0 Op.debugCtl e →
      (fieldAt e.entry 0x0C 1 % 4 = 1 → s.mce.halted = false → s.lcCode = 0x11 → s.slices = [] → s.lc.verify = none → Goes .debugCtlOpen s (fun t =>
        (∃ a, t.lc.verify = some (leBytes 8 s.lc.nonce ++ a) ∧ ((s.putAuth e.data).lcAuth 192) = a) ∧ t.lc.debug = s.lc.debug ∧ fresh s t ∧ t = { s with regs := t.regs, mbx := t.mbx, lc := t.lc, draws := t.draws }))
      ∧ (fieldAt e.entry 0x0C 1 % 4 = 1 → s.mce.halted = false → s.lcCode ≠ 0x11 → Goes .debugCtlOpen s (fun t =>
        Ended t e.ref Status.lcForbids ∧ t.lc.verify = s.lc.verify ∧ fresh s t ∧ t = { s with regs := t.regs, mbx := t.mbx, lc := t.lc, draws := t.draws }))
      ∧ (fieldAt e.entry 0x0C 1 % 4 = 2 → fieldAt e.entry 0x10 8 = 0 → s.lc.debug = true → Goes .debugCtlClose s (fun t =>
        (s.vlt.drbgStopped = false → Ended t e.ref Status.ok) ∧ closed s t ∧ t = { s with regs := t.regs, mbx := t.mbx, vlt := t.vlt, lc := t.lc, ccx := t.ccx, evr := t.evr, draws := t.draws }))
      ∧ (fieldAt e.entry 0x0C 1 % 4 = 2 → fieldAt e.entry 0x10 8 = 0 → s.lc.debug = false → Goes .debugCtlClose s (fun t =>
        Ended t e.ref Status.okEmpty ∧ t = { s with mbx := t.mbx })))

/-- An engine past its bound on a cluster that runs a task of a slice not contained, a module without acknowledgement, a hub unit without progress, an
engine error and scratchpad ECC of an owned cluster raise their fault in class 3 and change nothing else; without their condition nothing changes.
ENGINE_STOP_ACK strikes the cluster off those awaited; CLUSTER_RESET from C + 66 resets one still awaited; CLUSTER_OUT_OF_SERVICE from C + 80 takes
one still in reset out of service, and the containment then holds the slice. (22_faults_and_recovery.md) -/
def Obligations.WatchdogsAndDiesReportTheirFaults : Prop :=
  let faults := fun (s t : State) (src : Nat) (sl : Option Nat) (P : FaultEv → Prop) =>
    (∃ f, Raised t ⟨3, sl, src, .fault f⟩ ∧ P f) ∧ t = { s with spn := t.spn, regs := t.regs }
  ∀ (s : State),
    (∀ cl engine ticks instr k, s.taskOn cl = some k →
      (s.contained k.sl = false → 1024 * max 1 (s.rf R.fltWdEngine 15 0) ≤ ticks → Goes (.engineHang cl engine ticks instr) s (fun t =>
        faults s t Sub.flt (some k.sl) (fun f => f.kind = 0x05 ∧ f.scope = 2 ∧ f.cluster = cl ∧ f.engine = some (engine % 4) ∧ f.instr = instr ∧ f.da = ticks)))
      ∧ (s.contained k.sl = true ∨ ticks < 1024 * max 1 (s.rf R.fltWdEngine 15 0) → Goes (.engineHang cl engine ticks instr) s (fun t => t = s)))
    ∧ (∀ die m, die < 4 → m < 20 → s.inReset = false →
      (s.listing die = [] ∨ (∃ n ∈ s.listing die, s.contained n = false) → Goes (.dieFail die m) s (fun t =>
        faults s t Sub.flt none (fun f => f.kind = 0x20 ∧ f.scope = 3 ∧ f.da = die ∧ f.db = 2 ^ m)))
      ∧ (s.listing die ≠ [] → (∀ n ∈ s.listing die, s.contained n = true) → Goes (.dieFail die m) s (fun t => t = s)))
    ∧ (∀ u, s.flt.block = 0 → s.inReset = false → Goes (.unitHang u) s (fun t => faults s t Sub.flt none (fun f => f.kind = 0x43 ∧ f.scope = 5 ∧ f.sub = u)))
    ∧ (∀ cl, let n := (s.cluster cl).owner
      (n < 64 →
        (∀ engine code detail instr, Goes (.engineError cl engine code detail instr) s (fun t => faults s t Sub.flt (some n)
          (fun f => f.kind = 0x06 ∧ f.scope = 2 ∧ f.cluster = cl ∧ f.engine = some (engine % 4) ∧ f.instr = instr ∧ f.sub = code % 256 ∧ f.da = detail)))
        ∧ (∀ off, Goes (.scratchUe cl off) s (fun t => faults s t Sub.flt (some n) (fun f => f.kind = 0x07 ∧ f.scope = 2 ∧ f.cluster = cl ∧ f.addr = off)))
        ∧ Goes (.engineStopAck cl) s (fun t => t = s.modFsl n (fun x => { x with notStopped := x.notStopped.erase cl }))
        ∧ (∀ c, s.containedAt n = some c → cl ∈ (s.fsl n).notStopped →
          (c + 66 ≤ s.spn.tick → Goes (.clusterReset cl) s (fun t =>
              t.fsl n = { (s.fsl n) with notStopped := (s.fsl n).notStopped.erase cl, inReset := (s.fsl n).inReset ++ [cl] }
              ∧ t.out = s.out ++ [⟨.ddl, [8, cl], []⟩] ∧ (∀ m, m ≠ n → t.fsl m = s.fsl m) ∧ t = { s with flt := t.flt, out := t.out }))
          ∧ (s.spn.tick < c + 66 → Goes (.clusterReset cl) s (fun t => t = s)))
        ∧ (∀ c, s.containedAt n = some c → cl ∈ (s.fsl n).inReset →
          (c + 80 ≤ s.spn.tick → Goes (.clusterOutOfService cl) s (fun t => t.cluster cl = { (s.cluster cl) with oos := true }
              ∧ ((s.fsl n).phase = .contain → t.fsl n = { (s.fsl n) with hold := true, domainOut := true })
              ∧ ((s.fsl n).phase ≠ .contain → t.flt = s.flt) ∧ (∀ k, k ≠ cl → t.cluster k = s.cluster k) ∧ t = { s with dpa := t.dpa, flt := t.flt }))
          ∧ (s.spn.tick < c + 80 → Goes (.clusterOutOfService cl) s (fun t => t = s))))
      ∧ (64 ≤ n → ∀ off, Goes (.scratchUe cl off) s (fun t => t = s) ∧ Goes (.engineStopAck cl) s (fun t => t = s)))

/-- ABORT_TICK at its tick contains the slice. CONTAINED from C + 89 starts the capture or goes on to the recovery, CAPTURE_DONE goes on: the slice is
held where its policy, its repetitions or an out-of-service domain say so, and otherwise its reset is raised. RETRAIN_DONE takes the retraining off
every slice that waits. SLICE_RESET_END ends the recovery and its waiters with OK, or holds the slice where a cluster failed its clear.
RECOVERY_PHASE_TIMEOUT beyond the bound holds it. BLOCK_RESET_READY from B + 92 runs the audit and ends the block reset or fails the device,
BLOCK_READY_TIMEOUT from 3,906,250 tk fails it. (14_fabric_security_and_abort.md, 12_buffers_credits_conservation.md, 22_faults_and_recovery.md) -/
def Obligations.RecoveriesGoThroughTheirPhases : Prop :=
  let onward := fun (s t : State) (n : Nat) =>
    if (s.fsl n).primary ≠ none ∧ ((s.fsl n).hold = true ∨ (s.fsl n).domainOut = true ∨ bit (s.rd (R.fltPolicyLo + 4 * (n / 32))) (n % 32) = true)
    then (t.fsl n).phase = .held else (t.fsl n).phase = .recover ∧ Raised t ⟨4, some n, Sub.flt, .sliceReset n 1 none⟩
  let waits := fun (s : State) (r : CmdRef) => ∃ e ∈ (s.mb r.fn).exec, e.ref = r ∧ e.done = false
  ∀ (s : State),
    (∀ n, let x := s.fsl n
      n < 64 → s.flt.block = 0 →
      (x.phase = .contain → x.acted = false → x.containAt ≤ s.spn.tick → Goes (.abortTick n) s (fun t =>
        t.fsl n = { x with acted := true, notStopped := s.clustersOf n } ∧ (⟨.ddl, [6, n], []⟩ : Output) ∈ t.out
        ∧ t.mce.reqs = s.mce.reqs.filter (fun r => !(r.tag == n && (r.phase == .held || r.phase == .waiting)))
        ∧ (∀ o ∈ t.fpc.out, o.sl ≠ n) ∧ t = { s with regs := t.regs, mce := t.mce, fld := t.fld, fpc := t.fpc, flt := t.flt, out := t.out }))
      ∧ (x.phase = .contain → x.acted = true → x.containAt + 89 ≤ s.spn.tick → Goes (.contained n) s (fun t =>
        (∀ e, x.primary = some e → x.store.length < 64 → ∃ r ∈ (t.fsl n).store, r.primary = true ∧ r.ev = e ∧ r.tick = x.stamp ∧ r.capture = s.captureMode n)
        ∧ (if s.captureMode n = 0 then onward s t n
          else (t.fsl n).phase = .capture ∧ ∃ c, (t.fsl n).capture = some c ∧ c.mode = s.captureMode n ∧ c.taking = true) ∧ t = { s with regs := t.regs, spn := t.spn, bnd := t.bnd, mce := t.mce, tpl := t.tpl, fld := t.fld, pcm := t.pcm, dpa := t.dpa, hfp := t.hfp, mbx := t.mbx, flt := t.flt, evr := t.evr, draws := t.draws, out := t.out }))
      ∧ (x.phase = .contain → x.acted = true → s.spn.tick < x.containAt + 89 → Goes (.contained n) s (fun t => t = s))
      ∧ (∀ c data, x.phase = .capture → x.capture = some c → c.taking = true → Goes (.captureDone n data) s (fun t => onward s t n
        ∧ (t.fsl n).capture = some { c with body := s.captureBody n c.mode data, taking := false } ∧ t = { s with regs := t.regs, spn := t.spn, hfp := t.hfp, flt := t.flt, evr := t.evr }))
      ∧ (∀ failed, x.phase = .reset → x.retrain = [] →
        (x.domainOut = false → (∀ c ∈ s.clustersOf n, bit failed c = false) → Goes (.sliceResetEnd n failed) s (fun t => (t.fsl n).phase = .none
          ∧ (∀ r ∈ x.waiters, waits s r → Ended t r Status.ok) ∧ (∀ v, s.vfOf n = some v → (t.fn v).reset = false)
          ∧ (∀ c ∈ s.clustersOf n, (t.cluster c).cleared = true) ∧ t = { s with regs := t.regs, spn := t.spn, mce := t.mce, tpl := t.tpl, fld := t.fld, pcm := t.pcm, dpa := t.dpa, fpc := t.fpc, hfp := t.hfp, mbx := t.mbx, flt := t.flt, evr := t.evr, out := t.out }))
        ∧ ((∃ c ∈ s.clustersOf n, bit failed c = true) → Goes (.sliceResetEnd n failed) s (fun t => (t.fsl n).phase = .held
          ∧ (∀ r ∈ x.waiters, waits s r → Ended t r Status.faulted) ∧ (∀ c ∈ s.clustersOf n, bit failed c = true → (t.cluster c).oos = true) ∧ t = { s with regs := t.regs, spn := t.spn, mce := t.mce, tpl := t.tpl, fld := t.fld, pcm := t.pcm, dpa := t.dpa, fpc := t.fpc, hfp := t.hfp, mbx := t.mbx, flt := t.flt, evr := t.evr, out := t.out })))
      ∧ ((x.phase = .contain ∧ x.acted = true ∧ x.containAt + 89 < s.spn.tick ∨ x.phase = .capture ∧ x.since + 128907 < s.spn.tick
            ∨ (x.phase = .recover ∨ x.phase = .reset) ∧ x.retrain = [] ∧ x.since + 240 < s.spn.tick) → Goes (.recoveryPhaseTimeout n) s (fun t =>
          (t.fsl n).phase = .held ∧ (∀ c, (t.fsl n).capture = some c → c.taking = false) ∧ t = { s with regs := t.regs, bnd := t.bnd, hfp := t.hfp, flt := t.flt, evr := t.evr }))
      ∧ (x.phase = .none ∨ x.phase = .held → Goes (.recoveryPhaseTimeout n) s (fun t => t = s)))
    ∧ (∀ die g, die < 4 → g < 5 → (s.flt.slices.any (fun e => e.2.retrain.contains (.group die g)) = true →
        (∀ ok, Goes (.retrainDone 0 die g ok) s (fun t => (∀ n, n < 64 → Retrain.group die g ∉ (t.fsl n).retrain)
          ∧ bit (tget (dflt 0) t.flt.badGroups die) g = !ok
          ∧ (ok = false → ∃ f, Raised t ⟨3, none, Sub.flt, .fault f⟩ ∧ f.kind = 0x20 ∧ f.da = die ∧ f.db = 15 * 2 ^ (4 * g)) ∧ t = { s with regs := t.regs, spn := t.spn, mce := t.mce, fld := t.fld, dpa := t.dpa, flt := t.flt, out := t.out })))
      ∧ (s.flt.slices.any (fun e => e.2.retrain.contains (.group die g)) = false → ∀ ok, Goes (.retrainDone 0 die g ok) s (fun t => t = s)))
    ∧ (s.flt.block = 1 →
      (s.flt.blockAt + 92 ≤ s.spn.tick →
        (s.auditFails = 0 → Goes .blockResetReady s (fun t => t.flt.block = 0 ∧ t.flt.readyTick = some s.spn.tick ∧ t.rf R.audStatus 8 8 = 1
          ∧ (∀ d ∈ s.slices, (t.fsl d.slice).phase = .none ∨ (t.fsl d.slice).phase = .held) ∧ t = { s with regs := t.regs, spn := t.spn, bnd := t.bnd, mce := t.mce, tpl := t.tpl, fld := t.fld, pcm := t.pcm, dpa := t.dpa, fpc := t.fpc, hfp := t.hfp, mbx := t.mbx, flt := t.flt, evr := t.evr, pins := t.pins, draws := t.draws, out := t.out }))
        ∧ (s.auditFails ≠ 0 → Goes .blockResetReady s (fun t => t.flt.block = 2 ∧ t.rf R.audStatus 8 8 = 0 ∧ t = { s with regs := t.regs, spn := t.spn, bnd := t.bnd, mce := t.mce, tpl := t.tpl, fld := t.fld, pcm := t.pcm, dpa := t.dpa, fpc := t.fpc, hfp := t.hfp, mbx := t.mbx, flt := t.flt, evr := t.evr, pins := t.pins, draws := t.draws, out := t.out })))
      ∧ (s.spn.tick < s.flt.blockAt + 92 → Goes .blockResetReady s (fun t => t = s))
      ∧ (s.flt.blockAt + 3906250 ≤ s.spn.tick → Goes .blockReadyTimeout s (fun t => t.flt.block = 2 ∧ t.flt.blockAt = s.flt.blockAt ∧ t.rf R.audStatus 8 8 = 0
        ∧ t = { s with regs := t.regs, mce := t.mce, fld := t.fld, fpc := t.fpc, hfp := t.hfp, flt := t.flt, pins := t.pins, out := t.out })))
    ∧ (s.flt.block ≠ 1 → Goes .blockResetReady s (fun t => t = s) ∧ Goes .blockReadyTimeout s (fun t => t = s))

/-- CORE_WATCHDOG, CORE_ECC_ERROR and ILLEGAL_INSTRUCTION of a core that runs raise its restart in class 4, and of a core that is held nothing;
MPU_VIOLATION also records the access. CORE_RELEASE lets a held core run with no component serving, and in phase 3 of an update, as the last of the
four, begins phase 4; COMPONENT_RUNNING then has its component serve, and RUNNING_TIMEOUT past 19,532 tk without it is a block-level fault.
TRACE_POINT of an enabled group enters the log, or counts a drop. (21_control_complex_firmware.md) -/
def Obligations.CoresRestartAndServeAgain : Prop :=
  let asks := fun (t : State) (core why : Nat) => Raised t ⟨4, none, Sub.ccx, .coreRestart core why⟩
  ∀ (s : State),
    (∀ core, core < 4 → let st := (s.core core).st
      (st = .running ∨ st = .halted → ∀ p ∈ [(Instr.coreWatchdog core, 1), (.coreEccError core, 3), (.illegalInstruction core, 4)],
        Goes p.1 s (fun t => asks t core p.2 ∧ t = { s with spn := t.spn, regs := t.regs }))
      ∧ (st ≠ .running → st ≠ .halted → ∀ c ∈ [Instr.coreWatchdog core, .coreEccError core, .illegalInstruction core], Goes c s (fun t => t = s))
      ∧ (∀ comp addr, st = .running → bit (compMask core) comp = true → Goes (.mpuViolation core comp addr) s (fun t => asks t core 2
        ∧ t.rd R.ccxMpufault = (core + 4 * comp + 32 + 64 * bits addr 31 6) % 2 ^ 32 ∧ t = { s with regs := t.regs, spn := t.spn, hfp := t.hfp, evr := t.evr }))
      ∧ (∀ comp addr, st ≠ .running ∨ bit (compMask core) comp = false → Goes (.mpuViolation core comp addr) s (fun t => t = s))
      ∧ (s.ccx.active ≠ none → st = .restarting ∨ st = .held → Goes (.coreRelease core) s (fun t =>
        (t.core core).st = .running ∧ (t.core core).running = 0 ∧ (t.core core).since = s.spn.tick ∧ (∀ k, k ≠ core → t.core k = s.core k)
        ∧ t.ccx.phase = (if s.ccx.phase = 3 ∧ (List.range 4).all (fun k => k == core || (s.core k).st == .running) = true then 4 else s.ccx.phase) ∧ t = { s with ccx := t.ccx }))
      ∧ (s.ccx.active = none ∨ (st ≠ .restarting ∧ st ≠ .held) → Goes (.coreRelease core) s (fun t => t = s)))
    ∧ (∀ comp, comp < 5 → (s.core (coreOf comp)).st = .running → ¬ (2 ≤ s.ccx.phase ∧ s.ccx.phase ≤ 4) → bit (s.core (coreOf comp)).running comp = false →
      ((∀ f, f < 65 → ∀ e ∈ (s.mb f).exec, e.stage = .running → e.done = true) → Goes (.componentRunning comp) s (fun t =>
        (t.core (coreOf comp)).running = (s.core (coreOf comp)).running ||| 2 ^ comp ∧ t = { s with ccx := t.ccx }))
      ∧ ((s.core (coreOf comp)).since + 19532 ≤ s.spn.tick → Goes (.runningTimeout comp) s (fun t =>
        (∃ f, Raised t ⟨3, none, Sub.ccx, .fault f⟩ ∧ f.kind = 0x44 ∧ f.scope = 5) ∧ t = { s with regs := t.regs, spn := t.spn, evr := t.evr }))
      ∧ (s.spn.tick < (s.core (coreOf comp)).since + 19532 → Goes (.runningTimeout comp) s (fun t => t = s)))
    ∧ (∀ comp group num args, comp < 5 → group < 64 → num < 65536 →
      (bit s.ccx.logMask group = true → (s.core (coreOf comp)).st = .running →
        Goes (.tracePoint comp group num args false) s (fun t => t = { s with ccx := { s.ccx with log := t.ccx.log, logCount := s.ccx.logCount + 1 } }
          ∧ (∀ k, tget (dflt none) t.ccx.log k = (if k = s.ccx.logCount % 262144 then some ⟨s.spn.tick, coreOf comp, comp, group, num, slice args 0 16⟩
            else tget (dflt none) s.ccx.log k)))
        ∧ Goes (.tracePoint comp group num args true) s (fun t => t.rf R.ccxLog 31 18 = min 0x3FFF (s.rf R.ccxLog 31 18 + 1) ∧ t = { s with regs := t.regs }))
      ∧ (bit s.ccx.logMask group = false → ∀ busy, Goes (.tracePoint comp group num args busy) s (fun t => t = s)))

/-- FW_LOAD and FW_UPDATE, next to start with a length and nothing being read, ask the host for the header at SRC, an update entering phase 1; during
another they end with BUSY_RETRY. QUIESCE_END in phase 2 with no other command running, or 78,125 tk after its start, holds every core and enters
phase 3. ADOPT in phase 4 with no other command running makes the standby image the active one, ends the update with OK and derives the alias key
again; ROLLBACK from 781,250 tk after the start keeps the old image and ends it with CHECK_FAILED. (20_commands_pods_jobs_recovery.md,
21_control_complex_firmware.md) -/
def Obligations.FirmwareIsLoadedAndUpdated : Prop :=
  let reads := fun (t : State) (addr : Nat) => ∃ a ∈ t.tpl.accs, a.use = .fw ∧ a.fn = pf0 ∧ a.write = false ∧ a.addr = addr ∧ a.len = 512
  let waits := fun (s : State) (r : CmdRef) => ∃ e ∈ (s.mb r.fn).exec, e.ref = r ∧ e.done = false
  let quiet := fun (s : State) => ∀ f, f < 65 → ∀ e ∈ (s.mb f).exec, e.stage = .running → e.done = false → some e.ref = s.ccx.updCmd
  let rederived := fun (s t : State) => if s.aliasUp = false then t.vlt.st = s.vlt.st ∧ t.draws = s.draws
    else if s.vlt.drbgStopped then t.vlt.st = 2 ∧ t.vlt.cdi2 = [] ∧ t.draws = s.draws
    else t.vlt.st = 3 ∧ t.vlt.cdi2 = kdf s.vlt.cdi1 "LLY-CDI2" (t.dgOf 1 ++ t.dgOf 0 ++ t.dgOf 2 ++ t.modeBytes) 384 ∧ t.draws = s.draws + 1
  ∀ (s : State),
    (∀ e, let src := fieldAt e.entry 0x10 8
      let len := fieldAt e.entry 0x18 4
      len ≠ 0 → (Starts s pf0 Op.fwLoad e →
        (s.ccx.job = none → Goes .fwLoad s (fun t => (∃ j, t.ccx.job = some j ∧ j.update = false ∧ j.src = src ∧ j.len = len ∧ j.cmd = some e.ref)
          ∧ t.ccx.phase = s.ccx.phase ∧ reads t src ∧ t = { s with tpl := t.tpl, hfp := t.hfp, mbx := t.mbx, ccx := t.ccx, out := t.out }))
        ∧ (s.ccx.job ≠ none → Goes .fwLoad s (fun t => Ended t e.ref Status.busyRetry ∧ t = { s with mbx := t.mbx })))
      ∧ (Starts s pf0 Op.fwUpdate e →
        (s.ccx.job = none → ¬ (1 ≤ s.ccx.phase ∧ s.ccx.phase ≤ 4) → Goes .fwUpdate s (fun t =>
          (∃ j, t.ccx.job = some j ∧ j.update = true ∧ j.src = src ∧ j.len = len ∧ j.cmd = some e.ref) ∧ t.ccx.phase = 1 ∧ reads t src ∧ t = { s with tpl := t.tpl, hfp := t.hfp, mbx := t.mbx, ccx := t.ccx, out := t.out }))
        ∧ (1 ≤ s.ccx.phase ∧ s.ccx.phase ≤ 4 → Goes .fwUpdate s (fun t => Ended t e.ref Status.busyRetry ∧ t = { s with mbx := t.mbx }))))
    ∧ (s.ccx.phase = 2 →
      (quiet s ∨ s.ccx.quiesceAt + 78125 ≤ s.spn.tick → Goes .quiesceEnd s (fun t => t.ccx.phase = 3 ∧ t.ccx.active = s.ccx.active ∧ t.ccx.standby = s.ccx.standby
        ∧ (∀ c, c < 4 → (t.core c).st = .held ∧ (t.core c).running = 0) ∧ t = { s with ccx := t.ccx }))
      ∧ (¬ quiet s → s.spn.tick < s.ccx.quiesceAt + 78125 → Goes .quiesceEnd s (fun t => t = s)))
    ∧ (s.ccx.phase ≠ 2 → Goes .quiesceEnd s (fun t => t = s))
    ∧ (∀ i, s.ccx.standby = some i →
      (s.ccx.phase = 4 → quiet s → (∀ r, s.ccx.updCmd = some r → r.op = Op.fwUpdate) → Goes .adopt s (fun t =>
        t.ccx.active = some i ∧ t.ccx.standby = none ∧ t.ccx.phase = 0 ∧ t.ccx.ledgerVer = i.ledgerVer ∧ t.vlt.svnControl = i.controlSvn ∧ rederived s t
        ∧ (∀ r, s.ccx.updCmd = some r → waits s r → Ended t r Status.ok) ∧ (∀ c, c < 4 → (t.core c).running = compMask c) ∧ t = { s with regs := t.regs, spn := t.spn, bnd := t.bnd, chk := t.chk, mce := t.mce, tpl := t.tpl, pcm := t.pcm, hfp := t.hfp, mbx := t.mbx, vlt := t.vlt, ccx := t.ccx, evr := t.evr, draws := t.draws, out := t.out }))
      ∧ (s.ccx.phase ≠ 4 → Goes .adopt s (fun t => t = s)))
    ∧ (∀ i, s.ccx.active = some i → 2 ≤ s.ccx.phase → s.ccx.phase ≤ 4 →
      (s.ccx.quiesceAt + 781250 ≤ s.spn.tick → Goes .rollback s (fun t => t.ccx.active = some i ∧ t.ccx.standby = none ∧ t.ccx.phase = 5
        ∧ (∀ c, c < 4 → (t.core c).st = .held ∧ (t.core c).running = 0) ∧ t.vlt.svnControl = s.vlt.svnControl ∧ rederived s t
        ∧ (∀ r, s.ccx.job = none → s.ccx.updCmd = some r → waits s r → Ended t r Status.checkFailed) ∧ t = { s with regs := t.regs, tpl := t.tpl, hfp := t.hfp, mbx := t.mbx, vlt := t.vlt, ccx := t.ccx, evr := t.evr, draws := t.draws }))
      ∧ (s.spn.tick < s.ccx.quiesceAt + 781250 → Goes .rollback s (fun t => t = s)))

/-- For every command c, queue rest and state s, the step of s with c in front of rest is the effect of c on s with rest as its queue. With an empty queue
the step answers the state as it is: that the block idles there, ticks being commands, is the model's own choice (log 25) and no rule of the spec.
(00_scope.md, 02_spindle_and_clocks.md) -/
def Obligations.StepTakesTheFrontCommand : Prop :=
  (∀ (c : Instr) (rest : List Instr) (s : State), step { s with pending := c :: rest } = exec c { s with pending := rest })
  ∧ ∀ s : State, s.pending = [] → step s = .next s

/-- In State.reset: the count is 0 and no event or command waits; no slice is defined, no image bound, no grain owned; KeyID 0 is the system's and every
other is free; both banks are empty; all 16,384 buffers are free; every link is down; every function has GEN 1 and an unlocked interface; every
control core is held; no fault is in handling, the device is neither halted nor in a block reset and shows neither on its pins; the recorder is empty;
and every register of the map reads the reset value of its row. What the spec leaves open at reset is the model's choice (log 26) and not said here.
(02_spindle_and_clocks.md, 03_slices_and_binder.md, 05_memory_crypt.md, 12_buffers_credits_conservation.md, 13_fabric_ports.md, 17_host_functions.md,
22_faults_and_recovery.md, 23_power_reset_startup.md, 24_event_recorder.md, 26_register_map.md) -/
def Obligations.ResetLeavesTheStartState : Prop :=
  let s := State.reset
  s.spn.tick = 0 ∧ s.raised = [] ∧ s.spn.effs = [] ∧ s.pending = [] ∧ s.slices = [] ∧ (∀ i, (s.image i).bound = false) ∧ (∀ g, (s.grain g).st ≠ .owned)
  ∧ (s.key 0).st = .system ∧ (∀ k, k ≠ 0 → (s.key k).st = .free) ∧ (s.bank 0).st = .empty ∧ (s.bank 1).st = .empty
  ∧ s.tpl.free = 16384 ∧ (∀ p l, (s.link p l).st = .down) ∧ (∀ f, (s.fn f).gen = 1 ∧ (s.fn f).tdisp = .unlocked) ∧ (∀ c, (s.core c).st = .held)
  ∧ (∀ n, (s.fsl n).phase = .none) ∧ s.mce.halted = false ∧ s.flt.block = 0 ∧ s.pins.haltN = true ∧ s.pins.alertN = true ∧ s.hfp.fwReady = false
  ∧ s.evr.mem = [] ∧ s.evr.inq = [] ∧ s.vlt.st = 0 ∧ (∀ a r, rowAt a = some r → s.rd a = r.reset % 2 ^ 32)

/-- Applied to a state in which its condition holds: a class 1 event halts the device, the fence standing, LLY_HALT_n asserted, no key usable or held,
nothing waiting in the crypt engines or the vault, the cause in its registers, slices and fuses as they were, and a second one changes nothing. A
block reset, with none before, begins at the tick with both banks empty. A poisoning makes its grains POISON and leaves every other, a scrub takes a
grain from DIRTY through SCRUBBING to BLANK, the end of a walk frees its key with its index kept, and an admitted doorbell advances the tail and the
counts. (02_spindle_and_clocks.md, 03_slices_and_binder.md, 05_memory_crypt.md, 10_dispatch_and_preemption.md, 22_faults_and_recovery.md) -/
def Obligations.DecidedEventsTakeEffect : Prop :=
  ∀ (s : State) (stamp due : Nat) (sl : Option Nat) (cls src : Nat) (nums : List Nat) (later : List Ev),
    let applied := fun (b : EvBody) => s.applyEvent ⟨stamp, due, ⟨cls, sl, src, b⟩, nums, later⟩
    (∀ source port tag grain line, let t := applied (.secHalt source port tag grain line)
      (s.mce.halted = false → Tbl.wf (dflt KeyE.init) s.mce.keys →
        t.mce.halted = true ∧ t.mce.fenced = true ∧ t.pins.haltN = false ∧ (∀ k, (t.key k).live = false ∧ (t.key k).st = (s.key k).st ∧ (t.key k).dix = (s.key k).dix ∧ (t.key k).share = [] ∧ (t.key k).mask = [])
        ∧ t.mce.reqs = [] ∧ t.mce.tagc = [] ∧ t.vlt.reqs = [] ∧ t.vlt.chals = [] ∧ t.vlt.secrets = [] ∧ t.vlt.cdi0 = [] ∧ t.vlt.cdi1 = [] ∧ t.vlt.cdi2 = [] ∧ t.pcm.roots = [] ∧ t.vlt.st = 4
        ∧ t.rd R.mceHaltCause = (source + 256 * (port % 256) + 65536 * (tag % 256)) % 2 ^ 32 ∧ t.rd R.mceHaltGrain = grain % 2 ^ 32
        ∧ t.rd R.mceHaltLine = line % 2 ^ 32
        ∧ t = { s with tpl := t.tpl, hfp := t.hfp, pins := t.pins, vlt := t.vlt, mbx := t.mbx, pcm := t.pcm, evr := t.evr, regs := t.regs, fpc := t.fpc, mce := t.mce })
      ∧ (s.mce.halted = true → t = s))
    ∧ (∀ x, let t := applied (.blockReset x)
      (s.flt.block = 0 → s.flt.readyTick = none → t.flt.block = 1 ∧ t.flt.blockAt = s.spn.tick ∧ t.flt.blocks = min 0xFF (s.flt.blocks + 1)
        ∧ (t.bank 0).st = .empty ∧ (t.bank 1).st = .empty ∧ t.mce.reqs = [] ∧ t.mce.colls = [] ∧ t.mce.tagc = [] ∧ t.bnd.defs = s.bnd.defs ∧ t.lc = s.lc)
      ∧ (s.flt.block = 2 → t = s))
    ∧ (∀ first count x, let t := applied (.grainPoison first count x)
      (∀ g, first ≤ g → g < first + count → g < nGrains → (t.grain g).st = .poison)
      ∧ (∀ g, ¬ (first ≤ g ∧ g < first + count ∧ g < nGrains) → t.grain g = s.grain g) ∧ t.bnd.defs = s.bnd.defs
      ∧ t = { s with bnd := t.bnd, hfp := t.hfp, regs := t.regs })
    ∧ (∀ g, ((s.grain g).st = .dirty → applied (.scrubStart g) = (s.scrubFrom g).modGrain g (fun x => { x with st := .scrubbing }))
      ∧ ((s.grain g).st = .scrubbing → applied (.scrubDone g) = (s.scrubFrom g).modGrain g (fun _ => GrainE.blank) ∧ ((applied (.scrubBad g)).grain g).st = .poison)
      ∧ ((s.grain g).st ≠ .scrubbing → applied (.scrubDone g) = s.scrubFrom g ∧ applied (.scrubBad g) = s))
    ∧ (∀ k, let t := applied (.keyRetire k)
      ((s.key k).st = .retiring → t.key k = ⟨.free, 0, (s.key k).dix, false, [], []⟩ ∧ (∀ j, j ≠ k → t.key j = s.key j)
        ∧ t = { s with mce := { s.mce with keys := t.mce.keys, walks := t.mce.walks } })
      ∧ ((s.key k).st ≠ .retiring → t = s))
    ∧ (∀ n q count got x, nums = [got] → s.queue n q = some x → x.stopped = false → let t := applied (.doorbell n q count)
      (∃ y, t.queue n q = some y ∧ y.tail = x.tail + got ∧ y.submitted = x.submitted + count ∧ y.admitted = x.admitted + got
        ∧ y.refused = x.refused + (count - got) ∧ y.rel = x.rel ∧ y.turn = x.turn ∧ y.dbst = (if got < count then Status.queueFull else Status.ok))
      ∧ t.dpa.tasks = s.dpa.tasks ∧ t.dpa.cpls = s.dpa.cpls ∧ t = { s with tpl := t.tpl, hfp := t.hfp, dpa := t.dpa, fld := t.fld, out := t.out })

/-- For every state s, if the step of s answers next t: the queue of t is that of s without its front command; every fuse bit set in s is set in t, in
each row; and unless the front command was FUSE_BIT_DONE the fuse rows are unchanged. So fuses only burn forward over any run, no command issues
commands, and a run of k commands takes k steps. (16_lifecycle_and_debug.md, 18_mailbox_protocol.md, 25_boundary_signals.md) -/
def Obligations.EveryStepTakesOneCommandAndFusesOnlyGain : Prop :=
  ∀ s t : State, step s = .next t →
    t.pending = s.pending.tail ∧ (∀ r, s.otpRow r &&& t.otpRow r = s.otpRow r) ∧ (t.lc.otp = s.lc.otp ∨ ∃ ok, s.pending.head? = some (.fuseBitDone ok))

/-- For every state s whose front command is none of the commands by which a warm or cold reset can begin, if the step of s answers next t: a security
halt of s stands in t, and begins only at a TICK; the slice definitions in force change only at a TICK, where commits take effect; the firmware counts
as ready only after FW_READY; and the tick count changes only at TICK, at an alignment response or at the end of a wake from DEEP.
(02_spindle_and_clocks.md, 04_chuck_and_rebinding.md, 05_memory_crypt.md, 14_fabric_security_and_abort.md, 16_lifecycle_and_debug.md,
23_power_reset_startup.md) -/
def Obligations.OnlyTicksAndResetsRuleTheMachine : Prop :=
  let resets := fun (c : Instr) => c ∈ [Instr.coldReset, .warmReset, .vddLlyLoss, .secureDomainPowerUp, .backupTimeout, .epochBoundary, .extest, .clamp, .highz,
      .tapReset] ∨ (∃ op, c = .instructionLoad op) ∨ ∃ ok, c = .fuseBitDone ok
  ∀ (s t : State) (c : Instr) (rest : List Instr), s.pending = c :: rest → step s = .next t → ¬ resets c →
    (s.mce.halted = true → t.mce.halted = true)
    ∧ (c ≠ .tick → t.mce.halted = s.mce.halted ∧ t.bnd.defs = s.bnd.defs ∧ (c ≠ .fwReady → t.hfp.fwReady = s.hfp.fwReady))
    ∧ (c ≠ .tick → (∀ periods wake, c ≠ .wakeDone periods wake) → (∀ p l hdr t1 t2 t3 t4 off ue tag, c ≠ .alignResponse p l hdr t1 t2 t3 t4 off ue tag) →
        t.spn.tick = s.spn.tick)

end
end

