-- ==== Sys2Proof/Laws/Cipher.lean ====
section
/-! SUPPORT. The lengths of what the ciphers give, shown without evaluating them, and that the tags a sender forms are those a receiver takes. -/

namespace Sys2Proof.Machine

@[simp] theorem length_slice (bs : List Byte) (o n : Nat) : (slice bs o n).length = n := by
  simp only [slice, List.length_append, List.length_replicate, List.length_take]; omega

@[simp] theorem length_xorBytes (a b : List Byte) : (xorBytes a b).length = min a.length b.length := by simp [xorBytes]

@[simp] theorem length_leBytes (n v : Nat) : (leBytes n v).length = n := by
  induction n generalizing v with
  | zero => simp [leBytes]
  | succ n ih => simp_all [leBytes]

@[simp] theorem length_beBytes (n v : Nat) : (beBytes n v).length = n := by simp [beBytes]

/-- The key schedule of a 32-byte key: 60 words of 4 bytes. -/
theorem aesWords_words (t : Nat) (key : List Byte) (hk : key.length = 32) :
    (aesWords t key).length = 60 ∧ ∀ w ∈ aesWords t key, w.length = 4 := by
  have h0 : (blocksOf 4 8 key).length = 8 ∧ ∀ w ∈ blocksOf 4 8 key, w.length = 4 := by
    refine ⟨by simp [blocksOf], fun w hw => ?_⟩
    simp only [blocksOf, List.mem_map, List.mem_range] at hw
    obtain ⟨i, hi, rfl⟩ := hw
    simp only [List.length_take, List.length_drop, hk]; omega
  have step : ∀ n, let f := (List.range n).foldl (fun (w : List (List Byte)) i =>
      let prev := w.getD (i + 7) []
      let x := if i % 8 = 0 then xorBytes (subBytes t (prev.drop 1 ++ prev.take 1)) [BitVec.ofNat 8 (2 ^ (i / 8)), 0, 0, 0]
        else if i % 8 = 4 then subBytes t prev else prev
      w ++ [xorBytes (w.getD i []) x]) (blocksOf 4 8 key)
      f.length = 8 + n ∧ ∀ w ∈ f, w.length = 4 := by
    intro n
    induction n with
    | zero => simpa using h0
    | succ n ih =>
      simp only [List.range_succ, List.foldl_append, List.foldl_cons, List.foldl_nil] at ih ⊢
      generalize (List.range n).foldl _ (blocksOf 4 8 key) = f at ih ⊢
      obtain ⟨hl, hw⟩ := ih
      have at4 : ∀ k, k < 8 + n → (f.getD k []).length = 4 := fun k hk => by
        simp only [List.getD, List.getElem?_eq_getElem (show k < f.length by omega), Option.getD_some]; exact hw _ (List.getElem_mem _)
      refine ⟨by simp [hl]; omega, fun w hm => ?_⟩
      rcases List.mem_append.mp hm with hm | hm
      · exact hw w hm
      · simp only [List.mem_singleton] at hm
        subst hm
        have a := at4 n (by omega)
        have b := at4 (n + 7) (by omega)
        rw [length_xorBytes, a]
        split
        · simp only [length_xorBytes, subBytes, List.length_map, List.length_append, List.length_drop, List.length_take, b, List.length_cons, List.length_nil]; rfl
        · split <;> simp only [subBytes, List.length_map, b] <;> rfl
  simpa [aesWords] using step 52

/-- A block enciphered under a key schedule has 16 bytes. -/
theorem length_aesBlock (t : Nat) (key b : List Byte) (hk : key.length = 32) : (aesBlock t (aesWords t key) b).length = 16 := by
  obtain ⟨hl, hw⟩ := aesWords_words t key hk
  have hr : (roundKey (aesWords t key) 14).length = 16 := by
    generalize aesWords t key = w at hl hw
    simp only [roundKey, List.length_flatten]
    have h4 : ((w.drop (4 * 14)).take 4).map List.length = [4, 4, 4, 4] := by
      refine List.ext_getElem (by simp [hl]) fun i h1 h2 => ?_
      simp only [List.getElem_map]
      have : ∀ x ∈ (w.drop (4 * 14)).take 4, x.length = 4 := fun x hx => hw x (List.mem_of_mem_drop (List.mem_of_mem_take hx))
      rw [this _ (List.getElem_mem _)]
      simp only [List.length_cons, List.length_nil] at h2
      have : i = 0 ∨ i = 1 ∨ i = 2 ∨ i = 3 := by omega
      rcases this with rfl | rfl | rfl | rfl <;> rfl
    rw [h4]; rfl
  simp only [aesBlock, length_xorBytes, hr]
  simp [shiftRows]

/-- Counter mode keeps the length of its text. -/
theorem length_gcmCtr (key iv d : List Byte) (hk : key.length = 32) : (gcmCtr (aesWords sboxWord key) iv d).length = d.length := by
  have part : ∀ n, ((List.range n).map (fun i => xorBytes ((d.drop (16 * i)).take 16)
      (aesBlock sboxWord (aesWords sboxWord key) (iv ++ beBytes 4 (i + 2))))).flatten.length = min (16 * n) d.length := by
    intro n
    induction n with
    | zero => simp
    | succ n ih =>
      simp only [List.range_succ, List.map_append, List.flatten_append, List.length_append, ih]
      simp only [List.map_cons, List.map_nil, List.flatten_cons, List.flatten_nil, List.append_nil, length_xorBytes, List.length_take, List.length_drop,
        length_aesBlock _ _ _ hk]
      omega
  simp only [gcmCtr, part, ceilDiv]
  omega

/-- A GCM tag has 16 bytes. -/
theorem length_gcmTag (key iv aad c : List Byte) (hk : key.length = 32) : (gcmTag (aesWords sboxWord key) iv aad c).length = 16 := by
  simp [gcmTag, length_aesBlock _ _ _ hk]

/-- A sealed flit is 256 bytes, its tag the last 16. -/
theorem length_sealFlit (key : List Byte) (ctr hdr : Nat) (p : List Byte) : (sealFlit key ctr hdr p).length = 256 := by
  simp only [sealFlit, gcmSeal, List.length_append, length_leBytes, length_gcmTag _ _ _ _ (length_slice key 0 32), length_gcmCtr _ _ _ (length_slice key 0 32),
    List.length_take, length_slice]
  split <;> simp

/-- The tags a sender forms over flits, in order. -/
def tagsFor (key : List Byte) (ctr : Nat) (fs : List (Nat × List Byte)) : List Byte :=
  fs.zipIdx.flatMap (fun e => (sealFlit key (ctr + e.2) e.1.1 e.1.2).drop 240)

/-- They are the tags the receiver takes. -/
theorem tagsOk_tagsFor (key : List Byte) (ctr : Nat) (fs : List (Nat × List Byte)) : tagsOk key ctr fs (tagsFor key ctr fs) = true := by
  have main : ∀ (fs : List (Nat × List Byte)) (k : Nat) (pre : List Byte), pre.length = 16 * k →
      (fs.zipIdx k).all (fun e => (sealFlit key (ctr + e.2) e.1.1 e.1.2).drop 240
        == slice ((pre ++ (fs.zipIdx k).flatMap (fun e => (sealFlit key (ctr + e.2) e.1.1 e.1.2).drop 240)).drop (16 * e.2)) 0 16) = true := by
    intro fs
    induction fs with
    | nil => intro k pre _; simp
    | cons f fs ih =>
      intro k pre hp
      simp only [List.zipIdx_cons, List.all_cons, List.flatMap_cons, Bool.and_eq_true, beq_iff_eq]
      have hl : ((sealFlit key (ctr + k) f.1 f.2).drop 240).length = 16 := by simp [length_sealFlit]
      refine ⟨?_, ?_⟩
      · rw [List.drop_append, ← hp, List.drop_length, List.nil_append, Nat.sub_self, List.drop_zero]
        simp only [slice, List.drop_zero]
        rw [List.take_append_of_le_length (by omega), List.take_of_length_le (by omega), hl]
        simp
      · have := ih (k + 1) (pre ++ (sealFlit key (ctr + k) f.1 f.2).drop 240) (by rw [List.length_append, hp, hl]; omega)
        simpa only [List.append_assoc] using this
  simpa [tagsOk, tagsFor] using main fs 0 [] rfl

/-- With every bit of them flipped they are not. -/
theorem tagsOk_flipped (key : List Byte) (ctr hdr : Nat) (d : List Byte) :
    tagsOk key ctr (flitsOf hdr d) ((tagsFor key ctr (flitsOf hdr d)).map (~~~ ·)) = false := by
  obtain ⟨f, fs, hf⟩ : ∃ f fs, flitsOf hdr d = f :: fs := by
    have : flitsOf hdr d ≠ [] := by simp only [flitsOf, ne_eq, List.map_eq_nil_iff, List.range_eq_nil]; omega
    exact List.exists_cons_of_ne_nil this
  have hl : ((sealFlit key (ctr + 0) f.1 f.2).drop 240).length = 16 := by simp [length_sealFlit]
  rw [hf, tagsOk, tagsFor, Bool.eq_false_iff]
  intro h
  simp only [List.zipIdx_cons, List.all_cons, List.flatMap_cons, Bool.and_eq_true, beq_iff_eq, Nat.mul_zero, List.drop_zero, List.map_append] at h
  have h := h.1
  generalize (sealFlit key (ctr + 0) f.1 f.2).drop 240 = x at h hl
  rw [slice, List.drop_zero, List.take_append_of_le_length (by simp [hl]), List.take_of_length_le (by simp [hl]), List.length_map, hl, Nat.sub_self] at h
  cases x with
  | nil => cases hl
  | cons b x =>
    simp only [List.map_cons, List.replicate_zero, List.append_nil, List.cons.injEq] at h
    have := congrArg (fun v => v.getLsbD 0) h.1
    simp at this

end Sys2Proof.Machine
end

