-- ==== Sys2Proof/Laws/Table.lean ====
section
/-! SUPPORT. The sparse tables: reading back what was written, reading beside it, and that every operation keeps the canonical form. -/

namespace Sys2Proof.Laws

open Sys2Proof.Machine

variable {α : Type}

theorem tget_tdel_ne (d : Nat → α) (t : Tbl α) {k j : Nat} (h : j ≠ k) : tget d (tdel t k) j = tget d t j := by
  induction t with
  | nil => rfl
  | cons e r ih =>
    obtain ⟨i, v⟩ := e
    by_cases hi : i = k
    · subst hi; simp_all [tdel, tget, Ne.symm h]
    · have : tdel ((i, v) :: r) k = (i, v) :: tdel r k := by simp [tdel, hi]
      simp only [this, tget, ih]

theorem tget_tdel_same (d : Nat → α) (t : Tbl α) (k : Nat) : tget d (tdel t k) k = d k := by
  induction t with
  | nil => rfl
  | cons e r ih =>
    obtain ⟨i, v⟩ := e
    by_cases hi : i = k
    · subst hi; simpa [tdel] using ih
    · have : tdel ((i, v) :: r) k = (i, v) :: tdel r k := by simp [tdel, hi]
      simp only [this, tget, hi, if_false, ih]

theorem tget_tins (d : Nat → α) (t : Tbl α) (k j : Nat) (v : α) (h : ∀ e ∈ t, e.1 ≠ k) :
    tget d (tins t k v) j = if j = k then v else tget d t j := by
  induction t with
  | nil => simp [tins, tget, eq_comm]
  | cons e r ih =>
    obtain ⟨i, w⟩ := e
    have hi : i ≠ k := h (i, w) (by simp)
    have ih := ih (fun e he => h e (by simp [he]))
    unfold tins
    split
    · simp [tget, eq_comm]
    · simp only [tget, ih]
      by_cases hj : i = j
      · subst hj; simp [hi]
      · simp [hj]

theorem tdel_no (t : Tbl α) (k : Nat) : ∀ e ∈ tdel t k, e.1 ≠ k := by
  intro e he; simpa using (List.mem_filter.mp he).2

variable [DecidableEq α]

/-- What a place reads after a write: the value written there, what it read before elsewhere. -/
theorem tget_tset (d : Nat → α) (t : Tbl α) (k j : Nat) (v : α) : tget d (tset d t k v) j = if j = k then v else tget d t j := by
  unfold tset
  split
  · next h =>
    by_cases hj : j = k
    · subst hj; simp [tget_tdel_same, h]
    · simp [hj, tget_tdel_ne d t hj]
  · rw [tget_tins d _ k j v (tdel_no t k)]
    by_cases hj : j = k
    · simp [hj]
    · simp [hj, tget_tdel_ne d t hj]

@[simp] theorem tget_tset_same (d : Nat → α) (t : Tbl α) (k : Nat) (v : α) : tget d (tset d t k v) k = v := by simp [tget_tset]

theorem tget_tset_ne (d : Nat → α) (t : Tbl α) {k j : Nat} (v : α) (h : j ≠ k) : tget d (tset d t k v) j = tget d t j := by
  simp [tget_tset, h]

theorem tget_tmod (d : Nat → α) (t : Tbl α) (k j : Nat) (f : α → α) :
    tget d (tmod d t k f) j = if j = k then f (tget d t k) else tget d t j := by
  simp [tmod, tget_tset]

theorem tdel_wf (d : Nat → α) (t : Tbl α) (k : Nat) (h : Tbl.wf d t) : Tbl.wf d (tdel t k) :=
  ⟨h.1.filter _, fun e he => h.2 e (List.mem_filter.mp he).1⟩

omit [DecidableEq α] in
theorem tins_mem {t : Tbl α} {k : Nat} {v : α} {e : Nat × α} (h : e ∈ tins t k v) : e = (k, v) ∨ e ∈ t := by
  induction t with
  | nil => simpa [tins] using h
  | cons a r ih =>
    unfold tins at h
    split at h
    · rcases List.mem_cons.mp h with h | h
      · exact .inl h
      · exact .inr h
    · rcases List.mem_cons.mp h with h | h
      · exact .inr (by simp [h])
      · rcases ih h with h | h
        · exact .inl h
        · exact .inr (by simp [h])

theorem tins_wf (d : Nat → α) (t : Tbl α) (k : Nat) (v : α) (h : Tbl.wf d t) (hv : v ≠ d k) (hk : ∀ e ∈ t, e.1 ≠ k) : Tbl.wf d (tins t k v) := by
  refine ⟨?_, ?_⟩
  · have hp := h.1
    clear h
    induction t with
    | nil => simp [tins]
    | cons a r ih =>
      have ha := List.pairwise_cons.mp hp
      have hak : a.1 ≠ k := hk a (by simp)
      unfold tins
      split
      · next hlt =>
        refine List.pairwise_cons.mpr ⟨fun e he => ?_, hp⟩
        rcases List.mem_cons.mp he with he | he
        · rw [he]; exact hlt
        · exact Nat.lt_trans hlt (ha.1 e he)
      · next hlt =>
        have hlt : ¬ k < a.1 := hlt
        refine List.pairwise_cons.mpr ⟨fun e he => ?_, ih (fun e he => hk e (by simp [he])) ha.2⟩
        rcases tins_mem he with he | he
        · rw [he]; show a.1 < k; omega
        · exact ha.1 e he
  · intro e he
    rcases tins_mem he with he | he
    · rw [he]; exact hv
    · exact h.2 e he

/-- Every write of a table keeps its canonical form. -/
theorem tset_wf (d : Nat → α) (t : Tbl α) (k : Nat) (v : α) (h : Tbl.wf d t) : Tbl.wf d (tset d t k v) := by
  unfold tset
  split
  · exact tdel_wf d t k h
  · next hv => exact tins_wf d _ k v (tdel_wf d t k h) hv (tdel_no t k)

theorem tmod_wf (d : Nat → α) (t : Tbl α) (k : Nat) (f : α → α) (h : Tbl.wf d t) : Tbl.wf d (tmod d t k f) := tset_wf d t k _ h

theorem tmap_wf (d : Nat → α) (t : Tbl α) (f : Nat → α → α) (h : Tbl.wf d t) : Tbl.wf d (tmap d t f) := by
  refine ⟨?_, fun e he => by simpa using (List.mem_filter.mp he).2⟩
  have hm : (t.map (fun e => (e.1, f e.1 e.2))).Pairwise (fun a b => a.1 < b.1) := by rw [List.pairwise_map]; exact h.1
  exact hm.filter _

/-- A map that leaves the default alone acts on every key. -/
theorem tget_tmap (d : Nat → α) (t : Tbl α) (f : Nat → α → α) (k : Nat) (hd : f k (d k) = d k) (hp : t.Pairwise (fun a b => a.1 < b.1)) :
    tget d (tmap d t f) k = f k (tget d t k) := by
  induction t with
  | nil => simp [tmap, tget, hd]
  | cons e t ih =>
    obtain ⟨j, v⟩ := e
    have ih := ih (List.pairwise_cons.mp hp).2
    have hno : j = k → ∀ x ∈ t, x.1 ≠ k := fun h x hx => by have := (List.pairwise_cons.mp hp).1 x hx; simp only at this; omega
    simp only [tmap, List.map_cons, List.filter_cons] at ih ⊢
    by_cases hj : j = k
    · subst hj
      have hz : ∀ u : Tbl α, (∀ x ∈ u, x.1 ≠ j) → tget d u j = d j := fun u hu => by
        induction u with
        | nil => rfl
        | cons x u iu =>
          simp only [tget]
          rw [if_neg (hu x List.mem_cons_self)]
          exact iu fun y hy => hu y (List.mem_cons_of_mem _ hy)
      simp only [tget]
      split
      · simp [tget]
      · next hv =>
        simp only [bne_iff_ne, ne_eq, Decidable.not_not] at hv
        rw [if_pos trivial, hv]
        apply hz
        intro x hx
        obtain ⟨y, hy, rfl⟩ := List.mem_map.mp (List.mem_filter.mp hx).1
        exact hno rfl y hy
    · split
      · simp only [tget, if_neg hj]; exact ih
      · simp only [tget, if_neg hj]; exact ih

theorem tmodAll_wf (d : Nat → α) (ks : List Nat) (f : Nat → α → α) (t : Tbl α) (h : Tbl.wf d t) : Tbl.wf d (tmodAll d t ks f) := by
  unfold tmodAll
  induction ks generalizing t with
  | nil => exact h
  | cons k ks ih => exact ih _ (tmod_wf d t k (f k) h)

end Sys2Proof.Laws
end

