-- ==== Sys2Proof/Laws/Ops.lean ====
section
/-! SUPPORT. The shared operations: what a register write reads back as, where a gated write takes effect, that a raised event waits, and how a mailbox command
starts and ends. -/

namespace Sys2Proof.Laws

open Sys2Proof.Machine

/-! ## Registers -/

theorem rd_wr (s : State) (a b v : Nat) : (s.wr a v).rd b = if b = a then v % 2 ^ 32 else s.rd b := by
  unfold State.rd State.wr
  simp only [tget_tset]
  split <;> simp

theorem rd_lt (s : State) (a : Nat) : s.rd a < 2 ^ 32 := (tget regReset s.regs a).isLt

theorem wr_eq (s : State) (a v : Nat) : s.wr a v = { s with regs := (s.wr a v).regs } := rfl

@[simp] theorem rd_emit (s : State) (k : OutKind) (n : List Nat) (d : List Byte) (a : Nat) : (s.emit k n d).rd a = s.rd a := rfl

theorem runs_deepDown {s : State} (h : s.Runs) : s.deepDown = false := by simp [State.deepDown, h.deep]

theorem runs_wakeUp {s : State} (h : s.Runs) : s.wakeUp = s := by simp [State.wakeUp, h.deep]

/-- While the block runs, a served write of PF0's window takes effect. -/
theorem gated_runs {s : State} (hr : s.Runs) {src a : Nat} (h : s.readable src a = true) (v : Nat) (f : State → State) : s.gated src a v f = f s := by
  have h1 : (src == 1 && !s.ddpMay a) = false := by
    simp only [State.readable, Bool.and_eq_true, Bool.or_eq_true, bne_iff_ne, ne_eq] at h
    cases hm : s.ddpMay a <;> simp_all
  unfold State.gated
  simp only [runs_wakeUp hr, runs_deepDown hr, hr.reset, hr.cfg, h1, ite_self, State.answers, hr.fw]
  simp [hr.halt, hr.block]

theorem readable_host {s : State} (hr : s.Runs) (a : Nat) : s.readable 0 a = true := by simp [State.readable, hr.reset, hr.cfg]

/-- So does a write of the window of a VF that presents a slice. -/
theorem gatedVf_runs {s : State} (hr : s.Runs) {f : Nat} (he : s.exists f = true) (hf : f < 64) (hp : (s.presents f).isSome = true) (off v : Nat)
    (g : State → State) : s.gatedVf f off v g = g s := by
  unfold State.gatedVf
  simp [runs_wakeUp hr, runs_deepDown hr, hr.reset, hr.cfg, he, hf, hp]

/-! ## Events -/

/-- A raised event waits; only the Spindle's queues, and LLY_SPN_QOVF where a queue is full, change. -/
theorem raise_spec (s : State) (e : Ev) : Raised (s.raise e) e ∧ s.raise e = { s with spn := (s.raise e).spn, regs := (s.raise e).regs } := by
  unfold Raised State.raised State.raise
  dsimp only
  split
  · exact ⟨by simp, rfl⟩
  · split
    · exact ⟨by simp, rfl⟩
    · exact ⟨by simp, rfl⟩

theorem raised_raise (s : State) (e : Ev) : Raised (s.raise e) e := (raise_spec s e).1

/-- What already waited goes on waiting. -/
theorem raised_raise_of (s : State) (e x : Ev) (h : Raised s x) : Raised (s.raise e) x := by
  simp only [Raised, State.raised, List.mem_append] at h
  unfold Raised State.raised State.raise
  dsimp only
  split
  · rcases h with (h | h) | h <;> simp [h]
  · split <;> (rcases h with (h | h) | h <;> simp [h])

/-! ## Mailbox commands -/

/-- The command that starts is in its function's mailbox and has not ended. -/
theorem starts_mem {s : State} {f op : Nat} {e : ExecCmd} (h : Starts s f op e) : e ∈ (s.mb f).exec ∧ e.done = false ∧ e.ref.fn = f := by
  obtain ⟨h, hf⟩ := h
  unfold State.toStart at h
  dsimp only at h
  split at h
  · exact ⟨List.mem_of_find?_eq_some h, by have := List.find?_some h; simp_all, hf⟩
  · split at h
    · cases h
    · next x hx =>
      simp only [Option.ite_none_right_eq_some, Option.some.injEq] at h
      obtain ⟨_, rfl⟩ := h
      exact ⟨List.mem_of_find?_eq_some hx, by have := List.find?_some hx; simp_all, hf⟩

/-- A command of the mailbox that has not ended ends with a status. -/
theorem finish_ended {s : State} {r : CmdRef} {x : ExecCmd} (hx : x ∈ (s.mb r.fn).exec) (hr : x.ref = r) (hd : x.done = false) (st d : Nat) (res : List Byte) :
    Ended (s.finish (some r) st d res) r st := by
  unfold State.finish State.modMb Ended State.mb
  dsimp only
  rw [tget_tmod]
  simp only [if_true, lmod, List.mem_map]
  exact ⟨_, ⟨x, hx, rfl⟩, by simp [hr, hd]⟩

/-- A command that starts stays in its mailbox, not ended, through its start. -/
theorem startCmd_mem {s : State} {f op : Nat} {e : ExecCmd} (h : Starts s f op e) :
    ∃ x ∈ ((s.startCmd e).mb e.ref.fn).exec, x.ref = e.ref ∧ x.done = false := by
  obtain ⟨hm, hd, hf⟩ := starts_mem h
  unfold State.startCmd State.modCmd State.modMb State.mb
  dsimp only
  rw [tget_tmod]
  simp only [if_true, lmod, List.mem_map]
  exact ⟨_, ⟨e, by rw [hf]; exact hm, rfl⟩, by simp [hd]⟩

/-- A command whose field checks pass runs. -/
theorem command_run {s : State} {f op : Nat} {e : ExecCmd} (h : Starts s f op e) (checks : State → ExecCmd → List (Bool × Nat × Nat))
    (run : State → ExecCmd → State) (hc : firstOf (checks (s.startCmd e) e) = none) : s.command f op checks run = run (s.startCmd e) e := by
  unfold State.command State.commandIf State.judge
  simp [h.1, hc]

end Sys2Proof.Laws
end

