-- ==== Sys2Proof/Laws/State.lean ====
section
/-! SUPPORT. One lemma per field of State for each plain update: the fields an update leaves, true by unfolding, and what its own record reads back as. -/

namespace Sys2Proof.Laws

open Sys2Proof.Machine

variable (s : State)

/-! ### `wr`: a register written -/

@[simp] theorem wr_pending (a v : Nat) : (s.wr a v).pending = s.pending := rfl
@[simp] theorem wr_spn (a v : Nat) : (s.wr a v).spn = s.spn := rfl
@[simp] theorem wr_bnd (a v : Nat) : (s.wr a v).bnd = s.bnd := rfl
@[simp] theorem wr_chk (a v : Nat) : (s.wr a v).chk = s.chk := rfl
@[simp] theorem wr_mce (a v : Nat) : (s.wr a v).mce = s.mce := rfl
@[simp] theorem wr_bwr (a v : Nat) : (s.wr a v).bwr = s.bwr := rfl
@[simp] theorem wr_tpl (a v : Nat) : (s.wr a v).tpl = s.tpl := rfl
@[simp] theorem wr_fld (a v : Nat) : (s.wr a v).fld = s.fld := rfl
@[simp] theorem wr_tcu (a v : Nat) : (s.wr a v).tcu = s.tcu := rfl
@[simp] theorem wr_pcm (a v : Nat) : (s.wr a v).pcm = s.pcm := rfl
@[simp] theorem wr_dpa (a v : Nat) : (s.wr a v).dpa = s.dpa := rfl
@[simp] theorem wr_fpc (a v : Nat) : (s.wr a v).fpc = s.fpc := rfl
@[simp] theorem wr_hfp (a v : Nat) : (s.wr a v).hfp = s.hfp := rfl
@[simp] theorem wr_mbx (a v : Nat) : (s.wr a v).mbx = s.mbx := rfl
@[simp] theorem wr_flt (a v : Nat) : (s.wr a v).flt = s.flt := rfl
@[simp] theorem wr_vlt (a v : Nat) : (s.wr a v).vlt = s.vlt := rfl
@[simp] theorem wr_lc (a v : Nat) : (s.wr a v).lc = s.lc := rfl
@[simp] theorem wr_ccx (a v : Nat) : (s.wr a v).ccx = s.ccx := rfl
@[simp] theorem wr_src (a v : Nat) : (s.wr a v).src = s.src := rfl
@[simp] theorem wr_evr (a v : Nat) : (s.wr a v).evr = s.evr := rfl
@[simp] theorem wr_pins (a v : Nat) : (s.wr a v).pins = s.pins := rfl
@[simp] theorem wr_draws (a v : Nat) : (s.wr a v).draws = s.draws := rfl
@[simp] theorem wr_out (a v : Nat) : (s.wr a v).out = s.out := rfl

/-! ### `wf`: a register field written -/

@[simp] theorem wf_pending (a hi lo v : Nat) : (s.wf a hi lo v).pending = s.pending := rfl
@[simp] theorem wf_spn (a hi lo v : Nat) : (s.wf a hi lo v).spn = s.spn := rfl
@[simp] theorem wf_bnd (a hi lo v : Nat) : (s.wf a hi lo v).bnd = s.bnd := rfl
@[simp] theorem wf_chk (a hi lo v : Nat) : (s.wf a hi lo v).chk = s.chk := rfl
@[simp] theorem wf_mce (a hi lo v : Nat) : (s.wf a hi lo v).mce = s.mce := rfl
@[simp] theorem wf_bwr (a hi lo v : Nat) : (s.wf a hi lo v).bwr = s.bwr := rfl
@[simp] theorem wf_tpl (a hi lo v : Nat) : (s.wf a hi lo v).tpl = s.tpl := rfl
@[simp] theorem wf_fld (a hi lo v : Nat) : (s.wf a hi lo v).fld = s.fld := rfl
@[simp] theorem wf_tcu (a hi lo v : Nat) : (s.wf a hi lo v).tcu = s.tcu := rfl
@[simp] theorem wf_pcm (a hi lo v : Nat) : (s.wf a hi lo v).pcm = s.pcm := rfl
@[simp] theorem wf_dpa (a hi lo v : Nat) : (s.wf a hi lo v).dpa = s.dpa := rfl
@[simp] theorem wf_fpc (a hi lo v : Nat) : (s.wf a hi lo v).fpc = s.fpc := rfl
@[simp] theorem wf_hfp (a hi lo v : Nat) : (s.wf a hi lo v).hfp = s.hfp := rfl
@[simp] theorem wf_mbx (a hi lo v : Nat) : (s.wf a hi lo v).mbx = s.mbx := rfl
@[simp] theorem wf_flt (a hi lo v : Nat) : (s.wf a hi lo v).flt = s.flt := rfl
@[simp] theorem wf_vlt (a hi lo v : Nat) : (s.wf a hi lo v).vlt = s.vlt := rfl
@[simp] theorem wf_lc (a hi lo v : Nat) : (s.wf a hi lo v).lc = s.lc := rfl
@[simp] theorem wf_ccx (a hi lo v : Nat) : (s.wf a hi lo v).ccx = s.ccx := rfl
@[simp] theorem wf_src (a hi lo v : Nat) : (s.wf a hi lo v).src = s.src := rfl
@[simp] theorem wf_evr (a hi lo v : Nat) : (s.wf a hi lo v).evr = s.evr := rfl
@[simp] theorem wf_pins (a hi lo v : Nat) : (s.wf a hi lo v).pins = s.pins := rfl
@[simp] theorem wf_draws (a hi lo v : Nat) : (s.wf a hi lo v).draws = s.draws := rfl
@[simp] theorem wf_out (a hi lo v : Nat) : (s.wf a hi lo v).out = s.out := rfl

/-! ### `bump`: a counter register raised -/

@[simp] theorem bump_pending (a n : Nat) : (s.bump a n).pending = s.pending := rfl
@[simp] theorem bump_spn (a n : Nat) : (s.bump a n).spn = s.spn := rfl
@[simp] theorem bump_bnd (a n : Nat) : (s.bump a n).bnd = s.bnd := rfl
@[simp] theorem bump_chk (a n : Nat) : (s.bump a n).chk = s.chk := rfl
@[simp] theorem bump_mce (a n : Nat) : (s.bump a n).mce = s.mce := rfl
@[simp] theorem bump_bwr (a n : Nat) : (s.bump a n).bwr = s.bwr := rfl
@[simp] theorem bump_tpl (a n : Nat) : (s.bump a n).tpl = s.tpl := rfl
@[simp] theorem bump_fld (a n : Nat) : (s.bump a n).fld = s.fld := rfl
@[simp] theorem bump_tcu (a n : Nat) : (s.bump a n).tcu = s.tcu := rfl
@[simp] theorem bump_pcm (a n : Nat) : (s.bump a n).pcm = s.pcm := rfl
@[simp] theorem bump_dpa (a n : Nat) : (s.bump a n).dpa = s.dpa := rfl
@[simp] theorem bump_fpc (a n : Nat) : (s.bump a n).fpc = s.fpc := rfl
@[simp] theorem bump_hfp (a n : Nat) : (s.bump a n).hfp = s.hfp := rfl
@[simp] theorem bump_mbx (a n : Nat) : (s.bump a n).mbx = s.mbx := rfl
@[simp] theorem bump_flt (a n : Nat) : (s.bump a n).flt = s.flt := rfl
@[simp] theorem bump_vlt (a n : Nat) : (s.bump a n).vlt = s.vlt := rfl
@[simp] theorem bump_lc (a n : Nat) : (s.bump a n).lc = s.lc := rfl
@[simp] theorem bump_ccx (a n : Nat) : (s.bump a n).ccx = s.ccx := rfl
@[simp] theorem bump_src (a n : Nat) : (s.bump a n).src = s.src := rfl
@[simp] theorem bump_evr (a n : Nat) : (s.bump a n).evr = s.evr := rfl
@[simp] theorem bump_pins (a n : Nat) : (s.bump a n).pins = s.pins := rfl
@[simp] theorem bump_draws (a n : Nat) : (s.bump a n).draws = s.draws := rfl
@[simp] theorem bump_out (a n : Nat) : (s.bump a n).out = s.out := rfl

/-! ### `emit`: a message sent -/

@[simp] theorem emit_pending (k : OutKind) (l : List Nat) (d : List Byte) : (s.emit k l d).pending = s.pending := rfl
@[simp] theorem emit_regs (k : OutKind) (l : List Nat) (d : List Byte) : (s.emit k l d).regs = s.regs := rfl
@[simp] theorem emit_spn (k : OutKind) (l : List Nat) (d : List Byte) : (s.emit k l d).spn = s.spn := rfl
@[simp] theorem emit_bnd (k : OutKind) (l : List Nat) (d : List Byte) : (s.emit k l d).bnd = s.bnd := rfl
@[simp] theorem emit_chk (k : OutKind) (l : List Nat) (d : List Byte) : (s.emit k l d).chk = s.chk := rfl
@[simp] theorem emit_mce (k : OutKind) (l : List Nat) (d : List Byte) : (s.emit k l d).mce = s.mce := rfl
@[simp] theorem emit_bwr (k : OutKind) (l : List Nat) (d : List Byte) : (s.emit k l d).bwr = s.bwr := rfl
@[simp] theorem emit_tpl (k : OutKind) (l : List Nat) (d : List Byte) : (s.emit k l d).tpl = s.tpl := rfl
@[simp] theorem emit_fld (k : OutKind) (l : List Nat) (d : List Byte) : (s.emit k l d).fld = s.fld := rfl
@[simp] theorem emit_tcu (k : OutKind) (l : List Nat) (d : List Byte) : (s.emit k l d).tcu = s.tcu := rfl
@[simp] theorem emit_pcm (k : OutKind) (l : List Nat) (d : List Byte) : (s.emit k l d).pcm = s.pcm := rfl
@[simp] theorem emit_dpa (k : OutKind) (l : List Nat) (d : List Byte) : (s.emit k l d).dpa = s.dpa := rfl
@[simp] theorem emit_fpc (k : OutKind) (l : List Nat) (d : List Byte) : (s.emit k l d).fpc = s.fpc := rfl
@[simp] theorem emit_hfp (k : OutKind) (l : List Nat) (d : List Byte) : (s.emit k l d).hfp = s.hfp := rfl
@[simp] theorem emit_mbx (k : OutKind) (l : List Nat) (d : List Byte) : (s.emit k l d).mbx = s.mbx := rfl
@[simp] theorem emit_flt (k : OutKind) (l : List Nat) (d : List Byte) : (s.emit k l d).flt = s.flt := rfl
@[simp] theorem emit_vlt (k : OutKind) (l : List Nat) (d : List Byte) : (s.emit k l d).vlt = s.vlt := rfl
@[simp] theorem emit_lc (k : OutKind) (l : List Nat) (d : List Byte) : (s.emit k l d).lc = s.lc := rfl
@[simp] theorem emit_ccx (k : OutKind) (l : List Nat) (d : List Byte) : (s.emit k l d).ccx = s.ccx := rfl
@[simp] theorem emit_src (k : OutKind) (l : List Nat) (d : List Byte) : (s.emit k l d).src = s.src := rfl
@[simp] theorem emit_evr (k : OutKind) (l : List Nat) (d : List Byte) : (s.emit k l d).evr = s.evr := rfl
@[simp] theorem emit_pins (k : OutKind) (l : List Nat) (d : List Byte) : (s.emit k l d).pins = s.pins := rfl
@[simp] theorem emit_draws (k : OutKind) (l : List Nat) (d : List Byte) : (s.emit k l d).draws = s.draws := rfl

/-! ### `drawn`: a free value drawn -/

@[simp] theorem drawn_pending : (s.drawn).pending = s.pending := rfl
@[simp] theorem drawn_regs : (s.drawn).regs = s.regs := rfl
@[simp] theorem drawn_spn : (s.drawn).spn = s.spn := rfl
@[simp] theorem drawn_bnd : (s.drawn).bnd = s.bnd := rfl
@[simp] theorem drawn_chk : (s.drawn).chk = s.chk := rfl
@[simp] theorem drawn_mce : (s.drawn).mce = s.mce := rfl
@[simp] theorem drawn_bwr : (s.drawn).bwr = s.bwr := rfl
@[simp] theorem drawn_tpl : (s.drawn).tpl = s.tpl := rfl
@[simp] theorem drawn_fld : (s.drawn).fld = s.fld := rfl
@[simp] theorem drawn_tcu : (s.drawn).tcu = s.tcu := rfl
@[simp] theorem drawn_pcm : (s.drawn).pcm = s.pcm := rfl
@[simp] theorem drawn_dpa : (s.drawn).dpa = s.dpa := rfl
@[simp] theorem drawn_fpc : (s.drawn).fpc = s.fpc := rfl
@[simp] theorem drawn_hfp : (s.drawn).hfp = s.hfp := rfl
@[simp] theorem drawn_mbx : (s.drawn).mbx = s.mbx := rfl
@[simp] theorem drawn_flt : (s.drawn).flt = s.flt := rfl
@[simp] theorem drawn_vlt : (s.drawn).vlt = s.vlt := rfl
@[simp] theorem drawn_lc : (s.drawn).lc = s.lc := rfl
@[simp] theorem drawn_ccx : (s.drawn).ccx = s.ccx := rfl
@[simp] theorem drawn_src : (s.drawn).src = s.src := rfl
@[simp] theorem drawn_evr : (s.drawn).evr = s.evr := rfl
@[simp] theorem drawn_pins : (s.drawn).pins = s.pins := rfl
@[simp] theorem drawn_out : (s.drawn).out = s.out := rfl

/-! ### `modFn`: a function changed -/

@[simp] theorem modFn_pending (f : Nat) (g : FnSt → FnSt) : (s.modFn f g).pending = s.pending := rfl
@[simp] theorem modFn_regs (f : Nat) (g : FnSt → FnSt) : (s.modFn f g).regs = s.regs := rfl
@[simp] theorem modFn_spn (f : Nat) (g : FnSt → FnSt) : (s.modFn f g).spn = s.spn := rfl
@[simp] theorem modFn_bnd (f : Nat) (g : FnSt → FnSt) : (s.modFn f g).bnd = s.bnd := rfl
@[simp] theorem modFn_chk (f : Nat) (g : FnSt → FnSt) : (s.modFn f g).chk = s.chk := rfl
@[simp] theorem modFn_mce (f : Nat) (g : FnSt → FnSt) : (s.modFn f g).mce = s.mce := rfl
@[simp] theorem modFn_bwr (f : Nat) (g : FnSt → FnSt) : (s.modFn f g).bwr = s.bwr := rfl
@[simp] theorem modFn_tpl (f : Nat) (g : FnSt → FnSt) : (s.modFn f g).tpl = s.tpl := rfl
@[simp] theorem modFn_fld (f : Nat) (g : FnSt → FnSt) : (s.modFn f g).fld = s.fld := rfl
@[simp] theorem modFn_tcu (f : Nat) (g : FnSt → FnSt) : (s.modFn f g).tcu = s.tcu := rfl
@[simp] theorem modFn_pcm (f : Nat) (g : FnSt → FnSt) : (s.modFn f g).pcm = s.pcm := rfl
@[simp] theorem modFn_dpa (f : Nat) (g : FnSt → FnSt) : (s.modFn f g).dpa = s.dpa := rfl
@[simp] theorem modFn_fpc (f : Nat) (g : FnSt → FnSt) : (s.modFn f g).fpc = s.fpc := rfl
@[simp] theorem modFn_mbx (f : Nat) (g : FnSt → FnSt) : (s.modFn f g).mbx = s.mbx := rfl
@[simp] theorem modFn_flt (f : Nat) (g : FnSt → FnSt) : (s.modFn f g).flt = s.flt := rfl
@[simp] theorem modFn_vlt (f : Nat) (g : FnSt → FnSt) : (s.modFn f g).vlt = s.vlt := rfl
@[simp] theorem modFn_lc (f : Nat) (g : FnSt → FnSt) : (s.modFn f g).lc = s.lc := rfl
@[simp] theorem modFn_ccx (f : Nat) (g : FnSt → FnSt) : (s.modFn f g).ccx = s.ccx := rfl
@[simp] theorem modFn_src (f : Nat) (g : FnSt → FnSt) : (s.modFn f g).src = s.src := rfl
@[simp] theorem modFn_evr (f : Nat) (g : FnSt → FnSt) : (s.modFn f g).evr = s.evr := rfl
@[simp] theorem modFn_pins (f : Nat) (g : FnSt → FnSt) : (s.modFn f g).pins = s.pins := rfl
@[simp] theorem modFn_draws (f : Nat) (g : FnSt → FnSt) : (s.modFn f g).draws = s.draws := rfl
@[simp] theorem modFn_out (f : Nat) (g : FnSt → FnSt) : (s.modFn f g).out = s.out := rfl
@[simp] theorem modFn_hfp_vfEnable (f : Nat) (g : FnSt → FnSt) : (s.modFn f g).hfp.vfEnable = s.hfp.vfEnable := rfl
@[simp] theorem modFn_hfp_numVfs (f : Nat) (g : FnSt → FnSt) : (s.modFn f g).hfp.numVfs = s.hfp.numVfs := rfl
@[simp] theorem modFn_hfp_cfgReady (f : Nat) (g : FnSt → FnSt) : (s.modFn f g).hfp.cfgReady = s.hfp.cfgReady := rfl
@[simp] theorem modFn_hfp_fwReady (f : Nat) (g : FnSt → FnSt) : (s.modFn f g).hfp.fwReady = s.hfp.fwReady := rfl

/-! ### `modFsl`: a slice's recovery changed -/

@[simp] theorem modFsl_pending (n : Nat) (f : FltSlice → FltSlice) : (s.modFsl n f).pending = s.pending := rfl
@[simp] theorem modFsl_regs (n : Nat) (f : FltSlice → FltSlice) : (s.modFsl n f).regs = s.regs := rfl
@[simp] theorem modFsl_spn (n : Nat) (f : FltSlice → FltSlice) : (s.modFsl n f).spn = s.spn := rfl
@[simp] theorem modFsl_bnd (n : Nat) (f : FltSlice → FltSlice) : (s.modFsl n f).bnd = s.bnd := rfl
@[simp] theorem modFsl_chk (n : Nat) (f : FltSlice → FltSlice) : (s.modFsl n f).chk = s.chk := rfl
@[simp] theorem modFsl_mce (n : Nat) (f : FltSlice → FltSlice) : (s.modFsl n f).mce = s.mce := rfl
@[simp] theorem modFsl_bwr (n : Nat) (f : FltSlice → FltSlice) : (s.modFsl n f).bwr = s.bwr := rfl
@[simp] theorem modFsl_tpl (n : Nat) (f : FltSlice → FltSlice) : (s.modFsl n f).tpl = s.tpl := rfl
@[simp] theorem modFsl_fld (n : Nat) (f : FltSlice → FltSlice) : (s.modFsl n f).fld = s.fld := rfl
@[simp] theorem modFsl_tcu (n : Nat) (f : FltSlice → FltSlice) : (s.modFsl n f).tcu = s.tcu := rfl
@[simp] theorem modFsl_pcm (n : Nat) (f : FltSlice → FltSlice) : (s.modFsl n f).pcm = s.pcm := rfl
@[simp] theorem modFsl_dpa (n : Nat) (f : FltSlice → FltSlice) : (s.modFsl n f).dpa = s.dpa := rfl
@[simp] theorem modFsl_fpc (n : Nat) (f : FltSlice → FltSlice) : (s.modFsl n f).fpc = s.fpc := rfl
@[simp] theorem modFsl_hfp (n : Nat) (f : FltSlice → FltSlice) : (s.modFsl n f).hfp = s.hfp := rfl
@[simp] theorem modFsl_mbx (n : Nat) (f : FltSlice → FltSlice) : (s.modFsl n f).mbx = s.mbx := rfl
@[simp] theorem modFsl_vlt (n : Nat) (f : FltSlice → FltSlice) : (s.modFsl n f).vlt = s.vlt := rfl
@[simp] theorem modFsl_lc (n : Nat) (f : FltSlice → FltSlice) : (s.modFsl n f).lc = s.lc := rfl
@[simp] theorem modFsl_ccx (n : Nat) (f : FltSlice → FltSlice) : (s.modFsl n f).ccx = s.ccx := rfl
@[simp] theorem modFsl_src (n : Nat) (f : FltSlice → FltSlice) : (s.modFsl n f).src = s.src := rfl
@[simp] theorem modFsl_evr (n : Nat) (f : FltSlice → FltSlice) : (s.modFsl n f).evr = s.evr := rfl
@[simp] theorem modFsl_pins (n : Nat) (f : FltSlice → FltSlice) : (s.modFsl n f).pins = s.pins := rfl
@[simp] theorem modFsl_draws (n : Nat) (f : FltSlice → FltSlice) : (s.modFsl n f).draws = s.draws := rfl
@[simp] theorem modFsl_out (n : Nat) (f : FltSlice → FltSlice) : (s.modFsl n f).out = s.out := rfl
@[simp] theorem modFsl_flt_block (n : Nat) (f : FltSlice → FltSlice) : (s.modFsl n f).flt.block = s.flt.block := rfl
@[simp] theorem modFsl_flt_blockAt (n : Nat) (f : FltSlice → FltSlice) : (s.modFsl n f).flt.blockAt = s.flt.blockAt := rfl
@[simp] theorem modFsl_flt_blockStamp (n : Nat) (f : FltSlice → FltSlice) : (s.modFsl n f).flt.blockStamp = s.flt.blockStamp := rfl
@[simp] theorem modFsl_flt_blocks (n : Nat) (f : FltSlice → FltSlice) : (s.modFsl n f).flt.blocks = s.flt.blocks := rfl
@[simp] theorem modFsl_flt_readyTick (n : Nat) (f : FltSlice → FltSlice) : (s.modFsl n f).flt.readyTick = s.flt.readyTick := rfl
@[simp] theorem modFsl_flt_memTimeouts (n : Nat) (f : FltSlice → FltSlice) : (s.modFsl n f).flt.memTimeouts = s.flt.memTimeouts := rfl
@[simp] theorem modFsl_flt_heldPorts (n : Nat) (f : FltSlice → FltSlice) : (s.modFsl n f).flt.heldPorts = s.flt.heldPorts := rfl
@[simp] theorem modFsl_flt_badGroups (n : Nat) (f : FltSlice → FltSlice) : (s.modFsl n f).flt.badGroups = s.flt.badGroups := rfl

/-! ### `modGrain`: a grain's entry changed -/

@[simp] theorem modGrain_pending (g : Nat) (f : GrainE → GrainE) : (s.modGrain g f).pending = s.pending := rfl
@[simp] theorem modGrain_regs (g : Nat) (f : GrainE → GrainE) : (s.modGrain g f).regs = s.regs := rfl
@[simp] theorem modGrain_spn (g : Nat) (f : GrainE → GrainE) : (s.modGrain g f).spn = s.spn := rfl
@[simp] theorem modGrain_chk (g : Nat) (f : GrainE → GrainE) : (s.modGrain g f).chk = s.chk := rfl
@[simp] theorem modGrain_mce (g : Nat) (f : GrainE → GrainE) : (s.modGrain g f).mce = s.mce := rfl
@[simp] theorem modGrain_bwr (g : Nat) (f : GrainE → GrainE) : (s.modGrain g f).bwr = s.bwr := rfl
@[simp] theorem modGrain_tpl (g : Nat) (f : GrainE → GrainE) : (s.modGrain g f).tpl = s.tpl := rfl
@[simp] theorem modGrain_fld (g : Nat) (f : GrainE → GrainE) : (s.modGrain g f).fld = s.fld := rfl
@[simp] theorem modGrain_tcu (g : Nat) (f : GrainE → GrainE) : (s.modGrain g f).tcu = s.tcu := rfl
@[simp] theorem modGrain_pcm (g : Nat) (f : GrainE → GrainE) : (s.modGrain g f).pcm = s.pcm := rfl
@[simp] theorem modGrain_dpa (g : Nat) (f : GrainE → GrainE) : (s.modGrain g f).dpa = s.dpa := rfl
@[simp] theorem modGrain_fpc (g : Nat) (f : GrainE → GrainE) : (s.modGrain g f).fpc = s.fpc := rfl
@[simp] theorem modGrain_hfp (g : Nat) (f : GrainE → GrainE) : (s.modGrain g f).hfp = s.hfp := rfl
@[simp] theorem modGrain_mbx (g : Nat) (f : GrainE → GrainE) : (s.modGrain g f).mbx = s.mbx := rfl
@[simp] theorem modGrain_flt (g : Nat) (f : GrainE → GrainE) : (s.modGrain g f).flt = s.flt := rfl
@[simp] theorem modGrain_vlt (g : Nat) (f : GrainE → GrainE) : (s.modGrain g f).vlt = s.vlt := rfl
@[simp] theorem modGrain_lc (g : Nat) (f : GrainE → GrainE) : (s.modGrain g f).lc = s.lc := rfl
@[simp] theorem modGrain_ccx (g : Nat) (f : GrainE → GrainE) : (s.modGrain g f).ccx = s.ccx := rfl
@[simp] theorem modGrain_src (g : Nat) (f : GrainE → GrainE) : (s.modGrain g f).src = s.src := rfl
@[simp] theorem modGrain_evr (g : Nat) (f : GrainE → GrainE) : (s.modGrain g f).evr = s.evr := rfl
@[simp] theorem modGrain_pins (g : Nat) (f : GrainE → GrainE) : (s.modGrain g f).pins = s.pins := rfl
@[simp] theorem modGrain_draws (g : Nat) (f : GrainE → GrainE) : (s.modGrain g f).draws = s.draws := rfl
@[simp] theorem modGrain_out (g : Nat) (f : GrainE → GrainE) : (s.modGrain g f).out = s.out := rfl
@[simp] theorem modGrain_bnd_poisonings (g : Nat) (f : GrainE → GrainE) : (s.modGrain g f).bnd.poisonings = s.bnd.poisonings := rfl
@[simp] theorem modGrain_bnd_defs (g : Nat) (f : GrainE → GrainE) : (s.modGrain g f).bnd.defs = s.bnd.defs := rfl
@[simp] theorem modGrain_bnd_vers (g : Nat) (f : GrainE → GrainE) : (s.modGrain g f).bnd.vers = s.bnd.vers := rfl
@[simp] theorem modGrain_bnd_images (g : Nat) (f : GrainE → GrainE) : (s.modGrain g f).bnd.images = s.bnd.images := rfl
@[simp] theorem modGrain_bnd_scrub (g : Nat) (f : GrainE → GrainE) : (s.modGrain g f).bnd.scrub = s.bnd.scrub := rfl
@[simp] theorem modGrain_bnd_scrubTok (g : Nat) (f : GrainE → GrainE) : (s.modGrain g f).bnd.scrubTok = s.bnd.scrubTok := rfl

/-! ### `modKey`: a key's state changed -/

@[simp] theorem modKey_pending (k : Nat) (f : KeyE → KeyE) : (s.modKey k f).pending = s.pending := rfl
@[simp] theorem modKey_regs (k : Nat) (f : KeyE → KeyE) : (s.modKey k f).regs = s.regs := rfl
@[simp] theorem modKey_spn (k : Nat) (f : KeyE → KeyE) : (s.modKey k f).spn = s.spn := rfl
@[simp] theorem modKey_bnd (k : Nat) (f : KeyE → KeyE) : (s.modKey k f).bnd = s.bnd := rfl
@[simp] theorem modKey_chk (k : Nat) (f : KeyE → KeyE) : (s.modKey k f).chk = s.chk := rfl
@[simp] theorem modKey_bwr (k : Nat) (f : KeyE → KeyE) : (s.modKey k f).bwr = s.bwr := rfl
@[simp] theorem modKey_tpl (k : Nat) (f : KeyE → KeyE) : (s.modKey k f).tpl = s.tpl := rfl
@[simp] theorem modKey_fld (k : Nat) (f : KeyE → KeyE) : (s.modKey k f).fld = s.fld := rfl
@[simp] theorem modKey_tcu (k : Nat) (f : KeyE → KeyE) : (s.modKey k f).tcu = s.tcu := rfl
@[simp] theorem modKey_pcm (k : Nat) (f : KeyE → KeyE) : (s.modKey k f).pcm = s.pcm := rfl
@[simp] theorem modKey_dpa (k : Nat) (f : KeyE → KeyE) : (s.modKey k f).dpa = s.dpa := rfl
@[simp] theorem modKey_fpc (k : Nat) (f : KeyE → KeyE) : (s.modKey k f).fpc = s.fpc := rfl
@[simp] theorem modKey_hfp (k : Nat) (f : KeyE → KeyE) : (s.modKey k f).hfp = s.hfp := rfl
@[simp] theorem modKey_mbx (k : Nat) (f : KeyE → KeyE) : (s.modKey k f).mbx = s.mbx := rfl
@[simp] theorem modKey_flt (k : Nat) (f : KeyE → KeyE) : (s.modKey k f).flt = s.flt := rfl
@[simp] theorem modKey_vlt (k : Nat) (f : KeyE → KeyE) : (s.modKey k f).vlt = s.vlt := rfl
@[simp] theorem modKey_lc (k : Nat) (f : KeyE → KeyE) : (s.modKey k f).lc = s.lc := rfl
@[simp] theorem modKey_ccx (k : Nat) (f : KeyE → KeyE) : (s.modKey k f).ccx = s.ccx := rfl
@[simp] theorem modKey_src (k : Nat) (f : KeyE → KeyE) : (s.modKey k f).src = s.src := rfl
@[simp] theorem modKey_evr (k : Nat) (f : KeyE → KeyE) : (s.modKey k f).evr = s.evr := rfl
@[simp] theorem modKey_pins (k : Nat) (f : KeyE → KeyE) : (s.modKey k f).pins = s.pins := rfl
@[simp] theorem modKey_draws (k : Nat) (f : KeyE → KeyE) : (s.modKey k f).draws = s.draws := rfl
@[simp] theorem modKey_out (k : Nat) (f : KeyE → KeyE) : (s.modKey k f).out = s.out := rfl
@[simp] theorem modKey_mce_walks (k : Nat) (f : KeyE → KeyE) : (s.modKey k f).mce.walks = s.mce.walks := rfl
@[simp] theorem modKey_mce_tagc (k : Nat) (f : KeyE → KeyE) : (s.modKey k f).mce.tagc = s.mce.tagc := rfl
@[simp] theorem modKey_mce_reqs (k : Nat) (f : KeyE → KeyE) : (s.modKey k f).mce.reqs = s.mce.reqs := rfl
@[simp] theorem modKey_mce_fenced (k : Nat) (f : KeyE → KeyE) : (s.modKey k f).mce.fenced = s.mce.fenced := rfl
@[simp] theorem modKey_mce_halted (k : Nat) (f : KeyE → KeyE) : (s.modKey k f).mce.halted = s.mce.halted := rfl
@[simp] theorem modKey_mce_remark (k : Nat) (f : KeyE → KeyE) : (s.modKey k f).mce.remark = s.mce.remark := rfl
@[simp] theorem modKey_mce_haltSums (k : Nat) (f : KeyE → KeyE) : (s.modKey k f).mce.haltSums = s.mce.haltSums := rfl
@[simp] theorem modKey_mce_colls (k : Nat) (f : KeyE → KeyE) : (s.modKey k f).mce.colls = s.mce.colls := rfl
@[simp] theorem modKey_mce_nextId (k : Nat) (f : KeyE → KeyE) : (s.modKey k f).mce.nextId = s.mce.nextId := rfl

/-! ### `modMb`: a mailbox changed -/

@[simp] theorem modMb_pending (f : Nat) (g : Mbx → Mbx) : (s.modMb f g).pending = s.pending := rfl
@[simp] theorem modMb_regs (f : Nat) (g : Mbx → Mbx) : (s.modMb f g).regs = s.regs := rfl
@[simp] theorem modMb_spn (f : Nat) (g : Mbx → Mbx) : (s.modMb f g).spn = s.spn := rfl
@[simp] theorem modMb_bnd (f : Nat) (g : Mbx → Mbx) : (s.modMb f g).bnd = s.bnd := rfl
@[simp] theorem modMb_chk (f : Nat) (g : Mbx → Mbx) : (s.modMb f g).chk = s.chk := rfl
@[simp] theorem modMb_mce (f : Nat) (g : Mbx → Mbx) : (s.modMb f g).mce = s.mce := rfl
@[simp] theorem modMb_bwr (f : Nat) (g : Mbx → Mbx) : (s.modMb f g).bwr = s.bwr := rfl
@[simp] theorem modMb_tpl (f : Nat) (g : Mbx → Mbx) : (s.modMb f g).tpl = s.tpl := rfl
@[simp] theorem modMb_fld (f : Nat) (g : Mbx → Mbx) : (s.modMb f g).fld = s.fld := rfl
@[simp] theorem modMb_tcu (f : Nat) (g : Mbx → Mbx) : (s.modMb f g).tcu = s.tcu := rfl
@[simp] theorem modMb_pcm (f : Nat) (g : Mbx → Mbx) : (s.modMb f g).pcm = s.pcm := rfl
@[simp] theorem modMb_dpa (f : Nat) (g : Mbx → Mbx) : (s.modMb f g).dpa = s.dpa := rfl
@[simp] theorem modMb_fpc (f : Nat) (g : Mbx → Mbx) : (s.modMb f g).fpc = s.fpc := rfl
@[simp] theorem modMb_hfp (f : Nat) (g : Mbx → Mbx) : (s.modMb f g).hfp = s.hfp := rfl
@[simp] theorem modMb_flt (f : Nat) (g : Mbx → Mbx) : (s.modMb f g).flt = s.flt := rfl
@[simp] theorem modMb_vlt (f : Nat) (g : Mbx → Mbx) : (s.modMb f g).vlt = s.vlt := rfl
@[simp] theorem modMb_lc (f : Nat) (g : Mbx → Mbx) : (s.modMb f g).lc = s.lc := rfl
@[simp] theorem modMb_ccx (f : Nat) (g : Mbx → Mbx) : (s.modMb f g).ccx = s.ccx := rfl
@[simp] theorem modMb_src (f : Nat) (g : Mbx → Mbx) : (s.modMb f g).src = s.src := rfl
@[simp] theorem modMb_evr (f : Nat) (g : Mbx → Mbx) : (s.modMb f g).evr = s.evr := rfl
@[simp] theorem modMb_pins (f : Nat) (g : Mbx → Mbx) : (s.modMb f g).pins = s.pins := rfl
@[simp] theorem modMb_draws (f : Nat) (g : Mbx → Mbx) : (s.modMb f g).draws = s.draws := rfl
@[simp] theorem modMb_out (f : Nat) (g : Mbx → Mbx) : (s.modMb f g).out = s.out := rfl

/-! ### `modCluster`: a cluster's record changed -/

@[simp] theorem modCluster_pending (c : Nat) (f : Cluster → Cluster) : (s.modCluster c f).pending = s.pending := rfl
@[simp] theorem modCluster_regs (c : Nat) (f : Cluster → Cluster) : (s.modCluster c f).regs = s.regs := rfl
@[simp] theorem modCluster_spn (c : Nat) (f : Cluster → Cluster) : (s.modCluster c f).spn = s.spn := rfl
@[simp] theorem modCluster_bnd (c : Nat) (f : Cluster → Cluster) : (s.modCluster c f).bnd = s.bnd := rfl
@[simp] theorem modCluster_chk (c : Nat) (f : Cluster → Cluster) : (s.modCluster c f).chk = s.chk := rfl
@[simp] theorem modCluster_mce (c : Nat) (f : Cluster → Cluster) : (s.modCluster c f).mce = s.mce := rfl
@[simp] theorem modCluster_bwr (c : Nat) (f : Cluster → Cluster) : (s.modCluster c f).bwr = s.bwr := rfl
@[simp] theorem modCluster_tpl (c : Nat) (f : Cluster → Cluster) : (s.modCluster c f).tpl = s.tpl := rfl
@[simp] theorem modCluster_fld (c : Nat) (f : Cluster → Cluster) : (s.modCluster c f).fld = s.fld := rfl
@[simp] theorem modCluster_tcu (c : Nat) (f : Cluster → Cluster) : (s.modCluster c f).tcu = s.tcu := rfl
@[simp] theorem modCluster_pcm (c : Nat) (f : Cluster → Cluster) : (s.modCluster c f).pcm = s.pcm := rfl
@[simp] theorem modCluster_fpc (c : Nat) (f : Cluster → Cluster) : (s.modCluster c f).fpc = s.fpc := rfl
@[simp] theorem modCluster_hfp (c : Nat) (f : Cluster → Cluster) : (s.modCluster c f).hfp = s.hfp := rfl
@[simp] theorem modCluster_mbx (c : Nat) (f : Cluster → Cluster) : (s.modCluster c f).mbx = s.mbx := rfl
@[simp] theorem modCluster_flt (c : Nat) (f : Cluster → Cluster) : (s.modCluster c f).flt = s.flt := rfl
@[simp] theorem modCluster_vlt (c : Nat) (f : Cluster → Cluster) : (s.modCluster c f).vlt = s.vlt := rfl
@[simp] theorem modCluster_lc (c : Nat) (f : Cluster → Cluster) : (s.modCluster c f).lc = s.lc := rfl
@[simp] theorem modCluster_ccx (c : Nat) (f : Cluster → Cluster) : (s.modCluster c f).ccx = s.ccx := rfl
@[simp] theorem modCluster_src (c : Nat) (f : Cluster → Cluster) : (s.modCluster c f).src = s.src := rfl
@[simp] theorem modCluster_evr (c : Nat) (f : Cluster → Cluster) : (s.modCluster c f).evr = s.evr := rfl
@[simp] theorem modCluster_pins (c : Nat) (f : Cluster → Cluster) : (s.modCluster c f).pins = s.pins := rfl
@[simp] theorem modCluster_draws (c : Nat) (f : Cluster → Cluster) : (s.modCluster c f).draws = s.draws := rfl
@[simp] theorem modCluster_out (c : Nat) (f : Cluster → Cluster) : (s.modCluster c f).out = s.out := rfl
@[simp] theorem modCluster_dpa_queues (c : Nat) (f : Cluster → Cluster) : (s.modCluster c f).dpa.queues = s.dpa.queues := rfl
@[simp] theorem modCluster_dpa_tasks (c : Nat) (f : Cluster → Cluster) : (s.modCluster c f).dpa.tasks = s.dpa.tasks := rfl
@[simp] theorem modCluster_dpa_dmas (c : Nat) (f : Cluster → Cluster) : (s.modCluster c f).dpa.dmas = s.dpa.dmas := rfl
@[simp] theorem modCluster_dpa_cpls (c : Nat) (f : Cluster → Cluster) : (s.modCluster c f).dpa.cpls = s.dpa.cpls := rfl
@[simp] theorem modCluster_dpa_joins (c : Nat) (f : Cluster → Cluster) : (s.modCluster c f).dpa.joins = s.dpa.joins := rfl
@[simp] theorem modCluster_dpa_sync (c : Nat) (f : Cluster → Cluster) : (s.modCluster c f).dpa.sync = s.dpa.sync := rfl
@[simp] theorem modCluster_dpa_last (c : Nat) (f : Cluster → Cluster) : (s.modCluster c f).dpa.last = s.dpa.last := rfl
@[simp] theorem modCluster_dpa_refusals (c : Nat) (f : Cluster → Cluster) : (s.modCluster c f).dpa.refusals = s.dpa.refusals := rfl
@[simp] theorem modCluster_dpa_lastRef (c : Nat) (f : Cluster → Cluster) : (s.modCluster c f).dpa.lastRef = s.dpa.lastRef := rfl
@[simp] theorem modCluster_dpa_rot (c : Nat) (f : Cluster → Cluster) : (s.modCluster c f).dpa.rot = s.dpa.rot := rfl

/-! ### `modQueue`: a queue changed -/

@[simp] theorem modQueue_pending (n q : Nat) (f : Queue → Queue) : (s.modQueue n q f).pending = s.pending := rfl
@[simp] theorem modQueue_regs (n q : Nat) (f : Queue → Queue) : (s.modQueue n q f).regs = s.regs := rfl
@[simp] theorem modQueue_spn (n q : Nat) (f : Queue → Queue) : (s.modQueue n q f).spn = s.spn := rfl
@[simp] theorem modQueue_bnd (n q : Nat) (f : Queue → Queue) : (s.modQueue n q f).bnd = s.bnd := rfl
@[simp] theorem modQueue_chk (n q : Nat) (f : Queue → Queue) : (s.modQueue n q f).chk = s.chk := rfl
@[simp] theorem modQueue_mce (n q : Nat) (f : Queue → Queue) : (s.modQueue n q f).mce = s.mce := rfl
@[simp] theorem modQueue_bwr (n q : Nat) (f : Queue → Queue) : (s.modQueue n q f).bwr = s.bwr := rfl
@[simp] theorem modQueue_tpl (n q : Nat) (f : Queue → Queue) : (s.modQueue n q f).tpl = s.tpl := rfl
@[simp] theorem modQueue_fld (n q : Nat) (f : Queue → Queue) : (s.modQueue n q f).fld = s.fld := rfl
@[simp] theorem modQueue_tcu (n q : Nat) (f : Queue → Queue) : (s.modQueue n q f).tcu = s.tcu := rfl
@[simp] theorem modQueue_pcm (n q : Nat) (f : Queue → Queue) : (s.modQueue n q f).pcm = s.pcm := rfl
@[simp] theorem modQueue_fpc (n q : Nat) (f : Queue → Queue) : (s.modQueue n q f).fpc = s.fpc := rfl
@[simp] theorem modQueue_hfp (n q : Nat) (f : Queue → Queue) : (s.modQueue n q f).hfp = s.hfp := rfl
@[simp] theorem modQueue_mbx (n q : Nat) (f : Queue → Queue) : (s.modQueue n q f).mbx = s.mbx := rfl
@[simp] theorem modQueue_flt (n q : Nat) (f : Queue → Queue) : (s.modQueue n q f).flt = s.flt := rfl
@[simp] theorem modQueue_vlt (n q : Nat) (f : Queue → Queue) : (s.modQueue n q f).vlt = s.vlt := rfl
@[simp] theorem modQueue_lc (n q : Nat) (f : Queue → Queue) : (s.modQueue n q f).lc = s.lc := rfl
@[simp] theorem modQueue_ccx (n q : Nat) (f : Queue → Queue) : (s.modQueue n q f).ccx = s.ccx := rfl
@[simp] theorem modQueue_src (n q : Nat) (f : Queue → Queue) : (s.modQueue n q f).src = s.src := rfl
@[simp] theorem modQueue_evr (n q : Nat) (f : Queue → Queue) : (s.modQueue n q f).evr = s.evr := rfl
@[simp] theorem modQueue_pins (n q : Nat) (f : Queue → Queue) : (s.modQueue n q f).pins = s.pins := rfl
@[simp] theorem modQueue_draws (n q : Nat) (f : Queue → Queue) : (s.modQueue n q f).draws = s.draws := rfl
@[simp] theorem modQueue_out (n q : Nat) (f : Queue → Queue) : (s.modQueue n q f).out = s.out := rfl
@[simp] theorem modQueue_dpa_tasks (n q : Nat) (f : Queue → Queue) : (s.modQueue n q f).dpa.tasks = s.dpa.tasks := rfl
@[simp] theorem modQueue_dpa_dmas (n q : Nat) (f : Queue → Queue) : (s.modQueue n q f).dpa.dmas = s.dpa.dmas := rfl
@[simp] theorem modQueue_dpa_cpls (n q : Nat) (f : Queue → Queue) : (s.modQueue n q f).dpa.cpls = s.dpa.cpls := rfl
@[simp] theorem modQueue_dpa_joins (n q : Nat) (f : Queue → Queue) : (s.modQueue n q f).dpa.joins = s.dpa.joins := rfl
@[simp] theorem modQueue_dpa_sync (n q : Nat) (f : Queue → Queue) : (s.modQueue n q f).dpa.sync = s.dpa.sync := rfl
@[simp] theorem modQueue_dpa_clusters (n q : Nat) (f : Queue → Queue) : (s.modQueue n q f).dpa.clusters = s.dpa.clusters := rfl
@[simp] theorem modQueue_dpa_last (n q : Nat) (f : Queue → Queue) : (s.modQueue n q f).dpa.last = s.dpa.last := rfl
@[simp] theorem modQueue_dpa_refusals (n q : Nat) (f : Queue → Queue) : (s.modQueue n q f).dpa.refusals = s.dpa.refusals := rfl
@[simp] theorem modQueue_dpa_lastRef (n q : Nat) (f : Queue → Queue) : (s.modQueue n q f).dpa.lastRef = s.dpa.lastRef := rfl
@[simp] theorem modQueue_dpa_rot (n q : Nat) (f : Queue → Queue) : (s.modQueue n q f).dpa.rot = s.dpa.rot := rfl

/-! ### `modLink`: a link changed -/

@[simp] theorem modLink_pending (p l : Nat) (f : Link → Link) : (s.modLink p l f).pending = s.pending := rfl
@[simp] theorem modLink_regs (p l : Nat) (f : Link → Link) : (s.modLink p l f).regs = s.regs := rfl
@[simp] theorem modLink_spn (p l : Nat) (f : Link → Link) : (s.modLink p l f).spn = s.spn := rfl
@[simp] theorem modLink_bnd (p l : Nat) (f : Link → Link) : (s.modLink p l f).bnd = s.bnd := rfl
@[simp] theorem modLink_chk (p l : Nat) (f : Link → Link) : (s.modLink p l f).chk = s.chk := rfl
@[simp] theorem modLink_mce (p l : Nat) (f : Link → Link) : (s.modLink p l f).mce = s.mce := rfl
@[simp] theorem modLink_bwr (p l : Nat) (f : Link → Link) : (s.modLink p l f).bwr = s.bwr := rfl
@[simp] theorem modLink_tpl (p l : Nat) (f : Link → Link) : (s.modLink p l f).tpl = s.tpl := rfl
@[simp] theorem modLink_fld (p l : Nat) (f : Link → Link) : (s.modLink p l f).fld = s.fld := rfl
@[simp] theorem modLink_tcu (p l : Nat) (f : Link → Link) : (s.modLink p l f).tcu = s.tcu := rfl
@[simp] theorem modLink_pcm (p l : Nat) (f : Link → Link) : (s.modLink p l f).pcm = s.pcm := rfl
@[simp] theorem modLink_dpa (p l : Nat) (f : Link → Link) : (s.modLink p l f).dpa = s.dpa := rfl
@[simp] theorem modLink_hfp (p l : Nat) (f : Link → Link) : (s.modLink p l f).hfp = s.hfp := rfl
@[simp] theorem modLink_mbx (p l : Nat) (f : Link → Link) : (s.modLink p l f).mbx = s.mbx := rfl
@[simp] theorem modLink_flt (p l : Nat) (f : Link → Link) : (s.modLink p l f).flt = s.flt := rfl
@[simp] theorem modLink_vlt (p l : Nat) (f : Link → Link) : (s.modLink p l f).vlt = s.vlt := rfl
@[simp] theorem modLink_lc (p l : Nat) (f : Link → Link) : (s.modLink p l f).lc = s.lc := rfl
@[simp] theorem modLink_ccx (p l : Nat) (f : Link → Link) : (s.modLink p l f).ccx = s.ccx := rfl
@[simp] theorem modLink_src (p l : Nat) (f : Link → Link) : (s.modLink p l f).src = s.src := rfl
@[simp] theorem modLink_evr (p l : Nat) (f : Link → Link) : (s.modLink p l f).evr = s.evr := rfl
@[simp] theorem modLink_pins (p l : Nat) (f : Link → Link) : (s.modLink p l f).pins = s.pins := rfl
@[simp] theorem modLink_draws (p l : Nat) (f : Link → Link) : (s.modLink p l f).draws = s.draws := rfl
@[simp] theorem modLink_out (p l : Nat) (f : Link → Link) : (s.modLink p l f).out = s.out := rfl
@[simp] theorem modLink_fpc_width (p l : Nat) (f : Link → Link) : (s.modLink p l f).fpc.width = s.fpc.width := rfl
@[simp] theorem modLink_fpc_ins (p l : Nat) (f : Link → Link) : (s.modLink p l f).fpc.ins = s.fpc.ins := rfl
@[simp] theorem modLink_fpc_byp (p l : Nat) (f : Link → Link) : (s.modLink p l f).fpc.byp = s.fpc.byp := rfl
@[simp] theorem modLink_fpc_admitted (p l : Nat) (f : Link → Link) : (s.modLink p l f).fpc.admitted = s.fpc.admitted := rfl
@[simp] theorem modLink_fpc_abortAt (p l : Nat) (f : Link → Link) : (s.modLink p l f).fpc.abortAt = s.fpc.abortAt := rfl
@[simp] theorem modLink_fpc_out (p l : Nat) (f : Link → Link) : (s.modLink p l f).fpc.out = s.fpc.out := rfl
@[simp] theorem modLink_fpc_entries (p l : Nat) (f : Link → Link) : (s.modLink p l f).fpc.entries = s.fpc.entries := rfl
@[simp] theorem modLink_fpc_meter (p l : Nat) (f : Link → Link) : (s.modLink p l f).fpc.meter = s.fpc.meter := rfl
@[simp] theorem modLink_fpc_firstCommit (p l : Nat) (f : Link → Link) : (s.modLink p l f).fpc.firstCommit = s.fpc.firstCommit := rfl

/-! ### `setBank`: a definition bank set -/

@[simp] theorem setBank_pending (b : Nat) (x : Bank) : (s.setBank b x).pending = s.pending := rfl
@[simp] theorem setBank_regs (b : Nat) (x : Bank) : (s.setBank b x).regs = s.regs := rfl
@[simp] theorem setBank_spn (b : Nat) (x : Bank) : (s.setBank b x).spn = s.spn := rfl
@[simp] theorem setBank_bnd (b : Nat) (x : Bank) : (s.setBank b x).bnd = s.bnd := rfl
@[simp] theorem setBank_mce (b : Nat) (x : Bank) : (s.setBank b x).mce = s.mce := rfl
@[simp] theorem setBank_bwr (b : Nat) (x : Bank) : (s.setBank b x).bwr = s.bwr := rfl
@[simp] theorem setBank_tpl (b : Nat) (x : Bank) : (s.setBank b x).tpl = s.tpl := rfl
@[simp] theorem setBank_fld (b : Nat) (x : Bank) : (s.setBank b x).fld = s.fld := rfl
@[simp] theorem setBank_tcu (b : Nat) (x : Bank) : (s.setBank b x).tcu = s.tcu := rfl
@[simp] theorem setBank_pcm (b : Nat) (x : Bank) : (s.setBank b x).pcm = s.pcm := rfl
@[simp] theorem setBank_dpa (b : Nat) (x : Bank) : (s.setBank b x).dpa = s.dpa := rfl
@[simp] theorem setBank_fpc (b : Nat) (x : Bank) : (s.setBank b x).fpc = s.fpc := rfl
@[simp] theorem setBank_hfp (b : Nat) (x : Bank) : (s.setBank b x).hfp = s.hfp := rfl
@[simp] theorem setBank_mbx (b : Nat) (x : Bank) : (s.setBank b x).mbx = s.mbx := rfl
@[simp] theorem setBank_flt (b : Nat) (x : Bank) : (s.setBank b x).flt = s.flt := rfl
@[simp] theorem setBank_vlt (b : Nat) (x : Bank) : (s.setBank b x).vlt = s.vlt := rfl
@[simp] theorem setBank_lc (b : Nat) (x : Bank) : (s.setBank b x).lc = s.lc := rfl
@[simp] theorem setBank_ccx (b : Nat) (x : Bank) : (s.setBank b x).ccx = s.ccx := rfl
@[simp] theorem setBank_src (b : Nat) (x : Bank) : (s.setBank b x).src = s.src := rfl
@[simp] theorem setBank_evr (b : Nat) (x : Bank) : (s.setBank b x).evr = s.evr := rfl
@[simp] theorem setBank_pins (b : Nat) (x : Bank) : (s.setBank b x).pins = s.pins := rfl
@[simp] theorem setBank_draws (b : Nat) (x : Bank) : (s.setBank b x).draws = s.draws := rfl
@[simp] theorem setBank_out (b : Nat) (x : Bank) : (s.setBank b x).out = s.out := rfl
@[simp] theorem setBank_chk_load (b : Nat) (x : Bank) : (s.setBank b x).chk.load = s.chk.load := by unfold State.setBank; dsimp only; split <;> rfl
@[simp] theorem setBank_chk_lastTick (b : Nat) (x : Bank) : (s.setBank b x).chk.lastTick = s.chk.lastTick := by unfold State.setBank; dsimp only; split <;> rfl

/-! ### `modCore`: a control core changed -/

@[simp] theorem modCore_pending (c : Nat) (f : Core → Core) : (s.modCore c f).pending = s.pending := rfl
@[simp] theorem modCore_regs (c : Nat) (f : Core → Core) : (s.modCore c f).regs = s.regs := rfl
@[simp] theorem modCore_spn (c : Nat) (f : Core → Core) : (s.modCore c f).spn = s.spn := rfl
@[simp] theorem modCore_bnd (c : Nat) (f : Core → Core) : (s.modCore c f).bnd = s.bnd := rfl
@[simp] theorem modCore_chk (c : Nat) (f : Core → Core) : (s.modCore c f).chk = s.chk := rfl
@[simp] theorem modCore_mce (c : Nat) (f : Core → Core) : (s.modCore c f).mce = s.mce := rfl
@[simp] theorem modCore_bwr (c : Nat) (f : Core → Core) : (s.modCore c f).bwr = s.bwr := rfl
@[simp] theorem modCore_tpl (c : Nat) (f : Core → Core) : (s.modCore c f).tpl = s.tpl := rfl
@[simp] theorem modCore_fld (c : Nat) (f : Core → Core) : (s.modCore c f).fld = s.fld := rfl
@[simp] theorem modCore_tcu (c : Nat) (f : Core → Core) : (s.modCore c f).tcu = s.tcu := rfl
@[simp] theorem modCore_pcm (c : Nat) (f : Core → Core) : (s.modCore c f).pcm = s.pcm := rfl
@[simp] theorem modCore_dpa (c : Nat) (f : Core → Core) : (s.modCore c f).dpa = s.dpa := rfl
@[simp] theorem modCore_fpc (c : Nat) (f : Core → Core) : (s.modCore c f).fpc = s.fpc := rfl
@[simp] theorem modCore_hfp (c : Nat) (f : Core → Core) : (s.modCore c f).hfp = s.hfp := rfl
@[simp] theorem modCore_mbx (c : Nat) (f : Core → Core) : (s.modCore c f).mbx = s.mbx := rfl
@[simp] theorem modCore_flt (c : Nat) (f : Core → Core) : (s.modCore c f).flt = s.flt := rfl
@[simp] theorem modCore_vlt (c : Nat) (f : Core → Core) : (s.modCore c f).vlt = s.vlt := rfl
@[simp] theorem modCore_lc (c : Nat) (f : Core → Core) : (s.modCore c f).lc = s.lc := rfl
@[simp] theorem modCore_src (c : Nat) (f : Core → Core) : (s.modCore c f).src = s.src := rfl
@[simp] theorem modCore_evr (c : Nat) (f : Core → Core) : (s.modCore c f).evr = s.evr := rfl
@[simp] theorem modCore_pins (c : Nat) (f : Core → Core) : (s.modCore c f).pins = s.pins := rfl
@[simp] theorem modCore_draws (c : Nat) (f : Core → Core) : (s.modCore c f).draws = s.draws := rfl
@[simp] theorem modCore_out (c : Nat) (f : Core → Core) : (s.modCore c f).out = s.out := rfl
@[simp] theorem modCore_ccx_active (c : Nat) (f : Core → Core) : (s.modCore c f).ccx.active = s.ccx.active := rfl
@[simp] theorem modCore_ccx_standby (c : Nat) (f : Core → Core) : (s.modCore c f).ccx.standby = s.ccx.standby := rfl
@[simp] theorem modCore_ccx_old (c : Nat) (f : Core → Core) : (s.modCore c f).ccx.old = s.ccx.old := rfl
@[simp] theorem modCore_ccx_job (c : Nat) (f : Core → Core) : (s.modCore c f).ccx.job = s.ccx.job := rfl
@[simp] theorem modCore_ccx_phase (c : Nat) (f : Core → Core) : (s.modCore c f).ccx.phase = s.ccx.phase := rfl
@[simp] theorem modCore_ccx_quiesceAt (c : Nat) (f : Core → Core) : (s.modCore c f).ccx.quiesceAt = s.ccx.quiesceAt := rfl
@[simp] theorem modCore_ccx_updCmd (c : Nat) (f : Core → Core) : (s.modCore c f).ccx.updCmd = s.ccx.updCmd := rfl
@[simp] theorem modCore_ccx_ledgerVer (c : Nat) (f : Core → Core) : (s.modCore c f).ccx.ledgerVer = s.ccx.ledgerVer := rfl
@[simp] theorem modCore_ccx_log (c : Nat) (f : Core → Core) : (s.modCore c f).ccx.log = s.ccx.log := rfl
@[simp] theorem modCore_ccx_logCount (c : Nat) (f : Core → Core) : (s.modCore c f).ccx.logCount = s.ccx.logCount := rfl
@[simp] theorem modCore_ccx_logMask (c : Nat) (f : Core → Core) : (s.modCore c f).ccx.logMask = s.ccx.logMask := rfl

/-! ### `setPod`: a pod-table entry set -/

@[simp] theorem setPod_pending (n h : Nat) (p : Option Pod) : (s.setPod n h p).pending = s.pending := rfl
@[simp] theorem setPod_regs (n h : Nat) (p : Option Pod) : (s.setPod n h p).regs = s.regs := rfl
@[simp] theorem setPod_spn (n h : Nat) (p : Option Pod) : (s.setPod n h p).spn = s.spn := rfl
@[simp] theorem setPod_bnd (n h : Nat) (p : Option Pod) : (s.setPod n h p).bnd = s.bnd := rfl
@[simp] theorem setPod_chk (n h : Nat) (p : Option Pod) : (s.setPod n h p).chk = s.chk := rfl
@[simp] theorem setPod_mce (n h : Nat) (p : Option Pod) : (s.setPod n h p).mce = s.mce := rfl
@[simp] theorem setPod_bwr (n h : Nat) (p : Option Pod) : (s.setPod n h p).bwr = s.bwr := rfl
@[simp] theorem setPod_tpl (n h : Nat) (p : Option Pod) : (s.setPod n h p).tpl = s.tpl := rfl
@[simp] theorem setPod_fld (n h : Nat) (p : Option Pod) : (s.setPod n h p).fld = s.fld := rfl
@[simp] theorem setPod_tcu (n h : Nat) (p : Option Pod) : (s.setPod n h p).tcu = s.tcu := rfl
@[simp] theorem setPod_dpa (n h : Nat) (p : Option Pod) : (s.setPod n h p).dpa = s.dpa := rfl
@[simp] theorem setPod_fpc (n h : Nat) (p : Option Pod) : (s.setPod n h p).fpc = s.fpc := rfl
@[simp] theorem setPod_hfp (n h : Nat) (p : Option Pod) : (s.setPod n h p).hfp = s.hfp := rfl
@[simp] theorem setPod_mbx (n h : Nat) (p : Option Pod) : (s.setPod n h p).mbx = s.mbx := rfl
@[simp] theorem setPod_flt (n h : Nat) (p : Option Pod) : (s.setPod n h p).flt = s.flt := rfl
@[simp] theorem setPod_vlt (n h : Nat) (p : Option Pod) : (s.setPod n h p).vlt = s.vlt := rfl
@[simp] theorem setPod_lc (n h : Nat) (p : Option Pod) : (s.setPod n h p).lc = s.lc := rfl
@[simp] theorem setPod_ccx (n h : Nat) (p : Option Pod) : (s.setPod n h p).ccx = s.ccx := rfl
@[simp] theorem setPod_src (n h : Nat) (p : Option Pod) : (s.setPod n h p).src = s.src := rfl
@[simp] theorem setPod_evr (n h : Nat) (p : Option Pod) : (s.setPod n h p).evr = s.evr := rfl
@[simp] theorem setPod_pins (n h : Nat) (p : Option Pod) : (s.setPod n h p).pins = s.pins := rfl
@[simp] theorem setPod_draws (n h : Nat) (p : Option Pod) : (s.setPod n h p).draws = s.draws := rfl
@[simp] theorem setPod_out (n h : Nat) (p : Option Pod) : (s.setPod n h p).out = s.out := rfl
@[simp] theorem setPod_pcm_fetches (n h : Nat) (p : Option Pod) : (s.setPod n h p).pcm.fetches = s.pcm.fetches := rfl
@[simp] theorem setPod_pcm_jobs (n h : Nat) (p : Option Pod) : (s.setPod n h p).pcm.jobs = s.pcm.jobs := rfl
@[simp] theorem setPod_pcm_waits (n h : Nat) (p : Option Pod) : (s.setPod n h p).pcm.waits = s.pcm.waits := rfl
@[simp] theorem setPod_pcm_promos (n h : Nat) (p : Option Pod) : (s.setPod n h p).pcm.promos = s.pcm.promos := rfl
@[simp] theorem setPod_pcm_slots (n h : Nat) (p : Option Pod) : (s.setPod n h p).pcm.slots = s.pcm.slots := rfl
@[simp] theorem setPod_pcm_experts (n h : Nat) (p : Option Pod) : (s.setPod n h p).pcm.experts = s.pcm.experts := rfl
@[simp] theorem setPod_pcm_roots (n h : Nat) (p : Option Pod) : (s.setPod n h p).pcm.roots = s.pcm.roots := rfl
@[simp] theorem setPod_pcm_clock (n h : Nat) (p : Option Pod) : (s.setPod n h p).pcm.clock = s.pcm.clock := rfl
@[simp] theorem setPod_pcm_xfer (n h : Nat) (p : Option Pod) : (s.setPod n h p).pcm.xfer = s.pcm.xfer := rfl

/-! ### `modPod`: a pod-table entry changed -/

@[simp] theorem modPod_pending (n h : Nat) (f : Pod → Pod) : (s.modPod n h f).pending = s.pending := rfl
@[simp] theorem modPod_regs (n h : Nat) (f : Pod → Pod) : (s.modPod n h f).regs = s.regs := rfl
@[simp] theorem modPod_spn (n h : Nat) (f : Pod → Pod) : (s.modPod n h f).spn = s.spn := rfl
@[simp] theorem modPod_bnd (n h : Nat) (f : Pod → Pod) : (s.modPod n h f).bnd = s.bnd := rfl
@[simp] theorem modPod_chk (n h : Nat) (f : Pod → Pod) : (s.modPod n h f).chk = s.chk := rfl
@[simp] theorem modPod_mce (n h : Nat) (f : Pod → Pod) : (s.modPod n h f).mce = s.mce := rfl
@[simp] theorem modPod_bwr (n h : Nat) (f : Pod → Pod) : (s.modPod n h f).bwr = s.bwr := rfl
@[simp] theorem modPod_tpl (n h : Nat) (f : Pod → Pod) : (s.modPod n h f).tpl = s.tpl := rfl
@[simp] theorem modPod_fld (n h : Nat) (f : Pod → Pod) : (s.modPod n h f).fld = s.fld := rfl
@[simp] theorem modPod_tcu (n h : Nat) (f : Pod → Pod) : (s.modPod n h f).tcu = s.tcu := rfl
@[simp] theorem modPod_dpa (n h : Nat) (f : Pod → Pod) : (s.modPod n h f).dpa = s.dpa := rfl
@[simp] theorem modPod_fpc (n h : Nat) (f : Pod → Pod) : (s.modPod n h f).fpc = s.fpc := rfl
@[simp] theorem modPod_hfp (n h : Nat) (f : Pod → Pod) : (s.modPod n h f).hfp = s.hfp := rfl
@[simp] theorem modPod_mbx (n h : Nat) (f : Pod → Pod) : (s.modPod n h f).mbx = s.mbx := rfl
@[simp] theorem modPod_flt (n h : Nat) (f : Pod → Pod) : (s.modPod n h f).flt = s.flt := rfl
@[simp] theorem modPod_vlt (n h : Nat) (f : Pod → Pod) : (s.modPod n h f).vlt = s.vlt := rfl
@[simp] theorem modPod_lc (n h : Nat) (f : Pod → Pod) : (s.modPod n h f).lc = s.lc := rfl
@[simp] theorem modPod_ccx (n h : Nat) (f : Pod → Pod) : (s.modPod n h f).ccx = s.ccx := rfl
@[simp] theorem modPod_src (n h : Nat) (f : Pod → Pod) : (s.modPod n h f).src = s.src := rfl
@[simp] theorem modPod_evr (n h : Nat) (f : Pod → Pod) : (s.modPod n h f).evr = s.evr := rfl
@[simp] theorem modPod_pins (n h : Nat) (f : Pod → Pod) : (s.modPod n h f).pins = s.pins := rfl
@[simp] theorem modPod_draws (n h : Nat) (f : Pod → Pod) : (s.modPod n h f).draws = s.draws := rfl
@[simp] theorem modPod_out (n h : Nat) (f : Pod → Pod) : (s.modPod n h f).out = s.out := rfl
@[simp] theorem modPod_pcm_fetches (n h : Nat) (f : Pod → Pod) : (s.modPod n h f).pcm.fetches = s.pcm.fetches := rfl
@[simp] theorem modPod_pcm_jobs (n h : Nat) (f : Pod → Pod) : (s.modPod n h f).pcm.jobs = s.pcm.jobs := rfl
@[simp] theorem modPod_pcm_waits (n h : Nat) (f : Pod → Pod) : (s.modPod n h f).pcm.waits = s.pcm.waits := rfl
@[simp] theorem modPod_pcm_promos (n h : Nat) (f : Pod → Pod) : (s.modPod n h f).pcm.promos = s.pcm.promos := rfl
@[simp] theorem modPod_pcm_slots (n h : Nat) (f : Pod → Pod) : (s.modPod n h f).pcm.slots = s.pcm.slots := rfl
@[simp] theorem modPod_pcm_experts (n h : Nat) (f : Pod → Pod) : (s.modPod n h f).pcm.experts = s.pcm.experts := rfl
@[simp] theorem modPod_pcm_roots (n h : Nat) (f : Pod → Pod) : (s.modPod n h f).pcm.roots = s.pcm.roots := rfl
@[simp] theorem modPod_pcm_clock (n h : Nat) (f : Pod → Pod) : (s.modPod n h f).pcm.clock = s.pcm.clock := rfl
@[simp] theorem modPod_pcm_xfer (n h : Nat) (f : Pod → Pod) : (s.modPod n h f).pcm.xfer = s.pcm.xfer := rfl

/-! ### `modTask`: a task changed -/

@[simp] theorem modTask_pending (k : Task) (f : Task → Task) : (s.modTask k f).pending = s.pending := rfl
@[simp] theorem modTask_regs (k : Task) (f : Task → Task) : (s.modTask k f).regs = s.regs := rfl
@[simp] theorem modTask_spn (k : Task) (f : Task → Task) : (s.modTask k f).spn = s.spn := rfl
@[simp] theorem modTask_bnd (k : Task) (f : Task → Task) : (s.modTask k f).bnd = s.bnd := rfl
@[simp] theorem modTask_chk (k : Task) (f : Task → Task) : (s.modTask k f).chk = s.chk := rfl
@[simp] theorem modTask_mce (k : Task) (f : Task → Task) : (s.modTask k f).mce = s.mce := rfl
@[simp] theorem modTask_bwr (k : Task) (f : Task → Task) : (s.modTask k f).bwr = s.bwr := rfl
@[simp] theorem modTask_tpl (k : Task) (f : Task → Task) : (s.modTask k f).tpl = s.tpl := rfl
@[simp] theorem modTask_fld (k : Task) (f : Task → Task) : (s.modTask k f).fld = s.fld := rfl
@[simp] theorem modTask_tcu (k : Task) (f : Task → Task) : (s.modTask k f).tcu = s.tcu := rfl
@[simp] theorem modTask_pcm (k : Task) (f : Task → Task) : (s.modTask k f).pcm = s.pcm := rfl
@[simp] theorem modTask_fpc (k : Task) (f : Task → Task) : (s.modTask k f).fpc = s.fpc := rfl
@[simp] theorem modTask_hfp (k : Task) (f : Task → Task) : (s.modTask k f).hfp = s.hfp := rfl
@[simp] theorem modTask_mbx (k : Task) (f : Task → Task) : (s.modTask k f).mbx = s.mbx := rfl
@[simp] theorem modTask_flt (k : Task) (f : Task → Task) : (s.modTask k f).flt = s.flt := rfl
@[simp] theorem modTask_vlt (k : Task) (f : Task → Task) : (s.modTask k f).vlt = s.vlt := rfl
@[simp] theorem modTask_lc (k : Task) (f : Task → Task) : (s.modTask k f).lc = s.lc := rfl
@[simp] theorem modTask_ccx (k : Task) (f : Task → Task) : (s.modTask k f).ccx = s.ccx := rfl
@[simp] theorem modTask_src (k : Task) (f : Task → Task) : (s.modTask k f).src = s.src := rfl
@[simp] theorem modTask_evr (k : Task) (f : Task → Task) : (s.modTask k f).evr = s.evr := rfl
@[simp] theorem modTask_pins (k : Task) (f : Task → Task) : (s.modTask k f).pins = s.pins := rfl
@[simp] theorem modTask_draws (k : Task) (f : Task → Task) : (s.modTask k f).draws = s.draws := rfl
@[simp] theorem modTask_out (k : Task) (f : Task → Task) : (s.modTask k f).out = s.out := rfl
@[simp] theorem modTask_dpa_queues (k : Task) (f : Task → Task) : (s.modTask k f).dpa.queues = s.dpa.queues := rfl
@[simp] theorem modTask_dpa_dmas (k : Task) (f : Task → Task) : (s.modTask k f).dpa.dmas = s.dpa.dmas := rfl
@[simp] theorem modTask_dpa_cpls (k : Task) (f : Task → Task) : (s.modTask k f).dpa.cpls = s.dpa.cpls := rfl
@[simp] theorem modTask_dpa_joins (k : Task) (f : Task → Task) : (s.modTask k f).dpa.joins = s.dpa.joins := rfl
@[simp] theorem modTask_dpa_sync (k : Task) (f : Task → Task) : (s.modTask k f).dpa.sync = s.dpa.sync := rfl
@[simp] theorem modTask_dpa_clusters (k : Task) (f : Task → Task) : (s.modTask k f).dpa.clusters = s.dpa.clusters := rfl
@[simp] theorem modTask_dpa_last (k : Task) (f : Task → Task) : (s.modTask k f).dpa.last = s.dpa.last := rfl
@[simp] theorem modTask_dpa_refusals (k : Task) (f : Task → Task) : (s.modTask k f).dpa.refusals = s.dpa.refusals := rfl
@[simp] theorem modTask_dpa_lastRef (k : Task) (f : Task → Task) : (s.modTask k f).dpa.lastRef = s.dpa.lastRef := rfl
@[simp] theorem modTask_dpa_rot (k : Task) (f : Task → Task) : (s.modTask k f).dpa.rot = s.dpa.rot := rfl

/-! ### `modPass`: a pass changed -/

@[simp] theorem modPass_pending (p : Pass) (f : Pass → Pass) : (s.modPass p f).pending = s.pending := rfl
@[simp] theorem modPass_regs (p : Pass) (f : Pass → Pass) : (s.modPass p f).regs = s.regs := rfl
@[simp] theorem modPass_spn (p : Pass) (f : Pass → Pass) : (s.modPass p f).spn = s.spn := rfl
@[simp] theorem modPass_bnd (p : Pass) (f : Pass → Pass) : (s.modPass p f).bnd = s.bnd := rfl
@[simp] theorem modPass_chk (p : Pass) (f : Pass → Pass) : (s.modPass p f).chk = s.chk := rfl
@[simp] theorem modPass_mce (p : Pass) (f : Pass → Pass) : (s.modPass p f).mce = s.mce := rfl
@[simp] theorem modPass_bwr (p : Pass) (f : Pass → Pass) : (s.modPass p f).bwr = s.bwr := rfl
@[simp] theorem modPass_tpl (p : Pass) (f : Pass → Pass) : (s.modPass p f).tpl = s.tpl := rfl
@[simp] theorem modPass_tcu (p : Pass) (f : Pass → Pass) : (s.modPass p f).tcu = s.tcu := rfl
@[simp] theorem modPass_pcm (p : Pass) (f : Pass → Pass) : (s.modPass p f).pcm = s.pcm := rfl
@[simp] theorem modPass_dpa (p : Pass) (f : Pass → Pass) : (s.modPass p f).dpa = s.dpa := rfl
@[simp] theorem modPass_fpc (p : Pass) (f : Pass → Pass) : (s.modPass p f).fpc = s.fpc := rfl
@[simp] theorem modPass_hfp (p : Pass) (f : Pass → Pass) : (s.modPass p f).hfp = s.hfp := rfl
@[simp] theorem modPass_mbx (p : Pass) (f : Pass → Pass) : (s.modPass p f).mbx = s.mbx := rfl
@[simp] theorem modPass_flt (p : Pass) (f : Pass → Pass) : (s.modPass p f).flt = s.flt := rfl
@[simp] theorem modPass_vlt (p : Pass) (f : Pass → Pass) : (s.modPass p f).vlt = s.vlt := rfl
@[simp] theorem modPass_lc (p : Pass) (f : Pass → Pass) : (s.modPass p f).lc = s.lc := rfl
@[simp] theorem modPass_ccx (p : Pass) (f : Pass → Pass) : (s.modPass p f).ccx = s.ccx := rfl
@[simp] theorem modPass_src (p : Pass) (f : Pass → Pass) : (s.modPass p f).src = s.src := rfl
@[simp] theorem modPass_evr (p : Pass) (f : Pass → Pass) : (s.modPass p f).evr = s.evr := rfl
@[simp] theorem modPass_pins (p : Pass) (f : Pass → Pass) : (s.modPass p f).pins = s.pins := rfl
@[simp] theorem modPass_draws (p : Pass) (f : Pass → Pass) : (s.modPass p f).draws = s.draws := rfl
@[simp] theorem modPass_out (p : Pass) (f : Pass → Pass) : (s.modPass p f).out = s.out := rfl
@[simp] theorem modPass_fld_nextOrder (p : Pass) (f : Pass → Pass) : (s.modPass p f).fld.nextOrder = s.fld.nextOrder := rfl
@[simp] theorem modPass_fld_failed (p : Pass) (f : Pass → Pass) : (s.modPass p f).fld.failed = s.fld.failed := rfl
@[simp] theorem modPass_fld_cyc (p : Pass) (f : Pass → Pass) : (s.modPass p f).fld.cyc = s.fld.cyc := rfl
@[simp] theorem modPass_fld_acc (p : Pass) (f : Pass → Pass) : (s.modPass p f).fld.acc = s.fld.acc := rfl
@[simp] theorem modPass_fld_fbuf (p : Pass) (f : Pass → Pass) : (s.modPass p f).fld.fbuf = s.fld.fbuf := rfl
@[simp] theorem modPass_fld_reads (p : Pass) (f : Pass → Pass) : (s.modPass p f).fld.reads = s.fld.reads := rfl
@[simp] theorem modPass_fld_held (p : Pass) (f : Pass → Pass) : (s.modPass p f).fld.held = s.fld.held := rfl

/-! ### `modConn`: an SPDM connection changed -/

@[simp] theorem modConn_pending (k : Nat) (f : SpdmConn → SpdmConn) : (s.modConn k f).pending = s.pending := rfl
@[simp] theorem modConn_regs (k : Nat) (f : SpdmConn → SpdmConn) : (s.modConn k f).regs = s.regs := rfl
@[simp] theorem modConn_spn (k : Nat) (f : SpdmConn → SpdmConn) : (s.modConn k f).spn = s.spn := rfl
@[simp] theorem modConn_bnd (k : Nat) (f : SpdmConn → SpdmConn) : (s.modConn k f).bnd = s.bnd := rfl
@[simp] theorem modConn_chk (k : Nat) (f : SpdmConn → SpdmConn) : (s.modConn k f).chk = s.chk := rfl
@[simp] theorem modConn_mce (k : Nat) (f : SpdmConn → SpdmConn) : (s.modConn k f).mce = s.mce := rfl
@[simp] theorem modConn_bwr (k : Nat) (f : SpdmConn → SpdmConn) : (s.modConn k f).bwr = s.bwr := rfl
@[simp] theorem modConn_tpl (k : Nat) (f : SpdmConn → SpdmConn) : (s.modConn k f).tpl = s.tpl := rfl
@[simp] theorem modConn_fld (k : Nat) (f : SpdmConn → SpdmConn) : (s.modConn k f).fld = s.fld := rfl
@[simp] theorem modConn_tcu (k : Nat) (f : SpdmConn → SpdmConn) : (s.modConn k f).tcu = s.tcu := rfl
@[simp] theorem modConn_pcm (k : Nat) (f : SpdmConn → SpdmConn) : (s.modConn k f).pcm = s.pcm := rfl
@[simp] theorem modConn_dpa (k : Nat) (f : SpdmConn → SpdmConn) : (s.modConn k f).dpa = s.dpa := rfl
@[simp] theorem modConn_fpc (k : Nat) (f : SpdmConn → SpdmConn) : (s.modConn k f).fpc = s.fpc := rfl
@[simp] theorem modConn_hfp (k : Nat) (f : SpdmConn → SpdmConn) : (s.modConn k f).hfp = s.hfp := rfl
@[simp] theorem modConn_mbx (k : Nat) (f : SpdmConn → SpdmConn) : (s.modConn k f).mbx = s.mbx := rfl
@[simp] theorem modConn_flt (k : Nat) (f : SpdmConn → SpdmConn) : (s.modConn k f).flt = s.flt := rfl
@[simp] theorem modConn_lc (k : Nat) (f : SpdmConn → SpdmConn) : (s.modConn k f).lc = s.lc := rfl
@[simp] theorem modConn_ccx (k : Nat) (f : SpdmConn → SpdmConn) : (s.modConn k f).ccx = s.ccx := rfl
@[simp] theorem modConn_src (k : Nat) (f : SpdmConn → SpdmConn) : (s.modConn k f).src = s.src := rfl
@[simp] theorem modConn_evr (k : Nat) (f : SpdmConn → SpdmConn) : (s.modConn k f).evr = s.evr := rfl
@[simp] theorem modConn_pins (k : Nat) (f : SpdmConn → SpdmConn) : (s.modConn k f).pins = s.pins := rfl
@[simp] theorem modConn_draws (k : Nat) (f : SpdmConn → SpdmConn) : (s.modConn k f).draws = s.draws := rfl
@[simp] theorem modConn_out (k : Nat) (f : SpdmConn → SpdmConn) : (s.modConn k f).out = s.out := rfl
@[simp] theorem modConn_vlt_st (k : Nat) (f : SpdmConn → SpdmConn) : (s.modConn k f).vlt.st = s.vlt.st := rfl
@[simp] theorem modConn_vlt_lcClass (k : Nat) (f : SpdmConn → SpdmConn) : (s.modConn k f).vlt.lcClass = s.vlt.lcClass := rfl
@[simp] theorem modConn_vlt_svnVault (k : Nat) (f : SpdmConn → SpdmConn) : (s.modConn k f).vlt.svnVault = s.vlt.svnVault := rfl
@[simp] theorem modConn_vlt_svnControl (k : Nat) (f : SpdmConn → SpdmConn) : (s.modConn k f).vlt.svnControl = s.vlt.svnControl := rfl
@[simp] theorem modConn_vlt_nb (k : Nat) (f : SpdmConn → SpdmConn) : (s.modConn k f).vlt.nb = s.vlt.nb := rfl
@[simp] theorem modConn_vlt_kmem (k : Nat) (f : SpdmConn → SpdmConn) : (s.modConn k f).vlt.kmem = s.vlt.kmem := rfl
@[simp] theorem modConn_vlt_cdi0 (k : Nat) (f : SpdmConn → SpdmConn) : (s.modConn k f).vlt.cdi0 = s.vlt.cdi0 := rfl
@[simp] theorem modConn_vlt_cdi1 (k : Nat) (f : SpdmConn → SpdmConn) : (s.modConn k f).vlt.cdi1 = s.vlt.cdi1 := rfl
@[simp] theorem modConn_vlt_cdi2 (k : Nat) (f : SpdmConn → SpdmConn) : (s.modConn k f).vlt.cdi2 = s.vlt.cdi2 := rfl
@[simp] theorem modConn_vlt_devPub (k : Nat) (f : SpdmConn → SpdmConn) : (s.modConn k f).vlt.devPub = s.vlt.devPub := rfl
@[simp] theorem modConn_vlt_aliasCert (k : Nat) (f : SpdmConn → SpdmConn) : (s.modConn k f).vlt.aliasCert = s.vlt.aliasCert := rfl
@[simp] theorem modConn_vlt_bindCert (k : Nat) (f : SpdmConn → SpdmConn) : (s.modConn k f).vlt.bindCert = s.vlt.bindCert := rfl
@[simp] theorem modConn_vlt_known (k : Nat) (f : SpdmConn → SpdmConn) : (s.modConn k f).vlt.known = s.vlt.known := rfl
@[simp] theorem modConn_vlt_secrets (k : Nat) (f : SpdmConn → SpdmConn) : (s.modConn k f).vlt.secrets = s.vlt.secrets := rfl
@[simp] theorem modConn_vlt_reqs (k : Nat) (f : SpdmConn → SpdmConn) : (s.modConn k f).vlt.reqs = s.vlt.reqs := rfl
@[simp] theorem modConn_vlt_chals (k : Nat) (f : SpdmConn → SpdmConn) : (s.modConn k f).vlt.chals = s.vlt.chals := rfl
@[simp] theorem modConn_vlt_chalAt (k : Nat) (f : SpdmConn → SpdmConn) : (s.modConn k f).vlt.chalAt = s.vlt.chalAt := rfl
@[simp] theorem modConn_vlt_binding (k : Nat) (f : SpdmConn → SpdmConn) : (s.modConn k f).vlt.binding = s.vlt.binding := rfl
@[simp] theorem modConn_vlt_entropyFail (k : Nat) (f : SpdmConn → SpdmConn) : (s.modConn k f).vlt.entropyFail = s.vlt.entropyFail := rfl
@[simp] theorem modConn_vlt_drbgStopped (k : Nat) (f : SpdmConn → SpdmConn) : (s.modConn k f).vlt.drbgStopped = s.vlt.drbgStopped := rfl

/-! ### What an update's own record reads back as -/

theorem grain_modGrain (g h : Nat) (f : GrainE → GrainE) : (s.modGrain g f).grain h = if h = g then f (s.grain g) else s.grain h := tget_tmod ..

theorem key_modKey (k j : Nat) (f : KeyE → KeyE) : (s.modKey k f).key j = if j = k then f (s.key k) else s.key j := tget_tmod ..

theorem fn_modFn (f j : Nat) (g : FnSt → FnSt) : (s.modFn f g).fn j = if j = f then g (s.fn f) else s.fn j := tget_tmod ..

theorem fsl_modFsl (n m : Nat) (f : FltSlice → FltSlice) : (s.modFsl n f).fsl m = if m = n then f (s.fsl n) else s.fsl m := tget_tmod ..

theorem mb_modMb (f j : Nat) (g : Mbx → Mbx) : (s.modMb f g).mb j = if j = f then g (s.mb f) else s.mb j := tget_tmod ..

theorem cluster_modCluster (c d : Nat) (f : Cluster → Cluster) : (s.modCluster c f).cluster d = if d = c then f (s.cluster c) else s.cluster d := tget_tmod ..

theorem core_modCore (c d : Nat) (f : Core → Core) : (s.modCore c f).core d = if d = c then f (s.core c) else s.core d := tget_tmod ..

theorem conn_modConn (k j : Nat) (f : SpdmConn → SpdmConn) : (s.modConn k f).conn j = if j = k then f (s.conn k) else s.conn j := tget_tmod ..

theorem queue_modQueue (n q m r : Nat) (f : Queue → Queue) :
    (s.modQueue n q f).queue m r = if qkey m r = qkey n q then (s.queue n q).map f else s.queue m r := tget_tmod ..

theorem link_modLink (p l p' l' : Nat) (f : Link → Link) :
    (s.modLink p l f).link p' l' = if 4 * p' + l' = 4 * p + l then f (s.link p l) else s.link p' l' := tget_tmod ..

theorem pod_setPod (n h m j : Nat) (p : Option Pod) : (s.setPod n h p).pod m j = if podKey m j = podKey n h then p else s.pod m j := tget_tset ..

theorem bank_setBank (b : Nat) (x : Bank) : (s.setBank b x).bank b = x := by unfold State.setBank State.bank; split <;> rfl

end Sys2Proof.Laws
end

