-- ==== Sys2Proof/Laws/Fabric.lean ====
section
/-! SUPPORT. The fabric's shared operations: what sending on a link can change, and what the arrival of a flit that passes does. -/

namespace Sys2Proof.Laws

open Sys2Proof.Machine

@[simp] theorem link_modLink_same (s : State) (p l : Nat) (f : Link → Link) : (s.modLink p l f).link p l = f (s.link p l) := by
  simp [link_modLink]

@[simp] theorem link_emit (s : State) (k : OutKind) (n : List Nat) (d : List Byte) (p l : Nat) : (s.emit k n d).link p l = s.link p l := rfl

/-- What sending on link `l` of port `p` can change: how far the link has sent, what it has told, its replay buffer and the outputs, which both keep what they
held. -/
structure Sends (s t : State) (p l : Nat) : Prop where
  frame : t = { s with fpc := { s.fpc with links := t.fpc.links }, out := t.out }
  others : LinkOnly s t p l
  link : t.link p l = { s.link p l with
    txCtr := (t.link p l).txCtr, gapTold := (t.link p l).gapTold, txSeq := (t.link p l).txSeq, replay := (t.link p l).replay }
  kept : ∀ o ∈ (s.link p l).replay, o ∈ (t.link p l).replay
  out : ∀ o ∈ s.out, o ∈ t.out

theorem Sends.refl (s : State) (p l : Nat) : Sends s s p l := ⟨rfl, fun _ _ => rfl, rfl, fun _ h => h, fun _ h => h⟩

theorem Sends.trans {a b c : State} {p l : Nat} (h : Sends a b p l) (k : Sends b c p l) : Sends a c p l where
  frame := by rw [k.frame, h.frame]
  others := fun i hi => (k.others i hi).trans (h.others i hi)
  link := by rw [k.link, h.link]
  kept := fun o ho => k.kept o (h.kept o ho)
  out := fun o ho => k.out o (h.out o ho)

theorem sends_modLink (s : State) (p l : Nat) (f : Link → Link)
    (h : f (s.link p l) = { s.link p l with
      txCtr := (f (s.link p l)).txCtr, gapTold := (f (s.link p l)).gapTold, txSeq := (f (s.link p l)).txSeq, replay := (f (s.link p l)).replay })
    (hr : ∀ o ∈ (s.link p l).replay, o ∈ (f (s.link p l)).replay) : Sends s (s.modLink p l f) p l where
  frame := rfl
  others := fun k hk => by simp [State.modLink, tget_tmod, hk]
  link := by rw [link_modLink_same]; exact h
  kept := by rw [link_modLink_same]; exact hr
  out := fun _ h => h

theorem sends_emit (s : State) (p l : Nat) (k : OutKind) (n : List Nat) (d : List Byte) : Sends s (s.emit k n d) p l :=
  ⟨rfl, fun _ _ => rfl, rfl, fun _ h => h, fun _ h => List.mem_append_left _ h⟩

theorem sends_emitFlit (s : State) (p l type vc seq : Nat) (cr : List Nat) (d : List Byte) : Sends s (s.emitFlit p l type vc seq cr d) p l := by
  unfold State.emitFlit
  split
  · exact Sends.refl s p l
  · exact (sends_emit s p l _ _ _).trans (sends_modLink _ p l _ rfl fun _ h => h)

theorem sends_sendSync (s : State) (p l : Nat) : Sends s (s.sendSync p l) p l := sends_emitFlit ..

theorem sends_flushLink (s : State) (p l n : Nat) : Sends s (s.flushLink p l n) p l := by
  induction n generalizing s with
  | zero => exact Sends.refl s p l
  | succ n ih =>
    simp only [State.flushLink]
    split
    · exact Sends.refl s p l
    · split
      · exact Sends.refl s p l
      · exact ((sends_emitFlit ..).trans (sends_modLink _ p l _ rfl fun _ h => h)).trans (ih _)

theorem sends_sendFlit (s : State) (p l type vc : Nat) (d : List Byte) : Sends s (s.sendFlit p l type vc d) p l := by
  unfold State.sendFlit
  refine (sends_modLink s p l _ rfl fun o ho => ?_).trans (sends_flushLink ..)
  rw [← List.take_append_drop (_ + _) (s.link p l).replay] at ho
  rcases List.mem_append.mp ho with h | h
  · exact List.mem_append_left _ h
  · exact List.mem_append_right _ (List.mem_cons_of_mem _ h)

/-- A flit sent waits in its link's replay buffer. -/
theorem sendFlit_mem (s : State) (p l type vc : Nat) (d : List Byte) : flitOut type vc d ∈ ((s.sendFlit p l type vc d).link p l).replay := by
  unfold State.sendFlit
  refine (sends_flushLink ..).kept _ ?_
  rw [link_modLink_same]
  exact List.mem_append_right _ List.mem_cons_self

theorem sends_foldl {α : Type} (p l : Nat) (f : State → α → State) (h : ∀ s a, Sends s (f s a) p l) (xs : List α) (s : State) :
    Sends s (xs.foldl f s) p l := by
  induction xs generalizing s with
  | nil => exact Sends.refl s p l
  | cons x xs ih => exact (h s x).trans (ih _)

theorem sends_sendPacket (s : State) (p l vc : Nat) (d : List Byte) : Sends s (s.sendPacket p l vc d) p l :=
  sends_foldl p l _ (fun _ _ => sends_sendFlit ..) _ _

/-- What a flit that passes leaves of its link: it counts its slots, moves the sequence on if numbered, and frees what it acknowledges; of the rest only the
registers, the senders' credits and the outputs may differ. -/
structure Arrives (s t : State) (p l hdr : Nat) (d : List Byte) : Prop where
  frame : t = { s with regs := t.regs, tpl := { s.tpl with fab := t.tpl.fab }, fpc := { s.fpc with links := t.fpc.links }, out := t.out }
  regs : ∀ a, a ≠ R.fpcRetry → t.rd a = s.rd a
  others : LinkOnly s t p l
  link : t.link p l = { s.link p l with
    rxCtr := (s.link p l).rxCtr + (flitsOf hdr d).length
    rxSeq := if 2 ≤ hdrType hdr then ((s.link p l).rxSeq + (flitsOf hdr d).length) % 4096 else (s.link p l).rxSeq
    gap := if 2 ≤ hdrType hdr then false else (s.link p l).gap
    txCtr := (t.link p l).txCtr, gapTold := (t.link p l).gapTold, txSeq := (t.link p l).txSeq, acked := (t.link p l).acked, replay := (t.link p l).replay }
  out : ∀ o ∈ s.out, o ∈ t.out

theorem arrives_ackFlit (s : State) (p l hdr : Nat) :
    (s.ackFlit p l hdr) = { s with regs := (s.ackFlit p l hdr).regs, fpc := { s.fpc with links := (s.ackFlit p l hdr).fpc.links }, out := (s.ackFlit p l hdr).out }
    ∧ (∀ a, a ≠ R.fpcRetry → (s.ackFlit p l hdr).rd a = s.rd a) ∧ LinkOnly s (s.ackFlit p l hdr) p l ∧ (∀ o ∈ s.out, o ∈ (s.ackFlit p l hdr).out)
    ∧ (s.ackFlit p l hdr).link p l = { s.link p l with
        txCtr := ((s.ackFlit p l hdr).link p l).txCtr, gapTold := ((s.ackFlit p l hdr).link p l).gapTold, txSeq := ((s.ackFlit p l hdr).link p l).txSeq
        acked := ((s.ackFlit p l hdr).link p l).acked, replay := ((s.ackFlit p l hdr).link p l).replay } := by
  unfold State.ackFlit
  dsimp only
  generalize hu : (if hdrRetry hdr = true then _ else _ : State) = u
  have hk : ∀ (x : State) (f : Link → Link), LinkOnly x (x.modLink p l f) p l := fun x f k hk => by simp [State.modLink, tget_tmod, hk]
  have h : u = { s with regs := u.regs, fpc := { s.fpc with links := u.fpc.links } } ∧ (∀ a, a ≠ R.fpcRetry → u.rd a = s.rd a) ∧ LinkOnly s u p l ∧ u.out = s.out
      ∧ u.link p l = { s.link p l with txSeq := (u.link p l).txSeq, acked := (u.link p l).acked, replay := (u.link p l).replay } := by
    subst hu
    split
    · refine ⟨rfl, fun a ha => ?_, fun k hk => ?_, rfl, ?_⟩
      · exact (rd_wr _ _ _ _).trans (if_neg ha)
      · simp [State.modLink, State.bump, State.wr, tget_tmod, hk]
      · rw [link_modLink_same]; simp [State.link, State.modLink, State.bump, State.wr, tget_tmod]
    · refine ⟨rfl, fun a ha => rfl, hk s _, rfl, ?_⟩
      rw [link_modLink_same]
  have g := sends_flushLink u p l 2048
  refine ⟨by rw [g.frame, h.1], fun a ha => ?_, fun k hk => (g.others k hk).trans (h.2.2.1 k hk), fun o ho => g.out o (h.2.2.2.1 ▸ ho), ?_⟩
  · rw [g.frame]; exact h.2.1 a ha
  · rw [g.link, h.2.2.2.2]

theorem creditFlit_eq (s : State) (p l hdr : Nat) : s.creditFlit p l hdr = { s with tpl := { s.tpl with fab := (s.creditFlit p l hdr).tpl.fab } } := by
  unfold State.creditFlit
  split <;> rfl

/-- A message that is accepted passes (14 R303, R310). -/
theorem rxFlit_accepts {s : State} {p l hdr : Nat} {d tag : List Byte} {k : Bool} (h : s.Accepts p l hdr d tag k) :
    (s.rxFlit p l hdr d false tag k).2 = true ∧ Arrives s (s.rxFlit p l hdr d false tag k).1 p l hdr d := by
  have hs : ((s.link p l).st.carries || k && ((s.link p l).st == .training || (s.link p l).st == .ready)) = true := by
    rcases h.serves with e | ⟨e, e' | e'⟩
    · simp [e]
    · simp [e, e']
    · simp [e, e']
  have hn : ((hdrType hdr != 0 && hdrType hdr != 1) && hdrSeq hdr != (s.link p l).rxSeq) = false := by
    by_cases h2 : 2 ≤ hdrType hdr
    · simp [h.next h2]
    · have : hdrType hdr = 0 ∨ hdrType hdr = 1 := by omega
      rcases this with e | e <;> simp [e]
  unfold State.rxFlit
  simp only [hs, h.fence, h.tag, hn, h.header, Bool.not_true, Bool.or_self, Bool.false_eq_true, if_false, if_true, true_and]
  generalize hu : (if (hdrType hdr != 0 && hdrType hdr != 1) = true then _ else _ : State) = u
  have h : u = { s with fpc := { s.fpc with links := u.fpc.links } } ∧ LinkOnly s u p l ∧ u.link p l = { s.link p l with
      rxCtr := (s.link p l).rxCtr + (flitsOf hdr d).length
      rxSeq := if 2 ≤ hdrType hdr then ((s.link p l).rxSeq + (flitsOf hdr d).length) % 4096 else (s.link p l).rxSeq
      gap := if 2 ≤ hdrType hdr then false else (s.link p l).gap, gapTold := (u.link p l).gapTold } := by
    subst hu
    split
    · next e =>
      have e : 2 ≤ hdrType hdr := by simp at e; omega
      refine ⟨rfl, fun k hk => by simp [State.modLink, tget_tmod, hk], ?_⟩
      simp [e]
    · next e =>
      have e : ¬ 2 ≤ hdrType hdr := by simp at e; omega
      refine ⟨rfl, fun k hk => by simp [State.modLink, tget_tmod, hk], ?_⟩
      simp [e]
  obtain ⟨a1, a2, a3, a4, a5⟩ := arrives_ackFlit u p l hdr
  have c := creditFlit_eq (u.ackFlit p l hdr) p l hdr
  have cl : ((u.ackFlit p l hdr).creditFlit p l hdr).link p l = (u.ackFlit p l hdr).link p l := by rw [c]; rfl
  have hs : u.out = s.out := by rw [h.1]
  have hr : ∀ a, u.rd a = s.rd a := fun a => by rw [h.1]; rfl
  constructor
  · rw [c, a1, h.1]
  · intro a ha; rw [c]; exact (a2 a ha).trans (hr a)
  · intro k hk; rw [c]; exact (a3 k hk).trans (h.2.1 k hk)
  · rw [cl, a5, h.2.2]
  · intro o ho; rw [c]; exact a4 o (hs ▸ ho)

end Sys2Proof.Laws
end

