-- ==== Sys2Proof/Laws/Keeps.lean ====
section
/-! SUPPORT. What no operation but a few named ones changes: the queue of commands, the fuses, the slices in force, and whether the device is in a
security halt, the tick count, and LLY_HFP_READY.FW. They stand together as `Machine.State.kept`,
so that one equation says it of an operation. Here the
rules for updates, branches, folds and outcomes; the files beside this one hold one lemma per operation. -/

namespace Sys2Proof

open Machine

/-- The commands waiting, the fuses, the slices in force, the halt, the tick count and LLY_HFP_READY.FW. -/
structure Laws.Kept where
  pending : List Instr
  otp : Tbl W64
  defs : Tbl (Option SliceDef)
  halted : Bool
  tick : Nat
  fwReady : Bool

/-- What most operations keep. -/
def Machine.State.kept (s : State) : Laws.Kept := ⟨s.pending, s.lc.otp, s.bnd.defs, s.mce.halted, s.spn.tick, s.hfp.fwReady⟩

end Sys2Proof

namespace Sys2Proof.Laws

open Sys2Proof.Machine

/-- The state an outcome goes on with; the state before where it stops. -/
def after (o : Host.Outcome State Fault Refusal) (s : State) : State :=
  match o with
  | .next t => t
  | _ => s

/-- A fold keeps what each of its steps keeps. -/
theorem foldl_same {α σ β : Type} (p : σ → β) (f : σ → α → σ) (h : ∀ s a, p (f s a) = p s) (l : List α) (s : σ) :
    p (l.foldl f s) = p s := by
  induction l generalizing s with
  | nil => rfl
  | cons a l ih => rw [List.foldl_cons, ih, h]

theorem foldl_kept {α : Type} (f : State → α → State) (h : ∀ s a, (f s a).kept = s.kept) (l : List α) (s : State) :
    (l.foldl f s).kept = s.kept := foldl_same State.kept f h l s

theorem foldl_fst_kept {α β : Type} (f : State × β → α → State × β) (h : ∀ x a, (f x a).1.kept = x.1.kept) (l : List α) (x : State × β) :
    (l.foldl f x).1.kept = x.1.kept := foldl_same (fun x => x.1.kept) f h l x

/-- What a pair's state keeps, the pair given by an equation. -/
theorem fst_kept {α : Type} {x : State × α} {s : State} {a : α} {k : Kept} (h : x = (s, a)) (hx : x.1.kept = k) : s.kept = k := by rw [← hx, h]

theorem snd_kept {α : Type} {x : α × State} {s : State} {a : α} {k : Kept} (h : x = (a, s)) (hx : x.2.kept = k) : s.kept = k := by rw [← hx, h]

theorem kept_ite {c : Prop} [Decidable c] {a b : State} {k : Kept} (ha : a.kept = k) (hb : b.kept = k) : (if c then a else b).kept = k := by
  split <;> assumption

theorem ite_kept {c : Prop} [Decidable c] {a b k : Kept} (ha : a = k) (hb : b = k) : (if c then a else b) = k := by
  split <;> assumption

/-- How `State.kept` goes through an update, a branch, a fold and an outcome. -/
theorem kept_base :
    (∀ pending regs spn bnd chk mce bwr tpl fld tcu pcm dpa fpc hfp mbx flt vlt lc ccx src evr pins draws out,
      (State.mk pending regs spn bnd chk mce bwr tpl fld tcu pcm dpa fpc hfp mbx flt vlt lc ccx src evr pins draws out).kept
      = ⟨pending, lc.otp, bnd.defs, mce.halted, spn.tick, hfp.fwReady⟩)
    ∧ (∀ s : State, (⟨s.pending, s.lc.otp, s.bnd.defs, s.mce.halted, s.spn.tick, s.hfp.fwReady⟩ : Kept) = s.kept)
    ∧ (∀ (c : Prop) [Decidable c] (a b : State), (if c then a else b).kept = if c then a.kept else b.kept)
    ∧ (∀ (c : Prop) [Decidable c] (k : Kept), (if c then k else k) = k)
    ∧ (∀ (α : Type) (c : Prop) [Decidable c] (a b : State × α), (if c then a else b).1.kept = if c then a.1.kept else b.1.kept)
    ∧ (∀ (α : Type) (f : State → α → State), (∀ s a, (f s a).kept = s.kept) → ∀ (l : List α) (s : State), (l.foldl f s).kept = s.kept)
    ∧ (∀ (α β : Type) (f : State × β → α → State × β), (∀ x a, (f x a).1.kept = x.1.kept) →
        ∀ (l : List α) (x : State × β), (l.foldl f x).1.kept = x.1.kept)
    ∧ (∀ α : Type, (α → True) = True) ∧ (∀ t s : State, after (.next t) s = t)
    ∧ (∀ (c : Prop) [Decidable c] (a b : Host.Outcome State Fault Refusal) (s : State),
      (after (if c then a else b) s).kept = if c then (after a s).kept else (after b s).kept) :=
  ⟨fun _ _ _ _ _ _ _ _ _ _ _ _ _ _ _ _ _ _ _ _ _ _ _ _ => rfl, fun _ => rfl, fun _ _ _ _ => by split <;> rfl, fun _ _ _ => by split <;> rfl,
   fun _ _ _ _ _ => by split <;> rfl, fun _ f h l s => foldl_kept f h l s, fun _ _ f h l x => foldl_fst_kept f h l x, fun _ => by simp,
   fun _ _ => rfl,
   fun _ _ _ _ _ => by split <;> rfl⟩

/-- Each part of a state by way of `State.kept`. -/
theorem kept_parts :
    (∀ s : State, s.pending = s.kept.pending) ∧ (∀ s : State, s.lc.otp = s.kept.otp) ∧ (∀ s : State, s.bnd.defs = s.kept.defs)
    ∧ (∀ s : State, s.mce.halted = s.kept.halted) ∧ (∀ s : State, s.spn.tick = s.kept.tick) ∧ (∀ s : State, s.hfp.fwReady = s.kept.fwReady)
    ∧ (∀ (c : Prop) [Decidable c] (a b : Kept), (if c then a else b).pending = if c then a.pending else b.pending)
    ∧ (∀ (c : Prop) [Decidable c] (a b : Kept), (if c then a else b).otp = if c then a.otp else b.otp)
    ∧ (∀ (c : Prop) [Decidable c] (a b : Kept), (if c then a else b).defs = if c then a.defs else b.defs)
    ∧ (∀ (c : Prop) [Decidable c] (a b : Kept), (if c then a else b).halted = if c then a.halted else b.halted)
    ∧ (∀ (c : Prop) [Decidable c] (a b : Kept), (if c then a else b).tick = if c then a.tick else b.tick)
    ∧ (∀ (c : Prop) [Decidable c] (a b : Kept), (if c then a else b).fwReady = if c then a.fwReady else b.fwReady)
    ∧ (∀ (α : Type) (c : Prop) [Decidable c] (k : α), (if c then k else k) = k) :=
  ⟨fun _ => rfl, fun _ => rfl, fun _ => rfl, fun _ => rfl, fun _ => rfl, fun _ => rfl, fun _ _ _ _ => by split <;> rfl,
    fun _ _ _ _ => by split <;> rfl,
   fun _ _ _ _ => by split <;> rfl, fun _ _ _ _ => by split <;> rfl, fun _ _ _ _ => by split <;> rfl, fun _ _ _ _ => by split <;> rfl,
   fun _ _ _ _ => by split <;> rfl⟩

end Sys2Proof.Laws
end

