-- ==== Sys2Proof/Laws/KeepsOps.lean ====
section
/-! SUPPORT. What the operations of Machine/Ops, Bandwidth, Binder, Crypt, Buffers, QueueOps keep: the queue of commands, the fuses,
the slices in force, the halt,
the count and LLY_HFP_READY.FW, each but where a lemma leaves one out. -/

set_option maxRecDepth 4000

namespace Sys2Proof.Laws

open Sys2Proof.Machine

theorem keeps_wr (s : State) (a : Nat) (v : Nat) :
    (State.wr s a v).kept = s.kept := by
  unfold State.wr; simp only [kept_base]

theorem keeps_wf (s : State) (a : Nat) (hi : Nat) (lo : Nat) (v : Nat) :
    (State.wf s a hi lo v).kept = s.kept := by
  unfold State.wf; simp only [keeps_wr]

theorem keeps_bump (s : State) (a : Nat) (n : Nat) :
    (State.bump s a n).kept = s.kept := by
  unfold State.bump; simp only [keeps_wr]

theorem keeps_emit (s : State) (k : OutKind) (nums : List Nat) (data : List Byte) :
    (State.emit s k nums data).kept = s.kept := by
  unfold State.emit; simp only [kept_base]

theorem keeps_drawn (s : State) :
    (State.drawn s).kept = s.kept := by
  unfold State.drawn; simp only [kept_base]

theorem keeps_raise (s : State) (e : Ev) :
    (State.raise s e).kept = s.kept := by
  unfold State.raise; simp only [kept_base]

theorem keeps_raiseFault (s : State) (src : Nat) (sl : Option Nat) (f : FaultEv) :
    (State.raiseFault s src sl f).kept = s.kept := by
  unfold State.raiseFault; simp only [keeps_raise]

theorem keeps_offer (s : State) (cls : Nat) (kind : Nat) (tick : Nat) (slice : Nat) (sub : Nat) (aux : Nat) (d : List Nat) :
    (State.offer s cls kind tick slice sub aux d).kept = s.kept := by
  unfold State.offer; simp only [kept_base]

theorem keeps_lcRecord (s : State) (sub : Nat) (status : Nat) (d : Nat) :
    (State.lcRecord s sub status d).kept = s.kept := by
  unfold State.lcRecord; simp only [keeps_offer]

theorem keeps_modFn (s : State) (f : Nat) (g : FnSt → FnSt) :
    (State.modFn s f g).kept = s.kept := by
  unfold State.modFn; simp only [kept_base]

theorem keeps_clearStale (s : State) :
    (State.clearStale s).kept = s.kept := by
  unfold State.clearStale; simp only [kept_base]

theorem keeps_stale (s : State) (f : Nat) :
    (State.stale s f).kept = s.kept := by
  unfold State.stale; simp only [keeps_modFn]

theorem keeps_signal (s : State) (f : Nat) (gen : Nat) (vec : Nat) :
    (State.signal s f gen vec).kept = s.kept := by
  unfold State.signal; simp only [kept_base, keeps_modFn, keeps_stale]

theorem keeps_sendMsix (s : State) :
    (State.sendMsix s).kept = s.kept := by
  unfold State.sendMsix; simp only [kept_base, keeps_emit, keeps_modFn]

theorem keeps_irq (s : State) (n : Nat) :
    (State.irq s n).kept = s.kept := by
  unfold State.irq; simp only [kept_base, keeps_signal, keeps_wr]

theorem keeps_hfpEvt (s : State) (v : Nat) (k : Nat) :
    (State.hfpEvt s v k).kept = s.kept := by
  unfold State.hfpEvt; simp only [kept_base, keeps_signal]

theorem keeps_modFsl (s : State) (n : Nat) (f : FltSlice → FltSlice) :
    (State.modFsl s n f).kept = s.kept := by
  unfold State.modFsl; simp only [kept_base]

theorem keeps_wakeUp (s : State) :
    (State.wakeUp s).kept = s.kept := by
  unfold State.wakeUp; simp only [kept_base]

theorem keeps_accErr (s : State) (flag : Nat) (src : Nat) (a : Nat) :
    (State.accErr s flag src a).kept = s.kept := by
  unfold State.accErr; simp only [keeps_wr]

theorem keeps_holdWrite (s : State) (src : Nat) (a : Nat) (v : Nat) :
    (State.holdWrite s src a v).kept = s.kept := by
  unfold State.holdWrite; simp only [kept_base, keeps_wakeUp]

theorem keeps_answerRead (s : State) (src : Nat) (a : Nat) (v : Nat) :
    (State.answerRead s src a v).kept = s.kept := by
  unfold State.answerRead; simp only [keeps_emit]

theorem keeps_gated (s : State) (src : Nat) (a : Nat) (v : Nat) (act : State → State) (hact : ∀ s, (act s).kept = s.kept) :
    (State.gated s src a v act).kept = s.kept := by
  unfold State.gated; simp only [kept_base, keeps_accErr, keeps_holdWrite, keeps_wakeUp, hact]

theorem keeps_gatedVf (s : State) (f : Nat) (off : Nat) (v : Nat) (act : State → State) (hact : ∀ s, (act s).kept = s.kept) :
    (State.gatedVf s f off v act).kept = s.kept := by
  unfold State.gatedVf; simp only [kept_base, keeps_holdWrite, keeps_wakeUp, hact]

theorem keeps_gatedFn (s : State) (f : Nat) (pfPlace : Nat) (vfPlace : Nat) (v : Nat) (act : State → State) (hact : ∀ s, (act s).kept = s.kept) :
    (State.gatedFn s f pfPlace vfPlace v act).kept = s.kept := by
  unfold State.gatedFn; simp only [kept_base, keeps_gated, keeps_gatedVf, hact]

theorem keeps_modGrain (s : State) (g : Nat) (f : GrainE → GrainE) :
    (State.modGrain s g f).kept = s.kept := by
  unfold State.modGrain; simp only [kept_base]

theorem keeps_advanceStmt (s : State) (n : Nat) (t : Nat) :
    (State.advanceStmt s n t).kept = s.kept := by
  unfold State.advanceStmt; simp only [kept_base]

theorem keeps_modKey (s : State) (k : Nat) (f : KeyE → KeyE) :
    (State.modKey s k f).kept = s.kept := by
  unfold State.modKey; simp only [kept_base]

theorem keeps_raiseIndex (s : State) (k : Nat) :
    (State.raiseIndex s k).kept = s.kept := by
  unfold State.raiseIndex; simp only [keeps_modKey]

theorem keeps_loadKey (s : State) (k : Nat) :
    (State.loadKey s k).kept = s.kept := by
  unfold State.loadKey; simp only [keeps_drawn, keeps_modKey]

theorem keeps_useKey (s : State) (k : Nat) (owner : Nat) (st : KeySt) :
    (State.useKey s k owner st).kept = s.kept := by
  unfold State.useKey; simp only [keeps_loadKey, keeps_modKey]

theorem keeps_modMb (s : State) (f : Nat) (g : Mbx → Mbx) :
    (State.modMb s f g).kept = s.kept := by
  unfold State.modMb; simp only [kept_base]

theorem keeps_finish (s : State) (c : Option CmdRef) (status : Nat) (detail : Nat) (result : List Byte) :
    (State.finish s c status detail result).kept = s.kept := by
  unfold State.finish; (repeat' (first
      | with_reducible refine kept_ite ?_ ?_
      | simp only [keeps_modMb]
      | with_reducible refine ite_kept ?_ ?_
      | split))

theorem keeps_deferCmd (s : State) (c : Option CmdRef) (detail : Nat) :
    (State.deferCmd s c detail).kept = s.kept := by
  unfold State.deferCmd; (repeat' (first
      | with_reducible refine kept_ite ?_ ?_
      | simp only [keeps_modMb]
      | with_reducible refine ite_kept ?_ ?_
      | split))

theorem keeps_modCluster (s : State) (c : Nat) (f : Cluster → Cluster) :
    (State.modCluster s c f).kept = s.kept := by
  unfold State.modCluster; simp only [kept_base]

theorem keeps_modQueue (s : State) (sl : Nat) (q : Nat) (f : Queue → Queue) :
    (State.modQueue s sl q f).kept = s.kept := by
  unfold State.modQueue; simp only [kept_base]

theorem keeps_modLink (s : State) (p : Nat) (l : Nat) (f : Link → Link) :
    (State.modLink s p l f).kept = s.kept := by
  unfold State.modLink; simp only [kept_base]

theorem keeps_modRegul (s : State) (n : Nat) (k : Nat) (f : Regul → Regul) :
    (State.modRegul s n k f).kept = s.kept := by
  unfold State.modRegul; simp only [kept_base]

theorem keeps_fillTokens (s : State) :
    (State.fillTokens s).kept = s.kept := by
  unfold State.fillTokens; simp only [kept_base, keeps_modRegul]

theorem keeps_modAcc (s : State) (n : Nat) (f : EpochAcc → EpochAcc) :
    (State.modAcc s n f).kept = s.kept := by
  unfold State.modAcc; simp only [kept_base]

theorem keeps_noteWaits (s : State) :
    (State.noteWaits s).kept = s.kept := by
  unfold State.noteWaits; simp only [kept_base, keeps_modAcc]

theorem keeps_noLend (s : State) :
    (State.noLend s).kept = s.kept := by
  unfold State.noLend; simp only [kept_base]

theorem keeps_lendGrant (s : State) (sv : Tbl Nat) :
    (State.lendGrant s sv).kept = s.kept := by
  unfold State.lendGrant; simp only [kept_base, keeps_noLend]

theorem keeps_offerIdle (s : State) (x : Nat) (base : Nat) (size : Nat) (per : Nat) (n : Nat) (b : Nat) (c : Tbl Nat) (d : Nat) :
    (State.offerIdle s x base size per n b c d).1.kept = s.kept := by
  induction n generalizing s x base size per b c d with
  | zero => rfl
  | succ n ih =>
    unfold State.offerIdle
    (repeat' (first
      | with_reducible refine kept_ite ?_ ?_
      | simp only [kept_base, ih]
      | with_reducible refine ite_kept ?_ ?_
      | split))

theorem keeps_offers (s : State) (x : Nat) (base : Nat) (size : Nat) (per : Nat) (idle : List Nat) :
    (State.offers s x base size per idle).1.kept = s.kept := by
  unfold State.offers; simp only [kept_base, keeps_offerIdle]

theorem keeps_closeEpoch (s : State) :
    (State.closeEpoch s).kept = s.kept := by
  unfold State.closeEpoch; simp only [kept_base, keeps_signal]

theorem keeps_execStackQueueLevelHold (k : Nat) (v : Nat) (s : State) :
    (after (execStackQueueLevelHold k v s) s).kept = s.kept := by
  unfold execStackQueueLevelHold; simp only [kept_base, keeps_raiseFault]

theorem keeps_execBwrReportRead (v : Nat) (s : State) :
    (after (execBwrReportRead v s) s).kept = s.kept := by
  unfold execBwrReportRead; (repeat' (first
      | with_reducible refine kept_ite ?_ ?_
      | simp only [kept_base, keeps_emit, keeps_wr]
      | with_reducible refine ite_kept ?_ ?_
      | split))

theorem keeps_dropColls (s : State) (ids : List Nat) :
    (State.dropColls s ids).kept = s.kept := by
  unfold State.dropColls; simp only [kept_base]

theorem keeps_serveTiles (s : State) :
    (State.serveTiles s).kept = s.kept := by
  unfold State.serveTiles; simp only [kept_base, keeps_dropColls, keeps_emit]

theorem keeps_collFail (s : State) (id : Nat) (code : Nat) :
    (State.collFail s id code).kept = s.kept := by
  unfold State.collFail; simp only [kept_base, keeps_serveTiles]

theorem keeps_refuseReq (s : State) (id : Nat) (cls : RClass) (tag : Nat) (reason : Nat) (addr : Nat) :
    (State.refuseReq s id cls tag reason addr).kept = s.kept := by
  unfold State.refuseReq; simp only [keeps_collFail, keeps_emit]

theorem keeps_deny (s : State) (id : Nat) (cls : RClass) (tag : Nat) (port : Nat) (addr : Nat) (reason : Nat) :
    (State.deny s id cls tag port addr reason).kept = s.kept := by
  unfold State.deny; simp only [kept_base, keeps_bump, keeps_raiseFault, keeps_refuseReq, keeps_wr]

theorem keeps_setBank (s : State) (b : Nat) (x2 : Bank) :
    (State.setBank s b x2).kept = s.kept := by
  unfold State.setBank; simp only [kept_base]

theorem keeps_admitLines (s : State) (id : Nat) (cls : RClass) (tag : Nat) (port : Nat) (aux : Nat) (addr : Nat) (len : Nat) (write : Bool)
    (mask : Nat) (data : List Byte) (now : Nat) :
    (State.admitLines s id cls tag port aux addr len write mask data now).kept = s.kept := by
  unfold State.admitLines; simp only [kept_base]

theorem keeps_decideRequest (s : State) (id : Nat) (cls : RClass) (tag : Nat) (port : Nat) (aux : Nat) (addr : Nat) (len : Nat) (write : Bool)
    (mask : Nat) (data : List Byte) (now : Nat) :
    (State.decideRequest s id cls tag port aux addr len write mask data now).kept = s.kept := by
  unfold State.decideRequest; (repeat' (first
      | with_reducible refine kept_ite ?_ ?_
      | simp only [keeps_admitLines, keeps_deny, keeps_refuseReq]
      | with_reducible refine ite_kept ?_ ?_
      | split))

theorem keeps_enterRequest (s : State) (id : Nat) (c : RClass) (tag : Nat) (port : Nat) (aux : Nat) (addr : Nat) (len : Nat) (write : Bool)
    (mask : Nat) (data : List Byte) (now : Nat) :
    (State.enterRequest s id c tag port aux addr len write mask data now).kept = s.kept := by
  unfold State.enterRequest; simp only [kept_base, keeps_decideRequest]

theorem keeps_memAccess (s : State) (cls : RClass) (tag : Nat) (port : Nat) (addr : Nat) (len : Nat) (write : Bool) (data : List Byte) :
    (State.memAccess s cls tag port addr len write data).1.kept = s.kept := by
  unfold State.memAccess; simp only [kept_base, keeps_enterRequest]

theorem keeps_releaseHeld (s : State) :
    (State.releaseHeld s).kept = s.kept := by
  unfold State.releaseHeld; simp only [kept_base, keeps_decideRequest]

theorem keeps_noteLastCopy (s : State) (g : Nat) :
    (State.noteLastCopy s g).kept = s.kept := by
  unfold State.noteLastCopy; simp only [kept_base]

theorem keeps_poisonGrains (s : State) (gs : List Nat) (t : Nat) :
    (State.poisonGrains s gs t).kept = s.kept := by
  unfold State.poisonGrains; simp only [kept_base, keeps_advanceStmt, keeps_irq, keeps_modGrain, keeps_noteLastCopy]

theorem keeps_execFailedRegion (k : Nat) (first : Nat) (last : Nat) (s : State) :
    (after (execFailedRegion k first last s) s).kept = s.kept := by
  unfold execFailedRegion; simp only [kept_base, keeps_raise, keeps_raiseFault]

theorem keeps_selGrain (s : State) (src : Nat) (g : Nat) :
    (State.selGrain s src g).kept = s.kept := by
  unfold State.selGrain; simp only [keeps_wr]

theorem keeps_execGtSelWrite (src : Nat) (g : Nat) (s : State) :
    (after (execGtSelWrite src g s) s).kept = s.kept := by
  unfold execGtSelWrite; simp only [kept_base, keeps_gated, keeps_selGrain]

theorem keeps_writeBack (s : State) (eng : Nat) (t : TagLine) :
    (State.writeBack s eng t).kept = s.kept := by
  unfold State.writeBack; simp only [kept_base, keeps_emit]

theorem keeps_charge (s : State) (tag : Nat) (k : Nat) (c : Nat) :
    (State.charge s tag k c).kept = s.kept := by
  unfold State.charge; simp only [kept_base, keeps_modAcc, keeps_modRegul]

theorem keeps_evict (s : State) (eng : Nat) (t : TagLine) :
    (State.evict s eng t).kept = s.kept := by
  unfold State.evict; simp only [kept_base, keeps_charge, keeps_writeBack]

theorem keeps_putSlots (s : State) (holder : Nat) (g : Nat) (line : Nat) (slots : Tbl W64) (dirty : Bool) (fetched : Bool) :
    (State.putSlots s holder g line slots dirty fetched).kept = s.kept := by
  unfold State.putSlots; simp only [kept_base, keeps_evict]

theorem keeps_swapReq (s : State) (r : MemReq) (n : Option MemReq) :
    (State.swapReq s r n).kept = s.kept := by
  unfold State.swapReq; simp only [kept_base]

theorem keeps_tagMiss (s : State) (id : Nat) (tag : Nat) (g : Nat) (line : Nat) :
    (State.tagMiss s id tag g line).kept = s.kept := by
  unfold State.tagMiss; simp only [keeps_bump, keeps_charge, keeps_emit]

theorem keeps_lookSlot (s : State) (id : Nat) (tag : Nat) (g : Nat) (line : Nat) :
    (State.lookSlot s id tag g line).1.kept = s.kept := by
  unfold State.lookSlot; (repeat' (first
      | with_reducible refine kept_ite ?_ ?_
      | simp only [keeps_putSlots, keeps_tagMiss]
      | with_reducible refine ite_kept ?_ ?_
      | split))

theorem keeps_storeLine (s : State) (id : Nat) (tag : Nat) (g : Nat) (line : Nat) (keyid : Nat) (d : List Byte) :
    (State.storeLine s id tag g line keyid d).kept = s.kept := by
  unfold State.storeLine; (repeat' (first
      | with_reducible refine kept_ite ?_ ?_
      | simp only [keeps_emit, keeps_putSlots]
      | with_reducible refine ite_kept ?_ ?_
      | split))

theorem keeps_writeLine (s : State) (r : MemReq) :
    (State.writeLine s r).kept = s.kept := by
  unfold State.writeLine; simp only [kept_base, keeps_emit, keeps_storeLine]

theorem keeps_fabLine (s : State) (r : MemReq) (res : LineRes) :
    (State.fabLine s r res).kept = s.kept := by
  unfold State.fabLine; simp only [kept_base]

theorem keeps_collLine (s : State) (r : MemReq) (res : LineRes) :
    (State.collLine s r res).kept = s.kept := by
  unfold State.collLine; simp only [kept_base, keeps_serveTiles]

theorem keeps_lineDone (s : State) (r : MemReq) (res : LineRes) :
    (State.lineDone s r res).kept = s.kept := by
  unfold State.lineDone; simp only [keeps_collLine, keeps_fabLine]

theorem keeps_issue (s : State) (r0 : MemReq) (now : Nat) :
    (State.issue s r0 now).kept = s.kept := by
  unfold State.issue; simp only [kept_base, keeps_charge, keeps_emit, keeps_lineDone, keeps_lookSlot, keeps_raiseFault, keeps_swapReq,
        keeps_writeLine]

theorem keeps_execRequestIssue (tag : Nat) (stack : Nat) (sub : Nat) (s : State) :
    (after (execRequestIssue tag stack sub s) s).kept = s.kept := by
  unfold execRequestIssue; (repeat' (first
      | with_reducible refine kept_ite ?_ ?_
      | simp only [kept_base, keeps_issue]
      | with_reducible refine ite_kept ?_ ?_
      | split))

theorem keeps_poisonLine (s : State) (tag : Nat) (g : Nat) (line : Nat) (cause : Nat) :
    (State.poisonLine s tag g line cause).kept = s.kept := by
  unfold State.poisonLine; simp only [kept_base, keeps_putSlots, keeps_raise]

theorem keeps_poisonTag (s : State) (tag : Nat) (g : Nat) (line : Nat) :
    (State.poisonTag s tag g line).kept = s.kept := by
  unfold State.poisonTag; (repeat' (first
      | with_reducible refine kept_ite ?_ ?_
      | simp only [kept_base, keeps_poisonLine]
      | with_reducible refine ite_kept ?_ ?_
      | split))

theorem keeps_answer (s : State) (r : MemReq) (res : LineRes) (data : List Byte) (now : Nat) :
    (State.answer s r res data now).kept = s.kept := by
  unfold State.answer; simp only [kept_base, keeps_bump, keeps_irq, keeps_modAcc, keeps_offer, keeps_swapReq]

theorem keeps_memPoison (s : State) (r : MemReq) :
    (State.memPoison s r).kept = s.kept := by
  unfold State.memPoison; simp only [kept_base, keeps_raiseFault]

theorem keeps_tagHalt (s : State) (cause : Nat) (port : Nat) (tag : Nat) (g : Nat) (line : Nat) :
    (State.tagHalt s cause port tag g line).kept = s.kept := by
  unfold State.tagHalt; simp only [kept_base, keeps_raise]

theorem keeps_settle (s : State) (r : MemReq) (tagEcc : Nat) (slot : W64) (dataEcc : Nat) (cipher : List Byte) (now : Nat) :
    (State.settle s r tagEcc slot dataEcc cipher now).kept = s.kept := by
  unfold State.settle; (repeat' (first
      | with_reducible refine kept_ite ?_ ?_
      | simp only [kept_base, keeps_answer, keeps_bump, keeps_memPoison, keeps_poisonLine, keeps_poisonTag, keeps_swapReq,
        keeps_tagHalt]
      | with_reducible refine ite_kept ?_ ?_
      | split))

theorem keeps_fillSlots (s : State) (tag : Nat) (g : Nat) (line : Nat) (pre : Bool) (tagLine : List W64) :
    (State.fillSlots s tag g line pre tagLine).kept = s.kept := by
  unfold State.fillSlots; (repeat' (first
      | with_reducible refine kept_ite ?_ ?_
      | simp only [keeps_putSlots]
      | with_reducible refine ite_kept ?_ ?_
      | split))

theorem keeps_zeroiseKey (s : State) (k : Nat) :
    (State.zeroiseKey s k).kept = s.kept := by
  unfold State.zeroiseKey; simp only [kept_base, keeps_emit, keeps_lineDone, keeps_modKey, keeps_swapReq]

theorem keeps_modWalk (s : State) (n : Nat) (f : Walk → Walk) :
    (State.modWalk s n f).kept = s.kept := by
  unfold State.modWalk; simp only [kept_base]

theorem keeps_walkAt (s : State) (n : Nat) (eng : Nat) :
    (State.walkAt s n eng).kept = s.kept := by
  unfold State.walkAt; (repeat' (first
      | with_reducible refine kept_ite ?_ ?_
      | simp only [kept_base, keeps_emit, keeps_modWalk]
      | with_reducible refine ite_kept ?_ ?_
      | split))

theorem keeps_walkTick (s : State) :
    (State.walkTick s).kept = s.kept := by
  unfold State.walkTick
  split
  · rfl
  · refine foldl_kept _ (fun s d => ?_) _ _
    dsimp only
    split
    · rfl
    · exact foldl_kept _ (fun s k => by simp only [kept_base, keeps_modWalk, keeps_walkAt]) _ _

theorem keeps_walkSettle (s : State) (n : Nat) (w : Walk) (x : WalkRead) (tagEcc : Nat) (slot : W64) (dataEcc : Nat) (cipher : List Byte) :
    (State.walkSettle s n w x tagEcc slot dataEcc cipher).kept = s.kept := by
  unfold State.walkSettle; (repeat' (first
      | with_reducible refine kept_ite ?_ ?_
      | simp only [kept_base, keeps_bump, keeps_modWalk, keeps_poisonLine, keeps_poisonTag, keeps_storeLine, keeps_tagHalt,
        keeps_walkAt]
      | with_reducible refine ite_kept ?_ ?_
      | split))

theorem keeps_execRekeyGrainDone (n : Nat) (stack : Nat) (s : State) :
    (after (execRekeyGrainDone n stack s) s).kept = s.kept := by
  unfold execRekeyGrainDone; (repeat' (first
      | with_reducible refine kept_ite ?_ ?_
      | simp only [kept_base, keeps_modGrain, keeps_raise, keeps_zeroiseKey]
      | with_reducible refine ite_kept ?_ ?_
      | split))

theorem keeps_execMemResponse (id : Nat) (addr : Nat) (tagEcc : Nat) (tagLine : List W64) (dataEcc : Nat) (cipher : List Byte) (sub : Nat)
    (s : State) :
    (after (execMemResponse id addr tagEcc tagLine dataEcc cipher sub s) s).kept = s.kept := by
  unfold execMemResponse; (repeat' (first
      | with_reducible refine kept_ite ?_ ?_
      | simp only [kept_base, keeps_fillSlots, keeps_settle, keeps_walkSettle]
      | with_reducible refine ite_kept ?_ ?_
      | split))

theorem keeps_coreLoad (s : State) (r : MemReq) :
    (State.coreLoad s r).kept = s.kept := by
  unfold State.coreLoad; simp only [kept_base]

theorem keeps_execReadDelivery (id : Nat) (addr : Nat) (sub : Nat) (s : State) :
    (after (execReadDelivery id addr sub s) s).kept = s.kept := by
  unfold execReadDelivery; (repeat' (first
      | with_reducible refine kept_ite ?_ ?_
      | simp only [kept_base, keeps_coreLoad, keeps_emit, keeps_lineDone, keeps_modAcc, keeps_swapReq]
      | with_reducible refine ite_kept ?_ ?_
      | split))

theorem keeps_countPoison (s : State) (g : Nat) :
    (State.countPoison s g).1.kept = s.kept := by
  unfold State.countPoison; simp only [kept_base, keeps_bump, keeps_irq]

theorem keeps_selKey (s : State) (src : Nat) (k : Nat) :
    (State.selKey s src k).kept = s.kept := by
  unfold State.selKey; simp only [keeps_wr]

theorem keeps_execMceKselWrite (src : Nat) (k : Nat) (s : State) :
    (after (execMceKselWrite src k s) s).kept = s.kept := by
  unfold execMceKselWrite; simp only [kept_base, keeps_gated, keeps_selKey]

theorem keeps_selWalk (s : State) (src : Nat) (n : Nat) :
    (State.selWalk s src n).kept = s.kept := by
  unfold State.selWalk; (repeat' (first
      | with_reducible refine kept_ite ?_ ?_
      | simp only [keeps_wr]
      | with_reducible refine ite_kept ?_ ?_
      | split))

theorem keeps_execMceWselWrite (src : Nat) (n : Nat) (s : State) :
    (after (execMceWselWrite src n s) s).kept = s.kept := by
  unfold execMceWselWrite; simp only [kept_base, keeps_gated, keeps_selWalk]

theorem keeps_forgetTags (s : State) (p : Nat → Bool) :
    (State.forgetTags s p).kept = s.kept := by
  unfold State.forgetTags; simp only [kept_base]

theorem keeps_execInterleaveMarkerWriteDone (s : State) :
    (after (execInterleaveMarkerWriteDone s) s).kept = s.kept := by
  unfold execInterleaveMarkerWriteDone; simp only [kept_base, keeps_emit, keeps_forgetTags, keeps_releaseHeld]

theorem keeps_modUse (s : State) (ch : Nat) (h : Nat) (f : TplUse → TplUse) :
    (State.modUse s ch h f).kept = s.kept := by
  unfold State.modUse; simp only [kept_base]

theorem keeps_takeBuf (s : State) (ch : Nat) (h : Nat) :
    (State.takeBuf s ch h).kept = s.kept := by
  unfold State.takeBuf; simp only [kept_base, keeps_modUse]

theorem keeps_giveBuf (s : State) (ch : Nat) (h : Nat) :
    (State.giveBuf s ch h).kept = s.kept := by
  unfold State.giveBuf; simp only [keeps_modUse]

theorem keeps_execBufferZeroed (ch : Nat) (h : Nat) (s : State) :
    (after (execBufferZeroed ch h s) s).kept = s.kept := by
  unfold execBufferZeroed; simp only [kept_base, keeps_modUse]

theorem keeps_issueReq (s : State) (a : HostAcc) (ch : Nat) :
    (State.issueReq s a ch).kept = s.kept := by
  unfold State.issueReq; simp only [kept_base, keeps_emit, keeps_giveBuf, keeps_takeBuf]

theorem keeps_pumpAcc (s : State) (id : Nat) (a : Nat) :
    (State.pumpAcc s id a).kept = s.kept := by
  induction a generalizing s with
  | zero => simp only [State.pumpAcc]
  | succ _ ih => unfold State.pumpAcc; (repeat' (first
      | with_reducible refine kept_ite ?_ ?_
      | simp only [keeps_issueReq, ih]
      | with_reducible refine ite_kept ?_ ?_
      | split))

theorem keeps_pumpHost (s : State) :
    (State.pumpHost s).kept = s.kept := by
  unfold State.pumpHost; simp only [kept_base, keeps_pumpAcc]

theorem keeps_access (s : State) (use : HostUse) (sl a b f gen : Nat) (write : Bool) (addr len : Nat) (data : List Byte) :
    (State.access s use sl a b f gen write addr len data).kept = s.kept := by
  unfold State.access; simp only [kept_base, keeps_pumpAcc, keeps_stale]

theorem keeps_hostRead (s : State) (use : HostUse) (sl : Nat) (a : Nat) (b : Nat) (f : Nat) (gen : Nat) (addr : Nat) (len : Nat) :
    (State.hostRead s use sl a b f gen addr len).kept = s.kept := by
  unfold State.hostRead; simp only [keeps_access]

theorem keeps_hostWrite (s : State) (use : HostUse) (sl : Nat) (a : Nat) (b : Nat) (f : Nat) (gen : Nat) (addr : Nat) (d : List Byte) :
    (State.hostWrite s use sl a b f gen addr d).kept = s.kept := by
  unfold State.hostWrite; simp only [keeps_access]

theorem keeps_dropAccs (s : State) (p : HostAcc → Bool) :
    (State.dropAccs s p).kept = s.kept := by
  unfold State.dropAccs; (repeat' (first
      | with_reducible refine kept_ite ?_ ?_
      | simp only [kept_base, keeps_giveBuf]
      | with_reducible refine ite_kept ?_ ?_
      | split
      | refine (foldl_kept _ (fun _ _ => ?_) _ _).trans ?_))

theorem keeps_answerReq (s : State) (tag : Nat) (stat : Nat) (data : List Byte) :
    (State.answerReq s tag stat data).1.kept = s.kept := by
  unfold State.answerReq; (repeat' (first
      | with_reducible refine kept_ite ?_ ?_
      | simp only [kept_base, keeps_dropAccs, keeps_giveBuf]
      | with_reducible refine ite_kept ?_ ?_
      | split))

theorem keeps_execHostCreditReturn (n : Nat) (s : State) :
    (after (execHostCreditReturn n s) s).kept = s.kept := by
  unfold execHostCreditReturn; simp only [kept_base, keeps_pumpHost]

theorem keeps_execHostLinkUp (up : Bool) (init : Nat) (s : State) :
    (after (execHostLinkUp up init s) s).kept = s.kept := by
  unfold execHostLinkUp; simp only [kept_base, keeps_pumpHost]

theorem keeps_modFab (s : State) (p : Nat) (l : Nat) (v : Nat) (h : Nat) (f : FabCred → FabCred) :
    (State.modFab s p l v h f).kept = s.kept := by
  unfold State.modFab; simp only [kept_base]

theorem keeps_reapQueue (s : State) (sl : Nat) (q : Nat) :
    (State.reapQueue s sl q).kept = s.kept := by
  unfold State.reapQueue; (repeat' (first
      | with_reducible refine kept_ite ?_ ?_
      | simp only [kept_base, keeps_dropAccs, keeps_finish]
      | with_reducible refine ite_kept ?_ ?_
      | split))

theorem keeps_readTurn (s : State) (sl : Nat) (q : Nat) :
    (State.readTurn s sl q).kept = s.kept := by
  unfold State.readTurn; (repeat' (first
      | with_reducible refine kept_ite ?_ ?_
      | simp only [keeps_hostRead, keeps_modQueue]
      | with_reducible refine ite_kept ?_ ?_
      | split))

theorem keeps_nextTurn (s : State) (sl : Nat) (q : Nat) :
    (State.nextTurn s sl q).kept = s.kept := by
  unfold State.nextTurn; simp only [keeps_modQueue, keeps_readTurn]

theorem keeps_queueCpl (s : State) (sl : Nat) (q : Nat) (entry : Nat) (irq : Bool) (taskId : Nat) (d : List Byte) :
    (State.queueCpl s sl q entry irq taskId d).kept = s.kept := by
  unfold State.queueCpl; simp only [kept_base]

theorem keeps_complete (s : State) (sl : Nat) (q : Nat) (entry : Nat) (status : Nat) (cluster : Nat) (count : Nat) (aux : Nat) (desc : List Byte)
    (op : Nat) (seq : Nat) :
    (State.complete s sl q entry status cluster count aux desc op seq).kept = s.kept := by
  unfold State.complete; (repeat' (first
      | with_reducible refine kept_ite ?_ ?_
      | simp only [keeps_queueCpl]
      | with_reducible refine ite_kept ?_ ?_
      | split))

theorem keeps_cancelEntry (s : State) (sl : Nat) (q : Nat) (entry : Nat) :
    (State.cancelEntry s sl q entry).kept = s.kept := by
  unfold State.cancelEntry; simp only [keeps_modQueue, keeps_reapQueue]

theorem keeps_hostError (s : State) (sl : Nat) (q : Nat) (taskId : Nat) (cls : Nat) (addr : Nat) :
    (State.hostError s sl q taskId cls addr).kept = s.kept := by
  unfold State.hostError; simp only [keeps_raiseFault]

theorem keeps_foldFail (s : State) (sl : Nat) (q : Nat) (x : Queue) (d : List Byte) (status : Nat) :
    (State.foldFail s sl q x d status).kept = s.kept := by
  unfold State.foldFail; simp only [keeps_nextTurn, keeps_queueCpl]

theorem keeps_failTurn (s : State) (sl : Nat) (q : Nat) (x : Queue) (d : List Byte) (status : Nat) (op : Nat) :
    (State.failTurn s sl q x d status op).kept = s.kept := by
  unfold State.failTurn; simp only [kept_base, keeps_complete, keeps_foldFail, keeps_nextTurn]

theorem keeps_writeCqh (s : State) (v : Nat) (q : Nat) (h : Nat) :
    (State.writeCqh s v q h).kept = s.kept := by
  unfold State.writeCqh; (repeat' (first
      | with_reducible refine kept_ite ?_ ?_
      | simp only [keeps_modQueue, keeps_wr]
      | with_reducible refine ite_kept ?_ ?_
      | split))

theorem keeps_execDpaCqhWrite (v : Nat) (q : Nat) (h : Nat) (s : State) :
    (after (execDpaCqhWrite v q h s) s).kept = s.kept := by
  unfold execDpaCqhWrite; simp only [kept_base, keeps_gatedVf, keeps_writeCqh]

theorem keeps_writeCpl (s : State) (n : Nat) (q : Nat) (err : Bool) :
    (State.writeCpl s n q err).kept = s.kept := by
  unfold State.writeCpl; (repeat' (first
      | with_reducible refine kept_ite ?_ ?_
      | simp only [kept_base, keeps_emit, keeps_hostError, keeps_modQueue, keeps_reapQueue, keeps_signal, keeps_stale]
      | with_reducible refine ite_kept ?_ ?_
      | split))

theorem keeps_execCompletionWrite (n : Nat) (q : Nat) (err : Bool) (s : State) :
    (after (execCompletionWrite n q err s) s).kept = s.kept := by
  unfold execCompletionWrite; simp only [kept_base, keeps_writeCpl]

theorem keeps_selQueue (s : State) (v : Nat) (q : Nat) :
    (State.selQueue s v q).kept = s.kept := by
  unfold State.selQueue; (repeat' (first
      | with_reducible refine kept_ite ?_ ?_
      | simp only [kept_base, keeps_wr]
      | with_reducible refine ite_kept ?_ ?_
      | split))

theorem keeps_execQselWrite (v : Nat) (q : Nat) (s : State) :
    (after (execQselWrite v q s) s).kept = s.kept := by
  unfold execQselWrite; simp only [kept_base, keeps_gatedVf, keeps_selQueue]

theorem keeps_writeDoorbell (s : State) (v : Nat) (q : Nat) (count : Nat) :
    (State.writeDoorbell s v q count).kept = s.kept := by
  unfold State.writeDoorbell; (repeat' (first
      | with_reducible refine kept_ite ?_ ?_
      | simp only [keeps_modQueue, keeps_raise]
      | with_reducible refine ite_kept ?_ ?_
      | split))

theorem keeps_execDoorbell (v : Nat) (q : Nat) (count : Nat) (s : State) :
    (after (execDoorbell v q count s) s).kept = s.kept := by
  unfold execDoorbell; simp only [kept_base, keeps_gatedVf, keeps_writeDoorbell]

theorem keeps_doorbellSubmit (s : State) (n : Nat) (q : Nat) (count : Nat) :
    (State.doorbellSubmit s n q count).kept = s.kept := by
  unfold State.doorbellSubmit; simp only [keeps_modQueue]

theorem keeps_doorbellEffect (s : State) (n : Nat) (q : Nat) (count : Nat) (got : Nat) :
    (State.doorbellEffect s n q count got).kept = s.kept := by
  unfold State.doorbellEffect; (repeat' (first
      | with_reducible refine kept_ite ?_ ?_
      | simp only [kept_base, keeps_hfpEvt, keeps_modQueue, keeps_readTurn]
      | with_reducible refine ite_kept ?_ ?_
      | split))

theorem keeps_execRefusals (n : Nat) (s : State) :
    (after (execRefusals n s) s).kept = s.kept := by
  unfold execRefusals; simp only [kept_base, keeps_offer]

end Sys2Proof.Laws
end

