-- ==== Sys2Proof/Laws/KeepsPods.lean ====
section
/-! SUPPORT. What the operations of Machine/Pods keep: the queue of commands, the fuses, the slices in force, the halt,
the count and LLY_HFP_READY.FW, each but where a lemma leaves one out. -/

set_option maxRecDepth 4000

namespace Sys2Proof.Laws

open Sys2Proof.Machine

theorem keeps_setPod (s : State) (sl : Nat) (h : Nat) (p : Option Pod) :
    (State.setPod s sl h p).kept = s.kept := by
  unfold State.setPod; simp only [kept_base]

theorem keeps_modPod (s : State) (sl : Nat) (h : Nat) (f : Pod → Pod) :
    (State.modPod s sl h f).kept = s.kept := by
  unfold State.modPod; simp only [keeps_setPod]

theorem keeps_touchPod (s : State) (sl : Nat) (h : Nat) :
    (State.touchPod s sl h).kept = s.kept := by
  unfold State.touchPod; simp only [kept_base, keeps_modPod]

theorem keeps_putRun (s : State) (sl : Nat) (r : Nat × Bool × Nat × Nat) (u : Nat) :
    (State.putRun s sl r u).kept = s.kept := by
  unfold State.putRun; simp only [keeps_modPod]

theorem keeps_pack (s : State) (sl : Nat) (may : Nat → Bool) :
    (State.pack s sl may).kept = s.kept := by
  unfold State.pack; simp only [kept_base, keeps_putRun]

theorem keeps_compact (s : State) (sl : Nat) :
    (State.compact s sl).kept = s.kept := by
  unfold State.compact; simp only [keeps_pack]

theorem keeps_regrain (s : State) (sl : Nat) (old : List Nat) :
    (State.regrain s sl old).kept = s.kept := by
  have hp : ∀ (l : List ((Nat × Bool × Nat × Nat) × Nat)) (s : State), (l.foldl (fun s e => s.putRun sl e.1 e.2) s).kept = s.kept :=
    foldl_kept _ (fun s e => keeps_putRun ..)
  unfold State.regrain
  dsimp only
  split
  · rfl
  · split
    · rw [foldl_fst_kept]
      · exact hp ..
      · intro x a
        split <;> simp only [keeps_putRun]
    · rw [keeps_pack, hp]

theorem keeps_syncPodUse (s : State) (sl : Nat) :
    (State.syncPodUse s sl).kept = s.kept := by
  unfold State.syncPodUse; simp only [kept_base, keeps_modGrain]

theorem keeps_dropShelf (s : State) (sl : Nat) (h : Nat) :
    (State.dropShelf s sl h).kept = s.kept := by
  unfold State.dropShelf; simp only [keeps_modPod]

theorem keeps_podEv (s : State) (sl : Nat) (h : Nat) (what : Nat) (args : List Nat) (cmd : Option CmdRef) :
    (State.podEv s sl h what args cmd).kept = s.kept := by
  unfold State.podEv; simp only [keeps_raise]

theorem keeps_readSpans (s : State) (cls : RClass) (sl : Nat) (port : Nat) (ps : List (Nat × Nat)) :
    (State.readSpans s cls sl port ps).1.kept = s.kept := by
  unfold State.readSpans; simp only [kept_base, keeps_memAccess]

theorem keeps_writeSpans (s : State) (cls : RClass) (sl : Nat) (port : Nat) (ps : List (Nat × Nat)) (bs : List Byte) :
    (State.writeSpans s cls sl port ps bs).1.kept = s.kept := by
  unfold State.writeSpans; simp only [kept_base, keeps_memAccess]

theorem keeps_promote (s : State) (sl : Nat) (h : Nat) :
    (State.promote s sl h).1.kept = s.kept := by
  unfold State.promote; (repeat' (first
      | with_reducible refine kept_ite ?_ ?_
      | simp only [kept_base, keeps_modPod, keeps_podEv, keeps_readSpans]
      | with_reducible refine ite_kept ?_ ?_
      | split))

theorem keeps_dropPromo (s : State) (sl : Nat) (h : Nat) :
    (State.dropPromo s sl h).kept = s.kept := by
  unfold State.dropPromo; simp only [kept_base, keeps_dropColls, keeps_modPod]

theorem keeps_retryPromos (s : State) (sl : Nat) :
    (State.retryPromos s sl).kept = s.kept := by
  unfold State.retryPromos; (repeat' (first
      | with_reducible refine kept_ite ?_ ?_
      | simp only [kept_base, keeps_finish, keeps_modPod, keeps_promote]
      | with_reducible refine ite_kept ?_ ?_
      | split))

theorem keeps_startHeads (s : State) :
    (State.startHeads s).kept = s.kept := by
  unfold State.startHeads; (repeat' (first
      | with_reducible refine kept_ite ?_ ?_
      | simp only [keeps_hostRead]
      | with_reducible refine ite_kept ?_ ?_
      | split
      | refine (foldl_kept _ (fun _ _ => ?_) _ _).trans ?_))

theorem keeps_modFetch (s : State) (sl : Nat) (h : Nat) (secT : Bool) (f : Fetch → Fetch) :
    (State.modFetch s sl h secT f).kept = s.kept := by
  unfold State.modFetch; simp only [kept_base]

theorem keeps_dropFetch (s : State) (sl : Nat) (h : Nat) (secT : Bool) :
    (State.dropFetch s sl h secT).kept = s.kept := by
  unfold State.dropFetch; simp only [kept_base, keeps_dropAccs, keeps_startHeads]

theorem keeps_addFetch (s : State) (sl : Nat) (h : Nat) (secT : Bool) (thenT : Bool) (cmd : Option CmdRef) :
    (State.addFetch s sl h secT thenT cmd).1.kept = s.kept := by
  unfold State.addFetch; simp only [kept_base, keeps_modPod, keeps_startHeads]

theorem keeps_wantPod (s : State) (sl : Nat) (h : Nat) :
    (State.wantPod s sl h).kept = s.kept := by
  unfold State.wantPod; (repeat' (first
      | with_reducible refine kept_ite ?_ ?_
      | simp only [keeps_podEv]
      | with_reducible refine ite_kept ?_ ?_
      | split))

theorem keeps_freePod (s : State) (sl : Nat) (h : Nat) :
    (State.freePod s sl h).kept = s.kept := by
  unfold State.freePod; simp only [keeps_dropFetch, keeps_dropPromo, keeps_setPod, keeps_syncPodUse]

theorem keeps_unbindPod (s : State) (sl : Nat) (h : Nat) :
    (State.unbindPod s sl h).kept = s.kept := by
  unfold State.unbindPod; simp only [kept_base]

theorem keeps_toAbsent (s : State) (sl : Nat) (h : Nat) :
    (State.toAbsent s sl h).kept = s.kept := by
  unfold State.toAbsent; simp only [keeps_dropPromo, keeps_modPod, keeps_syncPodUse]

theorem keeps_settlePods (s : State) (sl : Nat) :
    (State.settlePods s sl).kept = s.kept := by
  unfold State.settlePods; simp only [kept_base, keeps_freePod, keeps_podEv]

theorem keeps_failWaits (s : State) (sl : Nat) (h : Nat) (status : Nat) (detail : Nat) (fold : Nat) :
    (State.failWaits s sl h status detail fold).kept = s.kept := by
  unfold State.failWaits; simp only [kept_base, keeps_finish]

theorem keeps_wantTrain (s : State) (sl : Nat) (h : Nat) :
    (State.wantTrain s sl h).kept = s.kept := by
  unfold State.wantTrain; (repeat' (first
      | with_reducible refine kept_ite ?_ ?_
      | simp only [keeps_addFetch, keeps_failWaits]
      | with_reducible refine ite_kept ?_ ?_
      | split))

theorem keeps_fillRun (s : State) (sl : Nat) (p : Pod) (h : List Byte) (plain : List Byte) (secT : Bool) :
    (State.fillRun s sl p h plain secT).kept = s.kept := by
  unfold State.fillRun; simp only [kept_base, keeps_dropColls, keeps_writeSpans]

theorem keeps_abortStep (s : State) (sl : Nat) (h : Nat) :
    (State.abortStep s sl h).kept = s.kept := by
  unfold State.abortStep; simp only [kept_base, keeps_dropFetch, keeps_settlePods, keeps_toAbsent]

theorem keeps_podOpen (s : State) (sl : Nat) (h : Nat) (args : List Nat) (cmd : Option CmdRef) :
    (State.podOpen s sl h args cmd).kept = s.kept := by
  unfold State.podOpen; simp only [kept_base, keeps_addFetch, keeps_finish, keeps_setPod]

theorem keeps_podFetched (s : State) (sl : Nat) (h : Nat) :
    (State.podFetched s sl h).kept = s.kept := by
  unfold State.podFetched; (repeat' (first
      | with_reducible refine kept_ite ?_ ?_
      | simp only [kept_base, keeps_addFetch, keeps_dropFetch, keeps_finish, keeps_podEv, keeps_raise, keeps_setPod, keeps_settlePods]
      | with_reducible refine ite_kept ?_ ?_
      | split))

theorem keeps_podFailed (s : State) (sl : Nat) (h : Nat) (secT : Bool) (status : Nat) (detail : Nat) :
    (State.podFailed s sl h secT status detail).kept = s.kept := by
  unfold State.podFailed; (repeat' (first
      | with_reducible refine kept_ite ?_ ?_
      | simp only [kept_base, keeps_dropFetch, keeps_failWaits, keeps_finish, keeps_freePod, keeps_modPod, keeps_settlePods,
        keeps_syncPodUse, keeps_toAbsent, keeps_unbindPod]
      | with_reducible refine ite_kept ?_ ?_
      | split))

theorem keeps_podPin (s : State) (sl : Nat) (h : Nat) (cmd : Option CmdRef) :
    (State.podPin s sl h cmd).kept = s.kept := by
  unfold State.podPin; (repeat' (first
      | with_reducible refine kept_ite ?_ ?_
      | simp only [kept_base, keeps_addFetch, keeps_finish, keeps_modPod, keeps_promote]
      | with_reducible refine ite_kept ?_ ?_
      | split))

theorem keeps_podPromoted (s : State) (sl : Nat) (h : Nat) :
    (State.podPromoted s sl h).kept = s.kept := by
  unfold State.podPromoted; (repeat' (first
      | with_reducible refine kept_ite ?_ ?_
      | simp only [kept_base, keeps_dropShelf, keeps_finish, keeps_modPod]
      | with_reducible refine ite_kept ?_ ?_
      | split))

theorem keeps_podClose (s : State) (sl : Nat) (h : Nat) (discard : Bool) (cmd : Option CmdRef) :
    (State.podClose s sl h discard cmd).kept = s.kept := by
  unfold State.podClose; (repeat' (first
      | with_reducible refine kept_ite ?_ ?_
      | simp only [kept_base, keeps_dropFetch, keeps_failWaits, keeps_finish, keeps_modPod, keeps_settlePods, keeps_unbindPod]
      | with_reducible refine ite_kept ?_ ?_
      | split))

theorem keeps_podEvict (s : State) (sl : Nat) (h : Nat) (discard : Bool) (cmd : Option CmdRef) :
    (State.podEvict s sl h discard cmd).kept = s.kept := by
  unfold State.podEvict; (repeat' (first
      | with_reducible refine kept_ite ?_ ?_
      | simp only [kept_base, keeps_dropShelf, keeps_finish, keeps_podClose, keeps_podEv, keeps_retryPromos, keeps_startHeads,
        keeps_toAbsent]
      | with_reducible refine ite_kept ?_ ?_
      | split))

theorem takeRun_keeps {s s' : State} {sl n u : Nat} (h : s.takeRun sl n = some (s', u)) : s'.kept = s.kept := by
  unfold State.takeRun at h
  dsimp only at h
  split at h
  · simp only [Option.some.injEq, Prod.mk.injEq] at h; rw [← h.1]
  · split at h
    · cases h
    · simp only [Option.map_eq_some_iff, Prod.mk.injEq] at h; obtain ⟨_, _, rfl, _⟩ := h; exact keeps_compact ..

theorem keeps_podEffect (s : State) (sl : Nat) (h : Nat) (what : Nat) (args : List Nat) (cmd : Option CmdRef) :
    (State.podEffect s sl h what args cmd).kept = s.kept := by
  unfold State.podEffect; (repeat' (first
      | with_reducible refine kept_ite ?_ ?_
      | simp only [keeps_addFetch, keeps_dropFetch, keeps_dropShelf, keeps_failWaits, keeps_finish, keeps_modPod,
        keeps_podClose, keeps_podEvict, keeps_podFailed, keeps_podFetched, keeps_podOpen, keeps_podPin, keeps_podPromoted, keeps_promote,
        keeps_retryPromos, keeps_setPod, keeps_settlePods]
      | with_reducible refine ite_kept ?_ ?_
      | split))

theorem keeps_claimEffect (s : State) (sl : Nat) (expert : Bool) (layer : Nat) (slot : Nat) (h : Nat) (cmd : Option CmdRef) :
    (State.claimEffect s sl expert layer slot h cmd).kept = s.kept := by
  unfold State.claimEffect; (repeat' (first
      | with_reducible refine kept_ite ?_ ?_
      | simp only [kept_base, keeps_finish, keeps_wantPod]
      | with_reducible refine ite_kept ?_ ?_
      | split))

theorem keeps_releaseEffect (s : State) (sl : Nat) (expert : Bool) (layer : Nat) (slot : Nat) (cmd : Option CmdRef) :
    (State.releaseEffect s sl expert layer slot cmd).kept = s.kept := by
  unfold State.releaseEffect; simp only [kept_base, keeps_finish]

theorem keeps_modPass' (s : State) (sl : Nat) (h : Nat) :
    (State.modPass' s sl h).kept = s.kept := by
  unfold State.modPass'; simp only [kept_base]

theorem keeps_departShelf (s : State) (ps : List Nat) :
    (State.departShelf s ps).kept = s.kept := by
  unfold State.departShelf; simp only [kept_base, keeps_dropPromo, keeps_modPass', keeps_modPod, keeps_podEv, keeps_promote]

theorem keeps_dropPods (s : State) (sl : Nat) :
    (State.dropPods s sl).kept = s.kept := by
  unfold State.dropPods; simp only [kept_base, keeps_dropAccs, keeps_finish]

theorem keeps_makeRoom (s : State) (sl : Nat) (n : Nat) :
    (State.makeRoom s sl n).kept = s.kept := by
  unfold State.makeRoom; simp only [kept_base, keeps_modPod, keeps_podEv, keeps_syncPodUse]

theorem keeps_huskMove (s : State) (sl : Nat) (n : Nat) :
    (State.huskMove s sl n).1.kept = s.kept := by
  unfold State.huskMove; simp only [kept_base, keeps_modFetch]

theorem keeps_huskTick (s : State) :
    (State.huskTick s).kept = s.kept := by
  unfold State.huskTick; simp only [kept_base, keeps_huskMove, keeps_modAcc, keeps_offers]

theorem keeps_execFetchStart (sl : Nat) (s : State) :
    (after (execFetchStart sl s) s).kept = s.kept := by
  unfold execFetchStart; (repeat' (first
      | exact takeRun_keeps ‹_›
      | with_reducible refine kept_ite ?_ ?_
      | simp only [kept_base, keeps_bump, keeps_deferCmd, keeps_dropFetch, keeps_makeRoom, keeps_modFetch, keeps_modPod, keeps_offer, keeps_podEv,
        keeps_startHeads, keeps_syncPodUse]
      | with_reducible refine ite_kept ?_ ?_
      | split))

theorem keeps_execHuskKeyReady (sl : Nat) (h : Nat) (secT : Bool) (s : State) :
    (after (execHuskKeyReady sl h secT s) s).kept = s.kept := by
  unfold execHuskKeyReady; (repeat' (first
      | with_reducible refine kept_ite ?_ ?_
      | simp only [kept_base, keeps_hostRead, keeps_modFetch]
      | with_reducible refine ite_kept ?_ ?_
      | split))

theorem keeps_execFetchDone (sl : Nat) (h : Nat) (secT : Bool) (s : State) :
    (after (execFetchDone sl h secT s) s).kept = s.kept := by
  unfold execFetchDone; (repeat' (first
      | with_reducible refine kept_ite ?_ ?_
      | simp only [kept_base, keeps_bump, keeps_fillRun, keeps_modFetch, keeps_offer, keeps_podEv]
      | with_reducible refine ite_kept ?_ ?_
      | split))

theorem keeps_execPromotionDone (sl : Nat) (h : Nat) (s : State) :
    (after (execPromotionDone sl h s) s).kept = s.kept := by
  unfold execPromotionDone; simp only [kept_base, keeps_dropColls, keeps_dropPromo, keeps_finish, keeps_modPod, keeps_podEv]

theorem keeps_execShelfUe (u : Nat) (s : State) :
    (after (execShelfUe u s) s).kept = s.kept := by
  unfold execShelfUe; (repeat' (first
      | with_reducible refine kept_ite ?_ ?_
      | simp only [kept_base, keeps_bump, keeps_podEv]
      | with_reducible refine ite_kept ?_ ?_
      | split))

theorem keeps_execFactorEcc (sl : Nat) (q : Nat) (entry : Nat) (h : Nat) (s : State) :
    (after (execFactorEcc sl q entry h s) s).kept = s.kept := by
  unfold execFactorEcc; (repeat' (first
      | with_reducible refine kept_ite ?_ ?_
      | simp only [kept_base, keeps_bump, keeps_raiseFault]
      | with_reducible refine ite_kept ?_ ?_
      | split))

end Sys2Proof.Laws
end

