-- ==== Sys2Proof/Laws/KeepsFolds.lean ====
section
/-! SUPPORT. What the operations of Machine/FoldOps, Queues keep: the queue of commands, the fuses, the slices in force, the halt,
the count and LLY_HFP_READY.FW, each but where a lemma leaves one out. -/

set_option maxRecDepth 4000

namespace Sys2Proof.Laws

open Sys2Proof.Machine

theorem keeps_modPass (s : State) (p : Pass) (f : Pass → Pass) :
    (State.modPass s p f).kept = s.kept := by
  unfold State.modPass; simp only [kept_base]

theorem keeps_baseReads (s : State) (p : Pass) (tix : Nat) (taddr : Nat) (caddr : Nat) (vs : List Nat) :
    (State.baseReads s p tix taddr caddr vs).1.kept = s.kept := by
  unfold State.baseReads; simp only [keeps_readSpans]

theorem keeps_startGather (s : State) (p : Pass) :
    (State.startGather s p).kept = s.kept := by
  unfold State.startGather; (repeat' (first
      | with_reducible refine kept_ite ?_ ?_
      | simp only [keeps_baseReads, keeps_modPass]
      | with_reducible refine ite_kept ?_ ?_
      | split))

theorem keeps_copyRead (s : State) (p : Pass) :
    (State.copyRead s p).kept = s.kept := by
  unfold State.copyRead; (repeat' (first
      | with_reducible refine kept_ite ?_ ?_
      | simp only [keeps_baseReads, keeps_modPass]
      | with_reducible refine ite_kept ?_ ?_
      | split))

theorem keeps_reduceRead (s : State) (p : Pass) :
    (State.reduceRead s p).kept = s.kept := by
  unfold State.reduceRead; (repeat' (first
      | with_reducible refine kept_ite ?_ ?_
      | simp only [keeps_modPass, keeps_readSpans]
      | with_reducible refine ite_kept ?_ ?_
      | split))

theorem keeps_stepRead (s : State) (p : Pass) :
    (State.stepRead s p).kept = s.kept := by
  unfold State.stepRead; (repeat' (first
      | with_reducible refine kept_ite ?_ ?_
      | simp only [keeps_modPass, keeps_readSpans]
      | with_reducible refine ite_kept ?_ ?_
      | split))

theorem keeps_startReads (s : State) (p : Pass) :
    (State.startReads s p).kept = s.kept := by
  unfold State.startReads; (repeat' (first
      | with_reducible refine kept_ite ?_ ?_
      | simp only [keeps_copyRead, keeps_reduceRead, keeps_startGather, keeps_stepRead]
      | with_reducible refine ite_kept ?_ ?_
      | split))

theorem keeps_tryStart (s : State) (p : Pass) :
    (State.tryStart s p).kept = s.kept := by
  unfold State.tryStart; (repeat' (first
      | with_reducible refine kept_ite ?_ ?_
      | simp only [keeps_modPass, keeps_podEv, keeps_startReads]
      | with_reducible refine ite_kept ?_ ?_
      | split))

theorem keeps_tryJob (s : State) (j : PodJob) :
    (State.tryJob s j).kept = s.kept := by
  unfold State.tryJob; (repeat' (first
      | with_reducible refine kept_ite ?_ ?_
      | simp only [kept_base, keeps_drawn, keeps_finish, keeps_hostWrite, keeps_podEv, keeps_settlePods]
      | with_reducible refine ite_kept ?_ ?_
      | split))

theorem keeps_startWork (s : State) :
    (State.startWork s).kept = s.kept := by
  unfold State.startWork; simp only [kept_base, keeps_tryJob, keeps_tryStart]

theorem keeps_tileError (s : State) (rid : Nat) (cluster : Nat) :
    (State.tileError s rid cluster).kept = s.kept := by
  unfold State.tileError; simp only [keeps_emit]

theorem keeps_foldRequest (s : State) (rid : Nat) (cluster : Nat) (sl : Nat) (fdid : Nat) (tix : Nat) (variant : Nat) :
    (State.foldRequest s rid cluster sl fdid tix variant).kept = s.kept := by
  unfold State.foldRequest; simp only [keeps_raiseFault, keeps_tileError]

theorem keeps_tileAsk (s : State) (h : TileHold) :
    (State.tileAsk s h).kept = s.kept := by
  unfold State.tileAsk; (repeat' (first
      | with_reducible refine kept_ite ?_ ?_
      | simp only [kept_base, keeps_foldRequest, keeps_modPass, keeps_tileError]
      | with_reducible refine ite_kept ?_ ?_
      | split))

theorem keeps_releaseTiles (s : State) (sl : Nat) (fdid : Nat) :
    (State.releaseTiles s sl fdid).kept = s.kept := by
  unfold State.releaseTiles; simp only [kept_base, keeps_tileAsk]

theorem keeps_dropReads (s : State) (p : Pass) :
    (State.dropReads s p).kept = s.kept := by
  unfold State.dropReads; simp only [kept_base, keeps_dropColls, keeps_tileError]

theorem spend_keeps {s s' : State} {p : Pass} {c : Nat} (h : s.spend p c = some s') : s'.kept = s.kept := by
  unfold State.spend at h
  dsimp only at h
  split at h <;> cases h
  rfl

theorem keeps_endPass (s : State) (p : Pass) (status : Nat) (skipped : Bool) :
    (State.endPass s p status skipped).kept = s.kept := by
  unfold State.endPass; simp only [kept_base, keeps_dropReads, keeps_queueCpl, keeps_releaseTiles, keeps_settlePods, keeps_startWork]

theorem keeps_foldTurn (s : State) (sl : Nat) (q : Nat) (k : FoldKind) :
    (State.foldTurn s sl q k).kept = s.kept := by
  unfold State.foldTurn; (repeat' (first
      | with_reducible refine kept_ite ?_ ?_
      | simp only [kept_base, keeps_foldFail, keeps_modQueue, keeps_nextTurn, keeps_promote, keeps_startWork, keeps_touchPod, keeps_wantPod,
        keeps_wantTrain]
      | with_reducible refine ite_kept ?_ ?_
      | split
      | refine (foldl_kept _ (fun _ _ => ?_) _ _).trans ?_))

theorem keeps_execInFlight (sl : Nat) (q : Nat) (s : State) :
    (after (execInFlight sl q s) s).kept = s.kept := by
  unfold execInFlight; simp only [kept_base, keeps_foldTurn]

theorem keeps_execCopy (sl : Nat) (q : Nat) (s : State) :
    (after (execCopy sl q s) s).kept = s.kept := by
  unfold execCopy; simp only [kept_base, keeps_foldTurn]

theorem keeps_execStep (sl : Nat) (q : Nat) (s : State) :
    (after (execStep sl q s) s).kept = s.kept := by
  unfold execStep; simp only [kept_base, keeps_foldTurn]

theorem keeps_execReduce (sl : Nat) (q : Nat) (s : State) :
    (after (execReduce sl q s) s).kept = s.kept := by
  unfold execReduce; simp only [kept_base, keeps_foldTurn]

theorem keeps_injected (s : State) (site : Nat) (crc : Nat) :
    (State.injected s site crc).1.kept = s.kept := by
  unfold State.injected; simp only [kept_base, keeps_wr]

theorem keeps_tileFault (s : State) (site : Nat) (sl : Nat) (image : Nat) (tix : Nat) (fmt : Nat) (variant : Nat) (expected : Nat) (got : Nat)
    (f : FaultEv) :
    (State.tileFault s site sl image tix fmt variant expected got f).kept = s.kept := by
  unfold State.tileFault; simp only [keeps_bump, keeps_raiseFault, keeps_wr]

theorem keeps_hubCheck (s : State) (p : Pass) (tix : Nat) (tile : List Byte) (ent : List Byte) :
    (State.hubCheck s p tix tile ent).1.kept = s.kept := by
  unfold State.hubCheck; simp only [kept_base, keeps_injected, keeps_tileFault]

theorem keeps_setAcc (s : State) (sl : Nat) (u : Nat) (i : Nat) (vals : List Nat) :
    (State.setAcc s sl u i vals).kept = s.kept := by
  unfold State.setAcc; simp only [kept_base]

theorem keeps_setFbuf (s : State) (sl : Nat) (u : Nat) (off : Nat) (ws : List Nat) :
    (State.setFbuf s sl u off ws).kept = s.kept := by
  unfold State.setFbuf; simp only [kept_base]

theorem keeps_loadWindows (s : State) (p : Pass) (v : Nat) (tix : Nat) :
    (State.loadWindows s p v tix).kept = s.kept := by
  unfold State.loadWindows; (repeat' (first
      | with_reducible refine kept_ite ?_ ?_
      | simp only [keeps_setFbuf]
      | with_reducible refine ite_kept ?_ ?_
      | split))

theorem keeps_cycleMove (s : State) (u : Nat) (sl : Nat) (offered : Nat) :
    (State.cycleMove s u sl offered).kept = s.kept := by
  unfold State.cycleMove; simp only [kept_base, keeps_modAcc]

theorem keeps_foldTick (s : State) :
    (State.foldTick s).kept = s.kept := by
  unfold State.foldTick; simp only [kept_base, keeps_cycleMove, keeps_offers]

theorem keeps_execGatherEnd (sl : Nat) (q : Nat) (entry : Nat) (tix : Nat) (s : State) :
    (after (execGatherEnd sl q entry tix s) s).kept = s.kept := by
  unfold execGatherEnd; (repeat' (first
      | with_reducible refine kept_ite ?_ ?_
      | simp only [kept_base, keeps_modPass, keeps_startGather]
      | with_reducible refine ite_kept ?_ ?_
      | split))

theorem keeps_foldBase (s : State) (p : Pass) (tix : Nat) (ids : List Nat) (vs : List Nat) :
    (State.foldBase s p tix ids vs).1.kept = s.kept := by
  unfold State.foldBase; simp only [kept_base, keeps_dropColls, keeps_hubCheck, keeps_loadWindows, keeps_setAcc]

theorem keeps_emitVariant (s : State) (p : Pass) (g : Gather) :
    (State.emitVariant s p g).kept = s.kept := by
  unfold State.emitVariant; (repeat' (first
      | with_reducible refine (spend_keeps ‹_›).trans ?_
      | with_reducible refine kept_ite ?_ ?_
      | simp only [kept_base, keeps_emit, keeps_modPass, keeps_startGather]
      | with_reducible refine ite_kept ?_ ?_
      | split))

theorem keeps_passBad (s : State) (p : Pass) :
    (State.passBad s p).kept = s.kept := by
  unfold State.passBad; simp only [keeps_dropReads, keeps_modPass]

theorem keeps_gatherStep (s : State) (p : Pass) :
    (State.gatherStep s p).kept = s.kept := by
  unfold State.gatherStep; (repeat' (first
      | with_reducible refine fst_kept ‹_› ?_
      | with_reducible refine kept_ite ?_ ?_
      | simp only [keeps_dropColls, keeps_emitVariant, keeps_foldBase, keeps_modPass, keeps_passBad,
        keeps_startGather]
      | with_reducible refine ite_kept ?_ ?_
      | split))

theorem keeps_copyWrites (s : State) (p : Pass) (tix : Nat) (o : GatherOut) :
    (State.copyWrites s p tix o).kept = s.kept := by
  unfold State.copyWrites; simp only [keeps_modPass, keeps_writeSpans]

theorem keeps_settleWrites (s : State) (p : Pass) :
    (State.settleWrites s p).kept = s.kept := by
  unfold State.settleWrites; simp only [keeps_dropColls, keeps_modPass]

theorem keeps_copyStep (s : State) (p : Pass) :
    (State.copyStep s p).kept = s.kept := by
  unfold State.copyStep; (repeat' (first
      | with_reducible refine (spend_keeps ‹_›).trans ?_
      | with_reducible refine fst_kept ‹_› ?_
      | with_reducible refine kept_ite ?_ ?_
      | simp only [keeps_copyRead, keeps_copyWrites, keeps_foldBase, keeps_modPass, keeps_passBad, keeps_settleWrites]
      | with_reducible refine ite_kept ?_ ?_
      | split))

theorem keeps_reduceStep (s : State) (p : Pass) :
    (State.reduceStep s p).kept = s.kept := by
  unfold State.reduceStep; (repeat' (first
      | with_reducible refine (spend_keeps ‹_›).trans ?_
      | with_reducible refine kept_ite ?_ ?_
      | simp only [kept_base, keeps_dropColls, keeps_modPass, keeps_passBad, keeps_reduceRead, keeps_setAcc,
        keeps_settleWrites, keeps_writeSpans]
      | with_reducible refine ite_kept ?_ ?_
      | split))

theorem keeps_execTileFoldDone (sl : Nat) (q : Nat) (entry : Nat) (s : State) :
    (after (execTileFoldDone sl q entry s) s).kept = s.kept := by
  unfold execTileFoldDone; (repeat' (first
      | with_reducible refine kept_ite ?_ ?_
      | simp only [kept_base, keeps_copyStep, keeps_gatherStep, keeps_reduceStep]
      | with_reducible refine ite_kept ?_ ?_
      | split))

theorem keeps_execPassDone (sl : Nat) (q : Nat) (entry : Nat) (s : State) :
    (after (execPassDone sl q entry s) s).kept = s.kept := by
  unfold execPassDone; (repeat' (first
      | with_reducible refine kept_ite ?_ ?_
      | simp only [kept_base, keeps_endPass]
      | with_reducible refine ite_kept ?_ ?_
      | split))

theorem keeps_stepWrites (s : State) (p : Pass) (pod : Pod) :
    (State.stepWrites s p pod).1.kept = s.kept := by
  unfold State.stepWrites; simp only [kept_base, keeps_writeSpans]

theorem keeps_execStepDone (sl : Nat) (q : Nat) (entry : Nat) (s : State) :
    (after (execStepDone sl q entry s) s).kept = s.kept := by
  unfold execStepDone; (repeat' (first
      | with_reducible refine (spend_keeps ‹_›).trans ?_
      | with_reducible refine kept_ite ?_ ?_
      | simp only [kept_base, keeps_abortStep, keeps_dropColls, keeps_endPass, keeps_modPass, keeps_podEv,
        keeps_setAcc, keeps_setPod, keeps_stepRead, keeps_stepWrites]
      | with_reducible refine ite_kept ?_ ?_
      | split))

theorem keeps_stepEnd (s : State) (sl : Nat) (h : Nat) (args : List Nat) :
    (State.stepEnd s sl h args).kept = s.kept := by
  unfold State.stepEnd; (repeat' (first
      | with_reducible refine kept_ite ?_ ?_
      | simp only [keeps_endPass, keeps_modPod]
      | with_reducible refine ite_kept ?_ ?_
      | split))

theorem keeps_putOver (s : State) (j : PodJob) (status : Nat) (detail : Nat) (result : List Byte) :
    (State.putOver s j status detail result).kept = s.kept := by
  unfold State.putOver; simp only [kept_base, keeps_finish, keeps_settlePods, keeps_startWork]

theorem keeps_execHuskWriteDone (sl : Nat) (h : Nat) (s : State) :
    (after (execHuskWriteDone sl h s) s).kept = s.kept := by
  unfold execHuskWriteDone; (repeat' (first
      | with_reducible refine kept_ite ?_ ?_
      | simp only [kept_base, keeps_modPod, keeps_putOver]
      | with_reducible refine ite_kept ?_ ?_
      | split))

theorem keeps_rebaseEnd (s : State) (sl : Nat) (h : Nat) :
    (State.rebaseEnd s sl h).kept = s.kept := by
  unfold State.rebaseEnd; (repeat' (first
      | with_reducible refine kept_ite ?_ ?_
      | simp only [kept_base, keeps_drawn, keeps_finish, keeps_modPod, keeps_settlePods, keeps_startWork]
      | with_reducible refine ite_kept ?_ ?_
      | split))

theorem keeps_podApply (s : State) (sl : Nat) (h : Nat) (what : Nat) (args : List Nat) (cmd : Option CmdRef) :
    (State.podApply s sl h what args cmd).kept = s.kept := by
  unfold State.podApply; simp only [kept_base, keeps_podEffect, keeps_podEv, keeps_rebaseEnd, keeps_stepEnd]

theorem keeps_stopPositions (s : State) (ps : List Nat) (moved : Bool) :
    (State.stopPositions s ps moved).kept = s.kept := by
  unfold State.stopPositions; simp only [kept_base, keeps_bump, keeps_dropColls, keeps_modPass]

theorem keeps_resumeSuspended (s : State) :
    (State.resumeSuspended s).kept = s.kept := by
  unfold State.resumeSuspended
  dsimp only
  rw [foldl_kept _ (fun s p => ?_), keeps_startWork, foldl_kept _ (fun s p => ?_)]
  · split
    · simp only [keeps_modPass]
    · simp only [kept_base, keeps_endPass, keeps_abortStep, keeps_modPass]
  · simp only [kept_base, keeps_releaseTiles]

theorem keeps_execTileRead (rid : Nat) (cl : Nat) (taddr : Nat) (caddr : Nat) (img : Nat) (tix : Nat) (variant : Nat) (fmt : Nat) (fold : Nat)
    (s : State) :
    (after (execTileRead rid cl taddr caddr img tix variant fmt fold s) s).kept = s.kept := by
  unfold execTileRead; simp only [kept_base, keeps_emit, keeps_memAccess, keeps_serveTiles, keeps_tileAsk, keeps_tileError]

theorem keeps_execDieCheckReport (site : Nat) (cl : Nat) (engine : Nat) (q : Nat) (jgen : Nat) (taskId : Nat) (instr : Nat) (img : Nat)
    (tix : Nat) (variant : Nat) (fmt : Nat) (crc : Nat) (word : Nat) (ident : Bool) (tile : List Byte) (module' : Nat) (s : State) :
    (after (execDieCheckReport site cl engine q jgen taskId instr img tix variant fmt crc word ident tile module' s) s).kept = s.kept := by
  unfold execDieCheckReport; simp only [kept_base, keeps_injected, keeps_tileFault]

theorem keeps_modTask (s : State) (t : Machine.Task) (f : Machine.Task → Machine.Task) :
    (State.modTask s t f).kept = s.kept := by
  unfold State.modTask; simp only [kept_base]

theorem keeps_dropTask (s : State) (t : Machine.Task) :
    (State.dropTask s t).kept = s.kept := by
  unfold State.dropTask; simp only [kept_base]

theorem keeps_execRun (sl : Nat) (q : Nat) (s : State) :
    (after (execRun sl q s) s).kept = s.kept := by
  unfold execRun; (repeat' (first
      | with_reducible refine kept_ite ?_ ?_
      | simp only [kept_base, keeps_failTurn, keeps_nextTurn]
      | with_reducible refine ite_kept ?_ ?_
      | split))

theorem keeps_syncSet (s : State) (sl : Nat) (k : Nat) (v : Nat) :
    (State.syncSet s sl k v).kept = s.kept := by
  unfold State.syncSet; simp only [kept_base]

theorem keeps_execSyncCounterSet (sl : Nat) (k : Nat) (v : Nat) (s : State) :
    (after (execSyncCounterSet sl k v s) s).kept = s.kept := by
  unfold execSyncCounterSet; simp only [kept_base, keeps_syncSet]

theorem keeps_sigOf (s : State) (sl : Nat) (d : List Byte) :
    (State.sigOf s sl d).kept = s.kept := by
  unfold State.sigOf; simp only [kept_base, keeps_syncSet]

theorem keeps_syncSaveUse (s : State) (sl : Nat) :
    (State.syncSaveUse s sl).kept = s.kept := by
  unfold State.syncSaveUse; simp only [kept_base, keeps_modGrain]

theorem keeps_withdrawFrom (s : State) (p : Nat → Bool) :
    (State.withdrawFrom s p).kept = s.kept := by
  unfold State.withdrawFrom; simp only [kept_base, keeps_dropColls]

theorem keeps_withdrawReads (s : State) (n : Nat) :
    (State.withdrawReads s n).kept = s.kept := by
  unfold State.withdrawReads; simp only [keeps_withdrawFrom]

theorem keeps_startSave (s : State) (t : Machine.Task) (drain : Bool) :
    (State.startSave s t drain).kept = s.kept := by
  unfold State.startSave; (repeat' (first
      | with_reducible refine kept_ite ?_ ?_
      | simp only [kept_base, keeps_modCluster, keeps_modTask, keeps_syncSaveUse, keeps_withdrawFrom]
      | with_reducible refine ite_kept ?_ ?_
      | split))

theorem keeps_settleSuspend (s : State) (sl : Nat) (q : Nat) :
    (State.settleSuspend s sl q).kept = s.kept := by
  unfold State.settleSuspend; (repeat' (first
      | with_reducible refine kept_ite ?_ ?_
      | simp only [kept_base, keeps_finish, keeps_modQueue]
      | with_reducible refine ite_kept ?_ ?_
      | split))

theorem keeps_endUnrun (s : State) (t : Machine.Task) (status : Nat) :
    (State.endUnrun s t status).kept = s.kept := by
  unfold State.endUnrun; simp only [keeps_complete, keeps_dropTask]

theorem keeps_wake (s : State) (sl : Nat) :
    (State.wake s sl).kept = s.kept := by
  unfold State.wake; simp only [kept_base, keeps_endUnrun]

theorem keeps_place (s : State) (t : Machine.Task) (c : Nat) :
    (State.place s t c).kept = s.kept := by
  unfold State.place; simp only [kept_base, keeps_modCluster, keeps_modQueue, keeps_modTask]

theorem keeps_execPlacement (sl : Nat) (s : State) :
    (after (execPlacement sl s) s).kept = s.kept := by
  unfold execPlacement; (repeat' (first
      | with_reducible refine kept_ite ?_ ?_
      | simp only [kept_base, keeps_modTask, keeps_place, keeps_raise, keeps_wake]
      | with_reducible refine ite_kept ?_ ?_
      | split))

theorem keeps_execTaskEnd (c : Nat) (checkFailed : Bool) (s : State) :
    (after (execTaskEnd c checkFailed s) s).kept = s.kept := by
  unfold execTaskEnd; (repeat' (first
      | with_reducible refine kept_ite ?_ ?_
      | simp only [kept_base, keeps_complete, keeps_dropTask, keeps_modCluster, keeps_settleSuspend, keeps_sigOf]
      | with_reducible refine ite_kept ?_ ?_
      | split))

theorem keeps_execQuantumExpiry (c : Nat) (s : State) :
    (after (execQuantumExpiry c s) s).kept = s.kept := by
  unfold execQuantumExpiry; (repeat' (first
      | with_reducible refine kept_ite ?_ ?_
      | simp only [kept_base, keeps_startSave, keeps_wake]
      | with_reducible refine ite_kept ?_ ?_
      | split))

theorem keeps_preemptEffect (s : State) (sl : Nat) (q : Nat) (entry : Nat) (nums : List Nat) :
    (State.preemptEffect s sl q entry nums).kept = s.kept := by
  unfold State.preemptEffect; (repeat' (first
      | with_reducible refine kept_ite ?_ ?_
      | simp only [kept_base, keeps_modCluster, keeps_startSave]
      | with_reducible refine ite_kept ?_ ?_
      | split))

theorem keeps_saveTaskEffect (s : State) (sl : Nat) (q : Nat) (entry : Nat) :
    (State.saveTaskEffect s sl q entry).kept = s.kept := by
  unfold State.saveTaskEffect; (repeat' (first
      | with_reducible refine kept_ite ?_ ?_
      | simp only [keeps_startSave]
      | with_reducible refine ite_kept ?_ ?_
      | split))

theorem keeps_execSaveDone (c : Nat) (s : State) :
    (after (execSaveDone c s) s).kept = s.kept := by
  unfold execSaveDone; (repeat' (first
      | with_reducible refine kept_ite ?_ ?_
      | simp only [kept_base, keeps_modTask, keeps_settleSuspend]
      | with_reducible refine ite_kept ?_ ?_
      | split))

theorem keeps_execRestoreDone (c : Nat) (s : State) :
    (after (execRestoreDone c s) s).kept = s.kept := by
  unfold execRestoreDone; (repeat' (first
      | with_reducible refine kept_ite ?_ ?_
      | simp only [kept_base, keeps_modTask, keeps_syncSaveUse]
      | with_reducible refine ite_kept ?_ ?_
      | split))

theorem keeps_saveDeparting (s : State) (pairs : List (Nat × Nat)) :
    (State.saveDeparting s pairs).kept = s.kept := by
  unfold State.saveDeparting; (repeat' (first
      | with_reducible refine kept_ite ?_ ?_
      | simp only [keeps_modTask, keeps_startSave]
      | with_reducible refine ite_kept ?_ ?_
      | split
      | refine (foldl_kept _ (fun _ _ => ?_) _ _).trans ?_))

theorem keeps_savesEnded (s : State) (pairs : List (Nat × Nat)) :
    (State.savesEnded s pairs).kept = s.kept := by
  unfold State.savesEnded; simp only [kept_base, keeps_modTask, keeps_settleSuspend]

theorem keeps_freeDrained (s : State) :
    (State.freeDrained s).kept = s.kept := by
  unfold State.freeDrained; simp only [kept_base]

theorem keeps_restoreDrained (s : State) (b : Bank) :
    (State.restoreDrained s b).kept = s.kept := by
  unfold State.restoreDrained; simp only [kept_base, keeps_modCluster, keeps_modTask, keeps_resumeSuspended]

theorem keeps_cancelWaiting (s : State) (sl : Nat) (q : Nat) (images : Bool) :
    (State.cancelWaiting s sl q images).kept = s.kept := by
  unfold State.cancelWaiting; (repeat' (first
      | with_reducible refine kept_ite ?_ ?_
      | simp only [kept_base, keeps_cancelEntry, keeps_dropAccs, keeps_dropReads, keeps_modQueue, keeps_releaseTiles,
        keeps_settlePods, keeps_settleSuspend, keeps_startWork, keeps_syncSaveUse]
      | with_reducible refine ite_kept ?_ ?_
      | split))

theorem newQueue_keeps {s s' : State} {sl k : Nat} {args : List Nat} (h : s.newQueue sl args = some (s', k)) : s'.kept = s.kept := by
  revert h
  unfold State.newQueue
  dsimp only
  split <;> intro h
  · cases h
  · simp only [Option.some.injEq, Prod.mk.injEq] at h; simp only [← h.1, kept_base]

theorem keeps_queueEffect (s : State) (sl : Nat) (q : Nat) (what : Nat) (args : List Nat) (cmd : Option CmdRef) :
    (State.queueEffect s sl q what args cmd).kept = s.kept := by
  unfold State.queueEffect; (repeat' (first
      | exact newQueue_keeps ‹_›
      | with_reducible refine kept_ite ?_ ?_
      | simp only [kept_base, keeps_cancelWaiting, keeps_finish, keeps_modQueue, keeps_raise, keeps_reapQueue, keeps_settleSuspend]
      | with_reducible refine ite_kept ?_ ?_
      | split))

theorem keeps_endDma (s : State) (d : Dma) (status : Nat) :
    (State.endDma s d status).kept = s.kept := by
  unfold State.endDma; simp only [kept_base, keeps_complete, keeps_dropAccs, keeps_dropColls, keeps_readTurn]

theorem keeps_stopQueues (s : State) (sl : Nat) (gen : Nat) :
    (State.stopQueues s sl gen).kept = s.kept := by
  unfold State.stopQueues; simp only [kept_base, keeps_cancelWaiting, keeps_endDma, keeps_modQueue, keeps_reapQueue]

theorem keeps_cancelSlice (s : State) (sl : Nat) (status : Nat) (detail : Nat) :
    (State.cancelSlice s sl status detail).kept = s.kept := by
  unfold State.cancelSlice; simp only [kept_base, keeps_dropAccs, keeps_dropColls, keeps_dropReads, keeps_finish, keeps_modCluster,
        keeps_syncSaveUse]

theorem keeps_endJoin (s : State) (j : JoinQ) (status : Nat) (aux : Nat) :
    (State.endJoin s j status aux).kept = s.kept := by
  unfold State.endJoin; (repeat' (first
      | with_reducible refine kept_ite ?_ ?_
      | simp only [kept_base, keeps_complete, keeps_modQueue, keeps_nextTurn, keeps_sigOf]
      | with_reducible refine ite_kept ?_ ?_
      | split))

theorem keeps_joinEffect (s : State) (sl : Nat) (stamp : Nat) (dec : List (Nat × Nat × List Nat)) :
    (State.joinEffect s sl stamp dec).kept = s.kept := by
  unfold State.joinEffect; (repeat' (first
      | with_reducible refine kept_ite ?_ ?_
      | simp only [kept_base, keeps_endJoin, keeps_hfpEvt, keeps_hostWrite, keeps_modGrain, keeps_stale]
      | with_reducible refine ite_kept ?_ ?_
      | split
      | refine (foldl_kept _ (fun _ _ => ?_) _ _).trans ?_))

theorem keeps_glistAnswer (s : State) (sl : Nat) (q : Nat) (entry : Nat) (ok : Bool) :
    (State.glistAnswer s sl q entry ok).kept = s.kept := by
  unfold State.glistAnswer; (repeat' (first
      | with_reducible refine kept_ite ?_ ?_
      | simp only [keeps_endJoin, keeps_raise]
      | with_reducible refine ite_kept ?_ ?_
      | split))

theorem keeps_giveBackEffect (s : State) (sl : Nat) (q : Nat) (entry : Nat) (grains : List Nat) :
    (State.giveBackEffect s sl q entry grains).kept = s.kept := by
  unfold State.giveBackEffect; (repeat' (first
      | with_reducible refine kept_ite ?_ ?_
      | simp only [kept_base, keeps_endJoin, keeps_modGrain]
      | with_reducible refine ite_kept ?_ ?_
      | split))

theorem keeps_leaveEffect (s : State) (sl : Nat) (q : Nat) (entry : Nat) (d : List Byte) (grains : List Nat) :
    (State.leaveEffect s sl q entry d grains).kept = s.kept := by
  unfold State.leaveEffect; simp only [kept_base, keeps_complete, keeps_modGrain]

theorem keeps_execJoin (sl : Nat) (q : Nat) (s : State) :
    (after (execJoin sl q s) s).kept = s.kept := by
  unfold execJoin; (repeat' (first
      | with_reducible refine kept_ite ?_ ?_
      | simp only [kept_base, keeps_failTurn, keeps_modQueue, keeps_raise]
      | with_reducible refine ite_kept ?_ ?_
      | split))

theorem keeps_execLeave (sl : Nat) (q : Nat) (s : State) :
    (after (execLeave sl q s) s).kept = s.kept := by
  unfold execLeave; (repeat' (first
      | with_reducible refine kept_ite ?_ ?_
      | simp only [kept_base, keeps_failTurn, keeps_nextTurn, keeps_raise]
      | with_reducible refine ite_kept ?_ ?_
      | split))

theorem keeps_startDma (s : State) (sl : Nat) (q : Nat) (x : Queue) (d : List Byte) (ids : List (Nat × Nat)) :
    (State.startDma s sl q x d ids).kept = s.kept := by
  unfold State.startDma; simp only [kept_base, keeps_nextTurn]

theorem keeps_modDma (s : State) (m : Dma) (f : Dma → Dma) :
    (State.modDma s m f).kept = s.kept := by
  unfold State.modDma; simp only [kept_base]

theorem keeps_dmaTurn (s : State) (sl : Nat) (q : Nat) (op : Nat) :
    (State.dmaTurn s sl q op).2.kept = s.kept := by
  unfold State.dmaTurn; (repeat' (first
      | with_reducible refine kept_ite ?_ ?_
      | simp only [keeps_failTurn]
      | with_reducible refine ite_kept ?_ ?_
      | split))

theorem dmaTurn_keeps {s s' : State} {sl q op : Nat} {o : Option (Queue × List Byte)} (h : s.dmaTurn sl q op = (o, s')) :
    s'.kept = s.kept := by
  have k := keeps_dmaTurn s sl q op
  rw [h] at k
  exact k

theorem keeps_execToDevice (sl : Nat) (q : Nat) (s : State) :
    (after (execToDevice sl q s) s).kept = s.kept := by
  unfold execToDevice; (repeat' (first
      | with_reducible refine snd_kept ‹_› ?_
      | with_reducible refine kept_ite ?_ ?_
      | simp only [kept_base, keeps_dmaTurn, keeps_hostRead, keeps_startDma]
      | with_reducible refine ite_kept ?_ ?_
      | split))

theorem keeps_execToHost (sl : Nat) (q : Nat) (s : State) :
    (after (execToHost sl q s) s).kept = s.kept := by
  unfold execToHost; (repeat' (first
      | with_reducible refine snd_kept ‹_› ?_
      | with_reducible refine kept_ite ?_ ?_
      | simp only [kept_base, keeps_dmaTurn, keeps_readSpans, keeps_startDma]
      | with_reducible refine ite_kept ?_ ?_
      | split))

theorem keeps_dmaSettle (s : State) (m : Dma) :
    (State.dmaSettle s m).kept = s.kept := by
  unfold State.dmaSettle; simp only [kept_base, keeps_dropAccs, keeps_dropColls, keeps_modDma]

theorem keeps_dmaWrite (s : State) (m : Dma) (data : List Byte) (upTo : Nat) :
    (State.dmaWrite s m data upTo).kept = s.kept := by
  unfold State.dmaWrite; simp only [kept_base, keeps_dmaSettle, keeps_memAccess, keeps_modDma]

theorem keeps_dmaSend (s : State) (m : Dma) :
    (State.dmaSend s m).kept = s.kept := by
  unfold State.dmaSend; simp only [kept_base, keeps_dropColls, keeps_hostWrite, keeps_modDma]

theorem keeps_execDmaDone (sl : Nat) (q : Nat) (s : State) :
    (after (execDmaDone sl q s) s).kept = s.kept := by
  unfold execDmaDone; (repeat' (first
      | with_reducible refine kept_ite ?_ ?_
      | simp only [kept_base, keeps_dmaSend, keeps_dmaSettle, keeps_endDma]
      | with_reducible refine ite_kept ?_ ?_
      | split))

theorem keeps_dmaTick (s : State) :
    (State.dmaTick s).kept = s.kept := by
  unfold State.dmaTick; simp only [kept_base, keeps_dmaSend]

theorem keeps_dmaBudgets (s : State) :
    (State.dmaBudgets s).kept = s.kept := by
  unfold State.dmaBudgets; (repeat' (first
      | with_reducible refine kept_ite ?_ ?_
      | simp only [kept_base]
      | with_reducible refine ite_kept ?_ ?_
      | split
      | refine (foldl_kept _ (fun _ _ => ?_) _ _).trans ?_))

end Sys2Proof.Laws
end

