-- ==== Sys2Proof/Laws/KeepsHost.lean ====
section
/-! SUPPORT. What the operations of Machine/Mailbox, HostFn, Fuses, ImageBind keep: the queue of commands, the fuses, the slices in force, the halt,
the count and LLY_HFP_READY.FW, each but where a lemma leaves one out. -/

set_option maxRecDepth 4000

namespace Sys2Proof.Laws

open Sys2Proof.Machine

theorem keeps_mbPump (s : State) (f : Nat) :
    (State.mbPump s f).kept = s.kept := by
  unfold State.mbPump; simp only [kept_base, keeps_hostRead, keeps_modMb]

theorem keeps_stopRings (s : State) (f : Nat) :
    (State.stopRings s f).kept = s.kept := by
  unfold State.stopRings; simp only [kept_base, keeps_dropAccs, keeps_modFn, keeps_modMb, keeps_wf]

theorem keeps_writeMbxCfg (s : State) (f : Nat) (v : Nat) :
    (State.writeMbxCfg s f v).kept = s.kept := by
  unfold State.writeMbxCfg; simp only [kept_base, keeps_modMb, keeps_stopRings, keeps_wf, keeps_wr]

theorem keeps_execMbxCfgWrite (f : Nat) (v : Nat) (s : State) :
    (after (execMbxCfgWrite f v s) s).kept = s.kept := by
  unfold execMbxCfgWrite; simp only [kept_base, keeps_gatedFn, keeps_writeMbxCfg]

theorem keeps_tailEffect (s : State) (f : Nat) (tail : Nat) (stamp : Nat) :
    (State.tailEffect s f tail stamp).kept = s.kept := by
  unfold State.tailEffect; simp only [kept_base, keeps_mbPump, keeps_modMb]

theorem keeps_writeSqTail (s : State) (f : Nat) (v : Nat) :
    (State.writeSqTail s f v).kept = s.kept := by
  unfold State.writeSqTail; simp only [kept_base, keeps_raise, keeps_tailEffect, keeps_wf]

theorem keeps_writeCqHead (s : State) (f : Nat) (v : Nat) :
    (State.writeCqHead s f v).kept = s.kept := by
  unfold State.writeCqHead; simp only [kept_base, keeps_modMb, keeps_wr]

theorem keeps_execMbxCqHeadWrite (f : Nat) (v : Nat) (s : State) :
    (after (execMbxCqHeadWrite f v s) s).kept = s.kept := by
  unfold execMbxCqHeadWrite; simp only [kept_base, keeps_gatedFn, keeps_writeCqHead]

theorem keeps_putDdata (s : State) (d : List Byte) :
    (State.putDdata s d).kept = s.kept := by
  unfold State.putDdata; simp only [kept_base, keeps_wr]

theorem keeps_modCmd (s : State) (r : CmdRef) (g : ExecCmd → ExecCmd) :
    (State.modCmd s r g).kept = s.kept := by
  unfold State.modCmd; simp only [keeps_modMb]

theorem keeps_fetchCmd (s : State) (e : ExecCmd) :
    (State.fetchCmd s e).kept = s.kept := by
  unfold State.fetchCmd; (repeat' (first
      | with_reducible refine kept_ite ?_ ?_
      | simp only [keeps_hostRead, keeps_modCmd]
      | with_reducible refine ite_kept ?_ ?_
      | split))

theorem keeps_mbSettle (s : State) (f : Nat) :
    (State.mbSettle s f).kept = s.kept := by
  unfold State.mbSettle; (repeat' (first
      | with_reducible refine kept_ite ?_ ?_
      | simp only [keeps_fetchCmd, keeps_mbPump]
      | with_reducible refine ite_kept ?_ ?_
      | split))

theorem keeps_takeCmd (s : State) (f : Nat) (direct : Bool) (stamp : Nat) (entry : Option (List Byte)) :
    (State.takeCmd s f direct stamp entry).kept = s.kept := by
  unfold State.takeCmd; simp only [kept_base, keeps_fetchCmd, keeps_modMb]

theorem keeps_ringAnswer (s : State) (f : Nat) (entry : Nat) (d : Option (List Byte)) :
    (State.ringAnswer s f entry d).kept = s.kept := by
  unfold State.ringAnswer; simp only [kept_base, keeps_mbPump, keeps_modMb, keeps_takeCmd]

theorem keeps_goEffect (s : State) (c : List Byte) (stamp : Nat) :
    (State.goEffect s c stamp).kept = s.kept := by
  unfold State.goEffect; simp only [keeps_modMb, keeps_takeCmd]

theorem keeps_writeGo (s : State) :
    (State.writeGo s).kept = s.kept := by
  unfold State.writeGo; simp only [kept_base, keeps_goEffect, keeps_modMb, keeps_raise]

theorem keeps_execDctlGo (s : State) :
    (after (execDctlGo s) s).kept = s.kept := by
  unfold execDctlGo; simp only [kept_base, keeps_gated, keeps_writeGo]

theorem keeps_startCmd (s : State) (e : ExecCmd) :
    (State.startCmd s e).kept = s.kept := by
  unfold State.startCmd; simp only [keeps_modCmd]

theorem keeps_cmdOut (s : State) (e : ExecCmd) (dst : Nat) (off : Nat) (d : List Byte) (result : List Byte) :
    (State.cmdOut s e dst off d result).kept = s.kept := by
  unfold State.cmdOut; simp only [kept_base, keeps_finish, keeps_hostWrite, keeps_modCmd, keeps_putDdata, keeps_stale]

theorem keeps_releaseCapture (s : State) (n : Nat) (fseq : Nat) :
    (State.releaseCapture s n fseq).kept = s.kept := by
  unfold State.releaseCapture; simp only [keeps_modFsl, keeps_syncSaveUse]

theorem keeps_outAnswer (s : State) (f : Nat) (id : Nat) (off : Nat) (ok : Bool) :
    (State.outAnswer s f id off ok).kept = s.kept := by
  unfold State.outAnswer; (repeat' (first
      | with_reducible refine kept_ite ?_ ?_
      | simp only [kept_base, keeps_finish, keeps_releaseCapture]
      | with_reducible refine ite_kept ?_ ?_
      | split))

theorem keeps_dataAnswer (s : State) (f : Nat) (id : Nat) (part : Nat) (d : Option (List Byte)) :
    (State.dataAnswer s f id part d).kept = s.kept := by
  unfold State.dataAnswer; (repeat' (first
      | with_reducible refine kept_ite ?_ ?_
      | simp only [keeps_finish, keeps_hostRead, keeps_modCmd]
      | with_reducible refine ite_kept ?_ ?_
      | split))

theorem keeps_dropCmd (s : State) (r : CmdRef) :
    (State.dropCmd s r).kept = s.kept := by
  unfold State.dropCmd; simp only [keeps_mbSettle, keeps_modMb]

theorem keeps_execMbxCompletionWrite (f : Nat) (err : Bool) (s : State) :
    (after (execMbxCompletionWrite f err s) s).kept = s.kept := by
  unfold execMbxCompletionWrite; (repeat' (first
      | with_reducible refine kept_ite ?_ ?_
      | simp only [kept_base, keeps_bump, keeps_dropCmd, keeps_emit, keeps_hfpEvt, keeps_irq, keeps_modCmd, keeps_modMb, keeps_stale, keeps_wr]
      | with_reducible refine ite_kept ?_ ?_
      | split))

theorem keeps_orphanMode (s : State) (on : Bool) (stamp : Nat) :
    (State.orphanMode s on stamp).kept = s.kept := by
  unfold State.orphanMode; simp only [keeps_modMb, keeps_offer]

theorem keeps_leaseEnd (s : State) (f : Nat) (what : Nat) (stamp : Nat) :
    (State.leaseEnd s f what stamp).kept = s.kept := by
  unfold State.leaseEnd; simp only [kept_base, keeps_modMb, keeps_orphanMode]

theorem keeps_execLeaseExpiry (f : Nat) (s : State) :
    (after (execLeaseExpiry f s) s).kept = s.kept := by
  unfold execLeaseExpiry; simp only [kept_base, keeps_raise]

theorem keeps_mbEv (s : State) (f : Nat) (what : Nat) (args : List Nat) (cmd : Option CmdRef) :
    (State.mbEv s f what args cmd).kept = s.kept := by
  unfold State.mbEv; simp only [keeps_raise]

theorem judge_keeps {s t : State} {e : ExecCmd} {l : List (Bool × Nat × Nat)} (h : s.judge e l = some t) : t.kept = s.kept := by
  unfold State.judge at h
  simp only [Option.map_eq_some_iff] at h
  obtain ⟨_, _, h⟩ := h
  simp only [← h, keeps_finish]

theorem keeps_execNegotiate (f : Nat) (s : State) :
    (after (execNegotiate f s) s).kept = s.kept := by
  unfold execNegotiate; (repeat' (first
      | exact (judge_keeps ‹_›).trans (keeps_startCmd ..)
      | with_reducible refine kept_ite ?_ ?_
      | simp only [kept_base, keeps_mbEv, keeps_startCmd]
      | with_reducible refine ite_kept ?_ ?_
      | split))

theorem keeps_execAttach (f : Nat) (s : State) :
    (after (execAttach f s) s).kept = s.kept := by
  unfold execAttach; (repeat' (first
      | exact (judge_keeps ‹_›).trans (keeps_startCmd ..)
      | with_reducible refine kept_ite ?_ ?_
      | simp only [kept_base, keeps_mbEv, keeps_startCmd]
      | with_reducible refine ite_kept ?_ ?_
      | split))

theorem keeps_execLease (f : Nat) (s : State) :
    (after (execLease f s) s).kept = s.kept := by
  unfold execLease; (repeat' (first
      | with_reducible refine kept_ite ?_ ?_
      | simp only [kept_base, keeps_finish, keeps_modCmd, keeps_modMb]
      | with_reducible refine ite_kept ?_ ?_
      | split))

theorem keeps_execDetach (f : Nat) (s : State) :
    (after (execDetach f s) s).kept = s.kept := by
  unfold execDetach; (repeat' (first
      | with_reducible refine kept_ite ?_ ?_
      | simp only [kept_base, keeps_mbEv, keeps_startCmd]
      | with_reducible refine ite_kept ?_ ?_
      | split))

theorem keeps_failHusks (s : State) (gone : List HostAcc) (gen : Nat) :
    (State.failHusks s gone gen).kept = s.kept := by
  unfold State.failHusks
  refine foldl_kept _ (fun s a => ?_) _ _
  (repeat' split) <;> simp only [keeps_finish, keeps_modFetch, keeps_podEv, keeps_putOver]

theorem keeps_advanceGen (s : State) (f : Nat) (keepRings : Bool) :
    (State.advanceGen s f keepRings).kept = s.kept := by
  unfold State.advanceGen; (repeat' (first
      | with_reducible refine kept_ite ?_ ?_
      | simp only [kept_base, keeps_dropAccs, keeps_failHusks, keeps_modFn, keeps_modMb, keeps_stopQueues, keeps_stopRings]
      | with_reducible refine ite_kept ?_ ?_
      | split))

theorem keeps_tdispError (s : State) (f : Nat) :
    (State.tdispError s f).kept = s.kept := by
  unfold State.tdispError; simp only [keeps_modFn]

theorem keeps_advanceGens (s : State) (fns : List Nat) (err : Bool) :
    (State.advanceGens s fns err).kept = s.kept := by
  unfold State.advanceGens; simp only [kept_base, keeps_advanceGen, keeps_tdispError]

theorem keeps_raiseGens (s : State) (fns : List Nat) :
    (State.raiseGens s fns).kept = s.kept := by
  unfold State.raiseGens; simp only [kept_base, keeps_raise]

theorem keeps_sessionEffect (s : State) (f : Nat) (what : Nat) (args : List Nat) (cmd : Option CmdRef) (stamp : Nat) :
    (State.sessionEffect s f what args cmd stamp).kept = s.kept := by
  unfold State.sessionEffect; (repeat' (first
      | with_reducible refine kept_ite ?_ ?_
      | simp only [kept_base, keeps_advanceGen, keeps_finish, keeps_leaseEnd, keeps_modCmd, keeps_modMb, keeps_orphanMode]
      | with_reducible refine ite_kept ?_ ?_
      | split))

theorem keeps_gatedCfg (s : State) (code : Nat) (a : Nat) (v : Nat) (act : State → State) (hact : ∀ s, (act s).kept = s.kept) :
    (State.gatedCfg s code a v act).kept = s.kept := by
  unfold State.gatedCfg; simp only [kept_base, keeps_holdWrite, keeps_wakeUp, hact]

theorem keeps_tdispErrors (s : State) :
    (State.tdispErrors s).kept = s.kept := by
  unfold State.tdispErrors; simp only [kept_base, keeps_tdispError]

theorem keeps_setVfs (s : State) (en : Bool) (num : Nat) :
    (State.setVfs s en num).kept = s.kept := by
  unfold State.setVfs; simp only [kept_base, keeps_pumpHost, keeps_raiseGens, keeps_tdispErrors]

theorem keeps_execVfEnable (en : Bool) (num : Nat) (s : State) :
    (after (execVfEnable en num s) s).kept = s.kept := by
  unfold execVfEnable; simp only [kept_base, keeps_gatedCfg, keeps_setVfs]

theorem keeps_sendPending (s : State) (f : Nat) (v : Nat) :
    (State.sendPending s f v).kept = s.kept := by
  unfold State.sendPending; simp only [kept_base, keeps_emit, keeps_modFn, keeps_stale]

theorem keeps_writeConfig (s : State) (f : Nat) (r : Nat) (v : Nat) :
    (State.writeConfig s f r v).kept = s.kept := by
  unfold State.writeConfig; simp only [kept_base, keeps_modFn, keeps_raiseGens, keeps_sendPending, keeps_tdispError]

theorem keeps_execConfigWrite (f : Nat) (r : Nat) (v : Nat) (s : State) :
    (after (execConfigWrite f r v s) s).kept = s.kept := by
  unfold execConfigWrite; simp only [kept_base, keeps_gatedCfg, keeps_writeConfig]

theorem keeps_maskVector (s : State) (f : Nat) (v : Nat) (mask : Bool) :
    (State.maskVector s f v mask).kept = s.kept := by
  unfold State.maskVector; simp only [kept_base, keeps_modFn, keeps_sendPending]

theorem keeps_execMsixUnmask (f : Nat) (v : Nat) (mask : Bool) (s : State) :
    (after (execMsixUnmask f v mask s) s).kept = s.kept := by
  unfold execMsixUnmask; simp only [kept_base, keeps_gatedCfg, keeps_maskVector]

theorem keeps_flr (s : State) (v : Nat) :
    (State.flr s v).kept = s.kept := by
  unfold State.flr; (repeat' (first
      | with_reducible refine kept_ite ?_ ?_
      | simp only [keeps_emit, keeps_modFn, keeps_raise, keeps_raiseGens]
      | with_reducible refine ite_kept ?_ ?_
      | split))

theorem keeps_execFlr (v : Nat) (s : State) :
    (after (execFlr v s) s).kept = s.kept := by
  unfold execFlr; simp only [kept_base, keeps_flr, keeps_gatedCfg]

theorem keeps_pf0Flr (s : State) :
    (State.pf0Flr s).kept = s.kept := by
  unfold State.pf0Flr; simp only [kept_base, keeps_emit, keeps_modFn, keeps_raiseGens, keeps_tdispErrors, keeps_wr]

theorem keeps_execPf0Flr (s : State) :
    (after (execPf0Flr s) s).kept = s.kept := by
  unfold execPf0Flr; simp only [kept_base, keeps_gatedCfg, keeps_pf0Flr]

theorem keeps_execDoeDiscovery (index : Nat) (len : Nat) (s : State) :
    (after (execDoeDiscovery index len s) s).kept = s.kept := by
  unfold execDoeDiscovery; simp only [kept_base, keeps_emit]

theorem keeps_execCfgReady (s : State) :
    (after (execCfgReady s) s).kept = s.kept := by
  unfold execCfgReady; simp only [kept_base]

theorem keeps_burnBit (s : State) (r : Nat) (b : Nat) :
    (State.burnBit s r b).kept.pending = s.kept.pending ∧ (State.burnBit s r b).kept.defs = s.kept.defs ∧
      (State.burnBit s r b).kept.halted = s.kept.halted ∧ (State.burnBit s r b).kept.tick = s.kept.tick ∧
      (State.burnBit s r b).kept.fwReady = s.kept.fwReady := by
  unfold State.burnBit; refine ⟨?_, ?_, ?_, ?_, ?_⟩ <;> simp only [kept_base, kept_parts]

theorem keeps_senseLc (s : State) :
    (State.senseLc s).kept = s.kept := by
  unfold State.senseLc; simp only [kept_base]

theorem keeps_deriveIdentity (s : State) :
    (State.deriveIdentity s).kept = s.kept := by
  unfold State.deriveIdentity; simp only [kept_base, keeps_drawn]

theorem keeps_deriveAlias (s : State) :
    (State.deriveAlias s).kept = s.kept := by
  unfold State.deriveAlias; simp only [kept_base, keeps_drawn]

theorem keeps_bindFail (s : State) (status : Nat) (detail : Nat) :
    (State.bindFail s status detail).kept = s.kept := by
  unfold State.bindFail; (repeat' (first
      | with_reducible refine kept_ite ?_ ?_
      | simp only [kept_base, keeps_dropAccs, keeps_finish, keeps_setBank]
      | with_reducible refine ite_kept ?_ ?_
      | split))

theorem keeps_armBind (s : State) (b : Nat) (recs : List GrainChg) (seals : List Nat) (cmd : Option CmdRef) :
    (State.armBind s b recs seals cmd).kept = s.kept := by
  unfold State.armBind; simp only [kept_base, keeps_setBank]

theorem keeps_bindGrains (s : State) :
    (State.bindGrains s).kept = s.kept := by
  unfold State.bindGrains; (repeat' (first
      | with_reducible refine kept_ite ?_ ?_
      | simp only [kept_base, keeps_armBind, keeps_bindFail]
      | with_reducible refine ite_kept ?_ ?_
      | split))

theorem keeps_readRecord (s : State) :
    (State.readRecord s).kept = s.kept := by
  unfold State.readRecord; (repeat' (first
      | with_reducible refine kept_ite ?_ ?_
      | simp only [keeps_hostRead]
      | with_reducible refine ite_kept ?_ ?_
      | split))

theorem keeps_writeRecord (s : State) (b : Bind) (g : Nat) (c : Nat) (plain : List Byte) :
    (State.writeRecord s b g c plain).1.kept = s.kept := by
  unfold State.writeRecord; (repeat' (first
      | with_reducible refine kept_ite ?_ ?_
      | simp only [keeps_decideRequest]
      | with_reducible refine ite_kept ?_ ?_
      | split))

theorem keeps_recordIn (s : State) (g : Nat) (d : Option (List Byte)) :
    (State.recordIn s g d).kept = s.kept := by
  unfold State.recordIn; (repeat' (first
      | with_reducible refine kept_ite ?_ ?_
      | simp only [kept_base, keeps_bindFail, keeps_readRecord, keeps_writeRecord]
      | with_reducible refine ite_kept ?_ ?_
      | split))

theorem keeps_bindCommitted (s : State) (k : Bank) (t : Nat) :
    (State.bindCommitted s k t).kept = s.kept := by
  unfold State.bindCommitted; (repeat' (first
      | with_reducible refine kept_ite ?_ ?_
      | simp only [kept_base, keeps_finish, keeps_readRecord]
      | with_reducible refine ite_kept ?_ ?_
      | split))

theorem keeps_pumpBind (s : State) :
    (State.pumpBind s).kept = s.kept := by
  unfold State.pumpBind; (repeat' (first
      | with_reducible refine kept_ite ?_ ?_
      | simp only [keeps_armBind]
      | with_reducible refine ite_kept ?_ ?_
      | split))

end Sys2Proof.Laws
end

