-- ==== Sys2Proof/Laws/KeepsChuck.lean ====
section
/-! SUPPORT. What the operations of Machine/Chuck, Lifecycle keep: the queue of commands, the fuses, the slices in force, the halt,
the count and LLY_HFP_READY.FW, each but where a lemma leaves one out. -/

set_option maxRecDepth 4000

namespace Sys2Proof.Laws

open Sys2Proof.Machine

theorem keeps_applyRec (s : State) (b : Bank) (r : GrainChg) :
    (State.applyRec s b r).kept = s.kept := by
  unfold State.applyRec; (repeat' (first
      | with_reducible refine kept_ite ?_ ?_
      | simp only [kept_base, keeps_modGrain]
      | with_reducible refine ite_kept ?_ ?_
      | split))

theorem keeps_applyBank (s : State) (b : Bank) :
    (State.applyBank s b).kept.pending = s.kept.pending ∧ (State.applyBank s b).kept.otp = s.kept.otp ∧
      (State.applyBank s b).kept.halted = s.kept.halted ∧ (State.applyBank s b).kept.tick = s.kept.tick ∧
      (State.applyBank s b).kept.fwReady = s.kept.fwReady := by
  unfold State.applyBank; refine ⟨?_, ?_, ?_, ?_, ?_⟩ <;> simp only [kept_base, kept_parts, keeps_applyRec, keeps_modGrain, keeps_wr]

theorem keeps_chkResult (s : State) (status : Nat) (num : Nat) (sl : Nat) (grain : Nat) :
    (State.chkResult s status num sl grain).kept = s.kept := by
  unfold State.chkResult; simp only [keeps_irq, keeps_wr]

theorem keeps_loading (s : State) (f : Bank → Bank) :
    (State.loading s f).kept = s.kept := by
  unfold State.loading; simp only [keeps_setBank]

theorem keeps_stageReg (s : State) (a : Nat) (v : Nat) :
    (State.stageReg s a v).kept = s.kept := by
  unfold State.stageReg; simp only [keeps_loading]

theorem keeps_writeChkMode (s : State) (v : Nat) :
    (State.writeChkMode s v).kept = s.kept := by
  unfold State.writeChkMode; simp only [kept_base, keeps_stageReg, keeps_wf]

theorem keeps_askCheck (s : State) (b : Nat) (cmd : Option CmdRef) :
    (State.askCheck s b cmd).kept = s.kept := by
  unfold State.askCheck; simp only [kept_base, keeps_finish, keeps_setBank]

theorem keeps_endCheck (s : State) (b : Nat) :
    (State.endCheck s b).kept = s.kept := by
  unfold State.endCheck; (repeat' (first
      | with_reducible refine kept_ite ?_ ?_
      | simp only [keeps_chkResult, keeps_finish, keeps_setBank]
      | with_reducible refine ite_kept ?_ ?_
      | split))

theorem keeps_settleCheck (s : State) (b : Nat) :
    (State.settleCheck s b).kept = s.kept := by
  unfold State.settleCheck; simp only [kept_base, keeps_endCheck]

theorem keeps_startKey (s : State) (b : Nat) :
    (State.startKey s b).kept = s.kept := by
  unfold State.startKey; (repeat' (first
      | with_reducible refine kept_ite ?_ ?_
      | simp only [keeps_raiseIndex, keeps_setBank]
      | with_reducible refine ite_kept ?_ ?_
      | split))

theorem keeps_arm (s : State) (b : Nat) (at' : Nat) (cmd : Option CmdRef) :
    (State.arm s b at' cmd).kept = s.kept := by
  unfold State.arm; simp only [kept_base, keeps_chkResult, keeps_finish, keeps_raiseFault, keeps_setBank, keeps_settleCheck,
        keeps_startKey, keeps_wr]

theorem keeps_cancelBank (s : State) (b : Nat) :
    (State.cancelBank s b).1.kept = s.kept := by
  unfold State.cancelBank; simp only [kept_base, keeps_bindFail, keeps_finish, keeps_irq, keeps_setBank, keeps_settleCheck]

theorem keeps_scrubStack (s : State) (k : Nat) :
    (State.scrubStack s k).kept = s.kept := by
  unfold State.scrubStack; (repeat' (first
      | with_reducible refine kept_ite ?_ ?_
      | simp only [kept_base, keeps_emit]
      | with_reducible refine ite_kept ?_ ?_
      | split))

theorem keeps_scrubTick (s : State) :
    (State.scrubTick s).kept = s.kept := by
  unfold State.scrubTick; simp only [kept_base, keeps_scrubStack]

theorem keeps_scrubFrom (s : State) (g : Nat) :
    (State.scrubFrom s g).kept = s.kept := by
  unfold State.scrubFrom; simp only [kept_base]

theorem keeps_execScrubStart (g : Nat) (s : State) :
    (after (execScrubStart g s) s).kept = s.kept := by
  unfold execScrubStart; simp only [kept_base, keeps_raise]

theorem keeps_execScrubDone (g : Nat) (bad : Bool) (s : State) :
    (after (execScrubDone g bad s) s).kept = s.kept := by
  unfold execScrubDone; simp only [kept_base, keeps_raise]

theorem keeps_failCommit (s : State) (b : Nat) (st : BankSt) (f : CheckFail) :
    (State.failCommit s b st f).kept = s.kept := by
  unfold State.failCommit; simp only [kept_base, keeps_bindFail, keeps_chkResult, keeps_finish, keeps_releaseHeld, keeps_restoreDrained,
        keeps_setBank]

theorem keeps_chkGo (s : State) (b : Nat) :
    (State.chkGo s b).kept = s.kept := by
  unfold State.chkGo; simp only [kept_base, keeps_arm]

theorem keeps_writeCommit (s : State) (v : Nat) :
    (State.writeCommit s v).kept = s.kept := by
  unfold State.writeCommit; (repeat' (first
      | with_reducible refine kept_ite ?_ ?_
      | simp only [keeps_askCheck, keeps_cancelBank, keeps_chkGo]
      | with_reducible refine ite_kept ?_ ?_
      | split))

theorem keeps_execChkCommitCheck (b : Nat) (s : State) :
    (after (execChkCommitCheck b s) s).kept = s.kept := by
  unfold execChkCommitCheck; simp only [kept_base, keeps_askCheck, keeps_gated]

theorem keeps_execChkCommitGo (b : Nat) (s : State) :
    (after (execChkCommitGo b s) s).kept = s.kept := by
  unfold execChkCommitGo; simp only [kept_base, keeps_chkGo, keeps_gated]

theorem keeps_execChkCommitCancel (b : Nat) (s : State) :
    (after (execChkCommitCancel b s) s).kept = s.kept := by
  unfold execChkCommitCancel; simp only [kept_base, keeps_cancelBank, keeps_gated]

theorem keeps_execCheckDone (b : Nat) (s : State) :
    (after (execCheckDone b s) s).kept = s.kept := by
  unfold execCheckDone; (repeat' (first
      | with_reducible refine kept_ite ?_ ?_
      | simp only [kept_base, keeps_chkResult, keeps_deferCmd, keeps_endCheck, keeps_failCommit, keeps_setBank]
      | with_reducible refine ite_kept ?_ ?_
      | split))

theorem keeps_startMemoryDrain (s : State) (b : Nat) :
    (State.startMemoryDrain s b).kept = s.kept := by
  unfold State.startMemoryDrain; simp only [keeps_setBank, keeps_stopPositions]

theorem keeps_execBlanksReady (s : State) :
    (after (execBlanksReady s) s).kept = s.kept := by
  unfold execBlanksReady; (repeat' (first
      | with_reducible refine kept_ite ?_ ?_
      | simp only [kept_base, keeps_departShelf, keeps_modCluster, keeps_saveDeparting, keeps_setBank, keeps_startMemoryDrain]
      | with_reducible refine ite_kept ?_ ?_
      | split))

theorem keeps_execWaitLimitExpiry (s : State) :
    (after (execWaitLimitExpiry s) s).kept = s.kept := by
  unfold execWaitLimitExpiry; (repeat' (first
      | with_reducible refine kept_ite ?_ ?_
      | simp only [kept_base, keeps_bindFail, keeps_chkResult, keeps_finish, keeps_setBank]
      | with_reducible refine ite_kept ?_ ?_
      | split))

theorem keeps_execDrainSaveDone (s : State) :
    (after (execDrainSaveDone s) s).kept = s.kept := by
  unfold execDrainSaveDone; (repeat' (first
      | with_reducible refine kept_ite ?_ ?_
      | simp only [kept_base, keeps_savesEnded, keeps_setBank]
      | with_reducible refine ite_kept ?_ ?_
      | split))

theorem keeps_execClusterClearDone (s : State) :
    (after (execClusterClearDone s) s).kept = s.kept := by
  unfold execClusterClearDone; (repeat' (first
      | with_reducible refine kept_ite ?_ ?_
      | simp only [kept_base, keeps_modCluster, keeps_startMemoryDrain]
      | with_reducible refine ite_kept ?_ ?_
      | split))

theorem keeps_raiseCommit (s : State) (b : Nat) :
    (State.raiseCommit s b).kept = s.kept := by
  unfold State.raiseCommit; simp only [kept_base, keeps_raise, keeps_setBank]

theorem keeps_execDrainDone (s : State) :
    (after (execDrainDone s) s).kept = s.kept := by
  unfold execDrainDone; (repeat' (first
      | with_reducible refine kept_ite ?_ ?_
      | simp only [kept_base, keeps_raiseCommit]
      | with_reducible refine ite_kept ?_ ?_
      | split))

theorem keeps_execKeysetReady (keyid : Nat) (s : State) :
    (after (execKeysetReady keyid s) s).kept = s.kept := by
  unfold execKeysetReady; (repeat' (first
      | with_reducible refine kept_ite ?_ ?_
      | simp only [kept_base, keeps_raiseCommit, keeps_setBank, keeps_startKey]
      | with_reducible refine ite_kept ?_ ?_
      | split))

theorem keeps_execChkModeWrite (v : Nat) (s : State) :
    (after (execChkModeWrite v s) s).kept = s.kept := by
  unfold execChkModeWrite; simp only [kept_base, keeps_gated, keeps_writeChkMode]

theorem keeps_execChkTickLoRead (src : Nat) (s : State) :
    (after (execChkTickLoRead src s) s).kept = s.kept := by
  unfold execChkTickLoRead; simp only [kept_base, keeps_answerRead, keeps_wr]

theorem keeps_commitKeys (s : State) (old : State) (k : Bank) :
    (State.commitKeys s old k).kept = s.kept := by
  unfold State.commitKeys; (repeat' (first
      | with_reducible refine kept_ite ?_ ?_
      | simp only [kept_base, keeps_modKey, keeps_raise, keeps_useKey, keeps_zeroiseKey]
      | with_reducible refine ite_kept ?_ ?_
      | split
      | refine (foldl_kept _ (fun _ _ => ?_) _ _).trans ?_))

theorem keeps_dropSecrets (s : State) (n : Nat) :
    (State.dropSecrets s n).kept = s.kept := by
  unfold State.dropSecrets; simp only [kept_base, keeps_finish]

theorem keeps_parkChange (s : State) :
    (State.parkChange s).kept = s.kept := by
  unfold State.parkChange; simp only [kept_base, keeps_emit, keeps_withdrawReads]

theorem keeps_finishRunning (s : State) (op : Nat) (status : Nat) (detail : Nat) (result : List Byte) :
    (State.finishRunning s op status detail result).kept = s.kept := by
  unfold State.finishRunning; simp only [kept_base, keeps_finish]

theorem keeps_abortVerify (s : State) :
    (State.abortVerify s).kept = s.kept := by
  unfold State.abortVerify; simp only [kept_base, keeps_finishRunning, keeps_wf]

theorem keeps_closeDebug (s : State) :
    (State.closeDebug s).kept = s.kept := by
  unfold State.closeDebug; simp only [kept_base, keeps_deriveAlias, keeps_lcRecord]

theorem keeps_commitGens (s : State) (old : State) (k : Bank) (changed : List Nat) :
    (State.commitGens s old k changed).kept = s.kept := by
  unfold State.commitGens; simp only [keeps_advanceGens]

theorem keeps_commitClusters (s : State) :
    (State.commitClusters s).kept = s.kept := by
  unfold State.commitClusters; simp only [kept_base, keeps_modCluster]

theorem keeps_commitWork (s : State) (old : State) (k : Bank) :
    (State.commitWork s old k).kept = s.kept := by
  unfold State.commitWork; simp only [kept_base, keeps_cancelSlice, keeps_dropPods, keeps_dropSecrets, keeps_freeDrained, keeps_regrain,
        keeps_resumeSuspended, keeps_syncPodUse, keeps_syncSaveUse]

theorem keeps_commitModes (s : State) (old : State) (k : Bank) :
    (State.commitModes s old k).kept = s.kept := by
  unfold State.commitModes; simp only [kept_base, keeps_abortVerify, keeps_closeDebug, keeps_modFsl, keeps_parkChange]

theorem keeps_commitVersions (s : State) (k : Bank) (changed : List Nat) (t : Nat) :
    (State.commitVersions s k changed t).kept = s.kept := by
  unfold State.commitVersions; simp only [kept_base, keeps_advanceStmt]

theorem keeps_dropTags (s : State) (old : State) :
    (State.dropTags s old).kept = s.kept := by
  unfold State.dropTags; simp only [kept_base, keeps_writeBack]

theorem keeps_commitMode (s : State) (old : State) (k : Bank) :
    (State.commitMode s old k).kept = s.kept := by
  unfold State.commitMode; simp only [kept_base, keeps_emit, keeps_noLend]

theorem keeps_commitTell (s : State) (old : State) (b : Nat) (k : Bank) (changed : List Nat) (t : Nat) (stamp : Nat) :
    (State.commitTell s old b k changed t stamp).kept = s.kept := by
  unfold State.commitTell; simp only [kept_base, keeps_bindCommitted, keeps_chkResult, keeps_commitGens, keeps_emit, keeps_finish, keeps_offer,
    keeps_setBank]

theorem keeps_commitEffect (s : State) (b : Nat) (t : Nat) (stamp : Nat) :
    (State.commitEffect s b t stamp).kept.pending = s.kept.pending ∧ (State.commitEffect s b t stamp).kept.otp = s.kept.otp ∧
      (State.commitEffect s b t stamp).kept.halted = s.kept.halted ∧ (State.commitEffect s b t stamp).kept.tick = s.kept.tick ∧
      (State.commitEffect s b t stamp).kept.fwReady = s.kept.fwReady := by
  unfold State.commitEffect; refine ⟨?_, ?_, ?_, ?_, ?_⟩ <;> simp only [keeps_applyBank, keeps_commitClusters, keeps_commitKeys, keeps_commitMode, keeps_commitModes,
        keeps_commitTell, keeps_commitVersions, keeps_commitWork, keeps_dropTags, keeps_releaseHeld]

theorem keeps_commitMiss (s : State) (b : Nat) :
    (State.commitMiss s b).kept = s.kept := by
  unfold State.commitMiss; simp only [kept_base, keeps_failCommit, keeps_offer, keeps_raiseFault]

theorem keeps_emptyBanks (s : State) :
    (State.emptyBanks s).kept = s.kept := by
  unfold State.emptyBanks; simp only [kept_base, keeps_bindFail, keeps_finish, keeps_modCluster, keeps_setBank]

theorem keeps_newNonce (s : State) :
    (State.newNonce s).kept = s.kept := by
  unfold State.newNonce; simp only [kept_base, keeps_drawn]

theorem keeps_endAuth (s : State) :
    (State.endAuth s).kept = s.kept := by
  unfold State.endAuth; simp only [kept_base, keeps_newNonce, keeps_wr]

theorem keeps_lcEnd (s : State) (target : Nat) (status : Nat) (detail : Nat) :
    (State.lcEnd s target status detail).kept = s.kept := by
  unfold State.lcEnd; simp only [keeps_finishRunning, keeps_lcRecord, keeps_wf]

theorem keeps_burnNext (s : State) :
    (State.burnNext s).kept = s.kept := by
  unfold State.burnNext; (repeat' (first
      | with_reducible refine kept_ite ?_ ?_
      | simp only [kept_base, keeps_lcEnd, keeps_wf]
      | with_reducible refine ite_kept ?_ ?_
      | split))

theorem keeps_lcGo (s : State) :
    (State.lcGo s).kept = s.kept := by
  unfold State.lcGo; (repeat' (first
      | with_reducible refine kept_ite ?_ ?_
      | simp only [kept_base, keeps_burnNext, keeps_endAuth, keeps_finishRunning, keeps_wf, keeps_wr]
      | with_reducible refine ite_kept ?_ ?_
      | split))

theorem keeps_execGo (s : State) :
    (after (execGo s) s).kept = s.kept := by
  unfold execGo; simp only [kept_base, keeps_gated, keeps_lcGo]

theorem keeps_fuseBit (s : State) (ok : Bool) :
    (State.fuseBit s ok).kept.pending = s.kept.pending ∧ (State.fuseBit s ok).kept.defs = s.kept.defs ∧
      (State.fuseBit s ok).kept.halted = s.kept.halted ∧ (State.fuseBit s ok).kept.tick = s.kept.tick ∧
      (State.fuseBit s ok).kept.fwReady = s.kept.fwReady := by
  unfold State.fuseBit; refine ⟨?_, ?_, ?_, ?_, ?_⟩ <;> (repeat' (first
      | with_reducible refine kept_ite ?_ ?_
      | simp only [kept_base, kept_parts, keeps_burnBit, keeps_burnNext, keeps_lcEnd]
      | with_reducible refine ite_kept ?_ ?_
      | split))

theorem keeps_lcOpen (s : State) :
    (State.lcOpen s).kept = s.kept := by
  unfold State.lcOpen; simp only [kept_base, keeps_endAuth, keeps_finishRunning, keeps_wf]

theorem keeps_execDbgOpen (s : State) :
    (after (execDbgOpen s) s).kept = s.kept := by
  unfold execDbgOpen; simp only [kept_base, keeps_gated, keeps_lcOpen]

theorem keeps_lcClose (s : State) :
    (State.lcClose s).kept = s.kept := by
  unfold State.lcClose; simp only [kept_base, keeps_closeDebug]

theorem keeps_writeLcCtrl (s : State) (v : Nat) :
    (State.writeLcCtrl s v).kept = s.kept := by
  unfold State.writeLcCtrl; (repeat' (first
      | with_reducible refine kept_ite ?_ ?_
      | simp only [keeps_lcClose, keeps_lcGo, keeps_lcOpen, keeps_newNonce]
      | with_reducible refine ite_kept ?_ ?_
      | split))

theorem keeps_execDbgClose (s : State) :
    (after (execDbgClose s) s).kept = s.kept := by
  unfold execDbgClose; simp only [kept_base, keeps_gated, keeps_lcClose]

theorem keeps_execNewNonce (s : State) :
    (after (execNewNonce s) s).kept = s.kept := by
  unfold execNewNonce; simp only [kept_base, keeps_gated, keeps_newNonce]

theorem keeps_debugChanged (s : State) :
    (State.debugChanged s).kept = s.kept := by
  unfold State.debugChanged; simp only [kept_base, keeps_finishRunning]

theorem keeps_execDebugVerifyDone (s : State) :
    (after (execDebugVerifyDone s) s).kept = s.kept := by
  unfold execDebugVerifyDone; (repeat' (first
      | with_reducible refine kept_ite ?_ ?_
      | simp only [kept_base, keeps_debugChanged, keeps_deriveAlias, keeps_finishRunning, keeps_lcRecord, keeps_wf]
      | with_reducible refine ite_kept ?_ ?_
      | split))

theorem keeps_writeInject (s : State) (v : Nat) :
    (State.writeInject s v).kept = s.kept := by
  unfold State.writeInject; simp only [kept_base, keeps_wr]

theorem keeps_execTcuInjectWrite (v : Nat) (s : State) :
    (after (execTcuInjectWrite v s) s).kept = s.kept := by
  unfold execTcuInjectWrite; simp only [kept_base, keeps_gated, keeps_writeInject]

theorem keeps_selSum (s : State) (src : Nat) (v : Nat) :
    (State.selSum s src v).kept = s.kept := by
  unfold State.selSum; simp only [keeps_wr]

theorem keeps_execAudSelWrite (src : Nat) (v : Nat) (s : State) :
    (after (execAudSelWrite src v s) s).kept = s.kept := by
  unfold execAudSelWrite; simp only [kept_base, keeps_gated, keeps_selSum]

theorem keeps_execSqTail (f : Nat) (v : Nat) (s : State) :
    (after (execSqTail f v s) s).kept = s.kept := by
  unfold execSqTail; simp only [kept_base, keeps_gatedFn, keeps_writeSqTail]

end Sys2Proof.Laws
end

