-- ==== Sys2Proof/Laws/KeepsVault.lean ====
section
/-! SUPPORT. What the operations of Machine/Vault, CmdPart, CmdOps keep: the queue of commands, the fuses, the slices in force, the halt,
the count and LLY_HFP_READY.FW, each but where a lemma leaves one out. -/

set_option maxRecDepth 4000

namespace Sys2Proof.Laws

open Sys2Proof.Machine

theorem keeps_chalTaken (s : State) (f : Nat) (stamp : Nat) :
    (State.chalTaken s f stamp).kept = s.kept := by
  unfold State.chalTaken; (repeat' (first
      | with_reducible refine kept_ite ?_ ?_
      | simp only [kept_base]
      | with_reducible refine ite_kept ?_ ?_
      | split))

theorem keeps_tamper (s : State) :
    (State.tamper s).kept = s.kept := by
  unfold State.tamper; simp only [kept_base, keeps_raise]

theorem keeps_drbgBack (s : State) :
    (State.drbgBack s).kept = s.kept := by
  unfold State.drbgBack; simp only [kept_base, keeps_debugChanged, keeps_deriveAlias, keeps_newNonce, keeps_startWork]

theorem keeps_entropyFailure (s : State) :
    (State.entropyFailure s).kept = s.kept := by
  unfold State.entropyFailure; simp only [kept_base, keeps_tamper, keeps_wr]

theorem keeps_execRemask (s : State) :
    (after (execRemask s) s).kept = s.kept := by
  unfold execRemask; simp only [kept_base, keeps_bump, keeps_drawn]

theorem keeps_execDrbgReseed (s : State) :
    (after (execDrbgReseed s) s).kept = s.kept := by
  unfold execDrbgReseed; simp only [kept_base, keeps_drawn]

theorem keeps_execEntropyFail (s : State) :
    (after (execEntropyFail s) s).kept = s.kept := by
  unfold execEntropyFail; simp only [kept_base, keeps_entropyFailure]

theorem keeps_execEntropyRetest (pass : Bool) (s : State) :
    (after (execEntropyRetest pass s) s).kept = s.kept := by
  unfold execEntropyRetest; simp only [kept_base, keeps_drbgBack, keeps_entropyFailure]

theorem keeps_execGlitch (s : State) :
    (after (execGlitch s) s).kept = s.kept := by
  unfold execGlitch; simp only [kept_base, keeps_tamper]

theorem keeps_execLockstepMismatch (s : State) :
    (after (execLockstepMismatch s) s).kept = s.kept := by
  unfold execLockstepMismatch; simp only [kept_base, keeps_tamper]

theorem keeps_execClockMonitorTrip (s : State) :
    (after (execClockMonitorTrip s) s).kept = s.kept := by
  unfold execClockMonitorTrip; simp only [kept_base, keeps_tamper]

theorem keeps_askVault (s : State) (owner : Nat) (what : Nat) (nums : List Nat) (data : List Byte) (cmd : Option CmdRef) :
    (State.askVault s owner what nums data cmd).kept = s.kept := by
  unfold State.askVault; simp only [kept_base]

theorem keeps_execSigningSlot (s : State) :
    (after (execSigningSlot s) s).kept = s.kept := by
  unfold execSigningSlot; (repeat' (first
      | with_reducible refine kept_ite ?_ ?_
      | simp only [kept_base, keeps_drawn]
      | with_reducible refine ite_kept ?_ ?_
      | split))

theorem keeps_modConn (s : State) (t : Nat) (f : SpdmConn → SpdmConn) :
    (State.modConn s t f).kept = s.kept := by
  unfold State.modConn; simp only [kept_base]

theorem keeps_spdmOut (s : State) (t : Nat) (code : Nat) (ps : List Nat) (d : List Byte) :
    (State.spdmOut s t code ps d).kept = s.kept := by
  unfold State.spdmOut; simp only [keeps_emit]

theorem keeps_spdmErr (s : State) (t : Nat) (e : Nat) :
    (State.spdmErr s t e).kept = s.kept := by
  unfold State.spdmErr; simp only [keeps_spdmOut]

theorem keeps_deliver (s : State) (r : VReq) :
    (State.deliver s r).kept = s.kept := by
  unfold State.deliver; (repeat' (first
      | with_reducible refine kept_ite ?_ ?_
      | simp only [kept_base, keeps_bindFail, keeps_bindGrains, keeps_cmdOut, keeps_finish, keeps_modConn, keeps_spdmOut]
      | with_reducible refine ite_kept ?_ ?_
      | split))

theorem keeps_endSlot (s : State) :
    (State.endSlot s).kept = s.kept := by
  unfold State.endSlot; (repeat' (first
      | with_reducible refine kept_ite ?_ ?_
      | simp only [keeps_deliver]
      | with_reducible refine ite_kept ?_ ?_
      | split))

theorem keeps_execChallengeResponse (n : Nat) (s : State) :
    (after (execChallengeResponse n s) s).kept = s.kept := by
  unfold execChallengeResponse; (repeat' (first
      | with_reducible refine kept_ite ?_ ?_
      | simp only [kept_base, keeps_cmdOut]
      | with_reducible refine ite_kept ?_ ?_
      | split))

theorem keeps_spdm (s : State) (t : Nat) (open' : Bool) (aliasNeeded : Bool) (f : State → State) (hf : ∀ s, (f s).kept = s.kept) :
    (State.spdm s t open' aliasNeeded f).kept = s.kept := by
  unfold State.spdm; (repeat' (first
      | with_reducible refine kept_ite ?_ ?_
      | simp only [keeps_spdmErr, hf]
      | with_reducible refine ite_kept ?_ ?_
      | split))

theorem keeps_spdmAsk (s : State) (t : Nat) (what : Nat) (nums : List Nat) (d : List Byte) :
    (State.spdmAsk s t what nums d).kept = s.kept := by
  unfold State.spdmAsk; simp only [kept_base, keeps_askVault, keeps_spdmErr]

theorem keeps_execGetVersion (t : Nat) (s : State) :
    (after (execGetVersion t s) s).kept = s.kept := by
  unfold execGetVersion; simp only [kept_base, keeps_modConn, keeps_spdm, keeps_spdmOut]

theorem keeps_execGetCapabilities (t : Nat) (ver : Nat) (s : State) :
    (after (execGetCapabilities t ver s) s).kept = s.kept := by
  unfold execGetCapabilities; simp only [kept_base, keeps_modConn, keeps_spdm, keeps_spdmOut]

theorem keeps_execNegotiateAlgorithms (t : Nat) (offered : Bool) (s : State) :
    (after (execNegotiateAlgorithms t offered s) s).kept = s.kept := by
  unfold execNegotiateAlgorithms; simp only [kept_base, keeps_modConn, keeps_spdm, keeps_spdmErr, keeps_spdmOut]

theorem keeps_execGetDigests (t : Nat) (s : State) :
    (after (execGetDigests t s) s).kept = s.kept := by
  unfold execGetDigests; simp only [kept_base, keeps_spdm, keeps_spdmOut]

theorem keeps_execGetCertificate (t : Nat) (slot : Nat) (off : Nat) (len : Nat) (s : State) :
    (after (execGetCertificate t slot off len s) s).kept = s.kept := by
  unfold execGetCertificate; simp only [kept_base, keeps_spdm, keeps_spdmErr, keeps_spdmOut]

theorem keeps_execSpdmChallenge (t : Nat) (slot : Nat) (nonce : List Byte) (s : State) :
    (after (execSpdmChallenge t slot nonce s) s).kept = s.kept := by
  unfold execSpdmChallenge; simp only [kept_base, keeps_spdm, keeps_spdmAsk, keeps_spdmErr]

theorem keeps_execGetMeasurements (t : Nat) (idx : Nat) (signed : Bool) (nonce : List Byte) (s : State) :
    (after (execGetMeasurements t idx signed nonce s) s).kept = s.kept := by
  unfold execGetMeasurements; simp only [kept_base, keeps_spdm, keeps_spdmAsk, keeps_spdmErr, keeps_spdmOut]

theorem keeps_execKeyExchange (t : Nat) (slot : Nat) (data : List Byte) (s : State) :
    (after (execKeyExchange t slot data s) s).kept = s.kept := by
  unfold execKeyExchange; simp only [kept_base, keeps_askVault, keeps_modConn, keeps_spdm, keeps_spdmErr]

theorem keeps_modSess (s : State) (t : Nat) (id : Nat) (f : Sess → Sess) :
    (State.modSess s t id f).kept = s.kept := by
  unfold State.modSess; simp only [keeps_modConn]

theorem keeps_dropSess (s : State) (t : Nat) (id : Nat) :
    (State.dropSess s t id).kept = s.kept := by
  unfold State.dropSess; simp only [keeps_modConn]

theorem keeps_execFinish (t : Nat) (id : Nat) (mac : List Byte) (s : State) :
    (after (execFinish t id mac s) s).kept = s.kept := by
  unfold execFinish; (repeat' (first
      | with_reducible refine kept_ite ?_ ?_
      | simp only [kept_base, keeps_dropSess, keeps_modSess, keeps_spdmErr, keeps_spdmOut]
      | with_reducible refine ite_kept ?_ ?_
      | with_reducible refine keeps_spdm _ _ _ _ _ (fun _ => ?_)
      | split))

theorem keeps_inSess (s : State) (t : Nat) (id : Nat) (f : State → State) (hf : ∀ s, (f s).kept = s.kept) :
    (State.inSess s t id f).kept = s.kept := by
  unfold State.inSess; (repeat' (first
      | with_reducible refine kept_ite ?_ ?_
      | simp only [keeps_spdmErr, hf]
      | with_reducible refine ite_kept ?_ ?_
      | split))

theorem keeps_execKeyUpdate (t : Nat) (id : Nat) (s : State) :
    (after (execKeyUpdate t id s) s).kept = s.kept := by
  unfold execKeyUpdate; simp only [kept_base, keeps_inSess, keeps_modSess, keeps_spdm, keeps_spdmOut]

theorem keeps_execHeartbeat (t : Nat) (id : Nat) (s : State) :
    (after (execHeartbeat t id s) s).kept = s.kept := by
  unfold execHeartbeat; simp only [kept_base, keeps_inSess, keeps_spdm, keeps_spdmOut]

theorem keeps_execEndSession (t : Nat) (id : Nat) (s : State) :
    (after (execEndSession t id s) s).kept = s.kept := by
  unfold execEndSession; simp only [kept_base, keeps_dropSess, keeps_inSess, keeps_spdm, keeps_spdmOut]

theorem keeps_execSpdmUnsupported (t : Nat) (s : State) :
    (after (execSpdmUnsupported t s) s).kept = s.kept := by
  unfold execSpdmUnsupported; simp only [kept_base, keeps_spdm, keeps_spdmErr]

theorem keeps_tdispOut (s : State) (id : Nat) (code : Nat) (ps : List Nat) (d : List Byte) :
    (State.tdispOut s id code ps d).kept = s.kept := by
  unfold State.tdispOut; simp only [keeps_emit]

theorem keeps_tdispErr (s : State) (id : Nat) (e : Nat) :
    (State.tdispErr s id e).kept = s.kept := by
  unfold State.tdispErr; simp only [keeps_tdispOut]

theorem keeps_tdisp (s : State) (id : Nat) (f : Nat) (g : State → State) (hg : ∀ s, (g s).kept = s.kept) :
    (State.tdisp s id f g).kept = s.kept := by
  unfold State.tdisp; simp only [kept_base, keeps_inSess, keeps_spdm, keeps_tdispErr, hg]

theorem keeps_execGetTdispVersion (id : Nat) (f : Nat) (s : State) :
    (after (execGetTdispVersion id f s) s).kept = s.kept := by
  unfold execGetTdispVersion; simp only [kept_base, keeps_tdisp, keeps_tdispOut]

theorem keeps_execGetTdispCapabilities (id : Nat) (f : Nat) (s : State) :
    (after (execGetTdispCapabilities id f s) s).kept = s.kept := by
  unfold execGetTdispCapabilities; simp only [kept_base, keeps_tdisp, keeps_tdispOut]

theorem keeps_execLockInterfaceRequest (id : Nat) (f : Nat) (s : State) :
    (after (execLockInterfaceRequest id f s) s).kept = s.kept := by
  unfold execLockInterfaceRequest; simp only [kept_base, keeps_drawn, keeps_modFn, keeps_tdisp, keeps_tdispErr, keeps_tdispOut]

theorem keeps_execGetDeviceInterfaceReport (id : Nat) (f : Nat) (s : State) :
    (after (execGetDeviceInterfaceReport id f s) s).kept = s.kept := by
  unfold execGetDeviceInterfaceReport; (repeat' (first
      | with_reducible refine kept_ite ?_ ?_
      | simp only [kept_base, keeps_tdispErr, keeps_tdispOut]
      | with_reducible refine ite_kept ?_ ?_
      | with_reducible refine keeps_tdisp _ _ _ _ (fun _ => ?_)
      | split))

theorem keeps_execGetDeviceInterfaceState (id : Nat) (f : Nat) (s : State) :
    (after (execGetDeviceInterfaceState id f s) s).kept = s.kept := by
  unfold execGetDeviceInterfaceState; simp only [kept_base, keeps_tdisp, keeps_tdispOut]

theorem keeps_execStartInterfaceRequest (id : Nat) (f : Nat) (nonce : List Byte) (s : State) :
    (after (execStartInterfaceRequest id f nonce s) s).kept = s.kept := by
  unfold execStartInterfaceRequest; simp only [kept_base, keeps_modFn, keeps_tdisp, keeps_tdispErr, keeps_tdispOut]

theorem keeps_execStopInterfaceRequest (id : Nat) (f : Nat) (s : State) :
    (after (execStopInterfaceRequest id f s) s).kept = s.kept := by
  unfold execStopInterfaceRequest; simp only [kept_base, keeps_modFn, keeps_pumpHost, keeps_raiseGens, keeps_tdisp, keeps_tdispOut]

theorem keeps_commandIf (s : State) (f : Nat) (op : Nat) (pick : ExecCmd → Bool) (checks : State → ExecCmd → List (Bool × Nat × Nat))
    (run : State → ExecCmd → State) (hrun : ∀ s y0, (run s y0).kept = s.kept) :
    (State.commandIf s f op pick checks run).kept = s.kept := by
  unfold State.commandIf; (repeat' (first
      | exact (judge_keeps ‹_›).trans (keeps_startCmd ..)
      | with_reducible refine kept_ite ?_ ?_
      | simp only [keeps_startCmd, hrun]
      | with_reducible refine ite_kept ?_ ?_
      | split))

theorem keeps_command (s : State) (f : Nat) (op : Nat) (checks : State → ExecCmd → List (Bool × Nat × Nat)) (run : State → ExecCmd → State)
    (hrun : ∀ s y0, (run s y0).kept = s.kept) :
    (State.command s f op checks run).kept = s.kept := by
  unfold State.command; simp only [kept_base, keeps_commandIf, hrun]

theorem keeps_execSliceStage (s : State) :
    (after (execSliceStage s) s).kept = s.kept := by
  unfold execSliceStage; simp only [kept_base, keeps_command, keeps_finish, keeps_loading]

theorem keeps_execSliceDestroy (s : State) :
    (after (execSliceDestroy s) s).kept = s.kept := by
  unfold execSliceDestroy; simp only [kept_base, keeps_command, keeps_finish, keeps_loading]

theorem keeps_execGrainStage (s : State) :
    (after (execGrainStage s) s).kept = s.kept := by
  unfold execGrainStage; (repeat' (first
      | with_reducible refine kept_ite ?_ ?_
      | simp only [kept_base, keeps_finish, keeps_loading]
      | with_reducible refine ite_kept ?_ ?_
      | with_reducible refine keeps_command _ _ _ _ _ (fun _ _ => ?_)
      | split))

theorem keeps_execCheck (s : State) :
    (after (execCheck s) s).kept = s.kept := by
  unfold execCheck; simp only [kept_base, keeps_askCheck, keeps_command]

theorem keeps_execCommit (s : State) :
    (after (execCommit s) s).kept = s.kept := by
  unfold execCommit; simp only [kept_base, keeps_arm, keeps_command]

theorem keeps_execCancel (s : State) :
    (after (execCancel s) s).kept = s.kept := by
  unfold execCancel; simp only [kept_base, keeps_cancelBank, keeps_command, keeps_finish]

theorem keeps_execKeyFind (s : State) :
    (after (execKeyFind s) s).kept = s.kept := by
  unfold execKeyFind; simp only [kept_base, keeps_command, keeps_finish]

theorem keeps_execStatementGet (f : Nat) (s : State) :
    (after (execStatementGet f s) s).kept = s.kept := by
  unfold execStatementGet; simp only [kept_base, keeps_askVault, keeps_command]

theorem keeps_execSecretInstall (f : Nat) (s : State) :
    (after (execSecretInstall f s) s).kept = s.kept := by
  unfold execSecretInstall; simp only [kept_base, keeps_askVault, keeps_command]

theorem keeps_execChallenge (f : Nat) (s : State) :
    (after (execChallenge f s) s).kept = s.kept := by
  unfold execChallenge; (repeat' (first
      | with_reducible refine kept_ite ?_ ?_
      | simp only [kept_base, keeps_finish]
      | with_reducible refine ite_kept ?_ ?_
      | with_reducible refine keeps_command _ _ _ _ _ (fun _ _ => ?_)
      | split))

theorem keeps_execImageBind (s : State) :
    (after (execImageBind s) s).kept = s.kept := by
  unfold execImageBind; simp only [kept_base, keeps_askVault, keeps_command]

theorem keeps_execImageLoadDone (s : State) :
    (after (execImageLoadDone s) s).kept = s.kept := by
  unfold execImageLoadDone; (repeat' (first
      | with_reducible refine kept_ite ?_ ?_
      | simp only [kept_base, keeps_bindFail, keeps_pumpBind]
      | with_reducible refine ite_kept ?_ ?_
      | split))

theorem keeps_putAuth (s : State) (d : List Byte) :
    (State.putAuth s d).kept = s.kept := by
  unfold State.putAuth; simp only [kept_base, keeps_wr]

theorem keeps_execLcTransition (s : State) :
    (after (execLcTransition s) s).kept = s.kept := by
  unfold execLcTransition; simp only [kept_base, keeps_command, keeps_lcGo, keeps_putAuth, keeps_wf]

theorem keeps_execDebugCtlOpen (s : State) :
    (after (execDebugCtlOpen s) s).kept = s.kept := by
  unfold execDebugCtlOpen; simp only [kept_base, keeps_commandIf, keeps_lcOpen, keeps_putAuth]

theorem keeps_execDebugCtlClose (s : State) :
    (after (execDebugCtlClose s) s).kept = s.kept := by
  unfold execDebugCtlClose; simp only [kept_base, keeps_closeDebug, keeps_commandIf, keeps_debugChanged]

theorem keeps_execPodOpen (f : Nat) (s : State) :
    (after (execPodOpen f s) s).kept = s.kept := by
  unfold execPodOpen; simp only [kept_base, keeps_command, keeps_podEv]

theorem keeps_execPodQuery (f : Nat) (s : State) :
    (after (execPodQuery f s) s).kept = s.kept := by
  unfold execPodQuery; (repeat' (first
      | with_reducible refine kept_ite ?_ ?_
      | simp only [kept_base, keeps_finish]
      | with_reducible refine ite_kept ?_ ?_
      | with_reducible refine keeps_command _ _ _ _ _ (fun _ _ => ?_)
      | split))

theorem keeps_addJob (s : State) (j : PodJob) :
    (State.addJob s j).kept = s.kept := by
  unfold State.addJob; simp only [kept_base, keeps_startWork]

theorem keeps_execPodPut (f : Nat) (s : State) :
    (after (execPodPut f s) s).kept = s.kept := by
  unfold execPodPut; (repeat' (first
      | with_reducible refine kept_ite ?_ ?_
      | simp only [kept_base, keeps_addJob, keeps_finish]
      | with_reducible refine ite_kept ?_ ?_
      | with_reducible refine keeps_command _ _ _ _ _ (fun _ _ => ?_)
      | split))

theorem keeps_execPodPin (f : Nat) (s : State) :
    (after (execPodPin f s) s).kept = s.kept := by
  unfold execPodPin; simp only [kept_base, keeps_command, keeps_podEv]

theorem keeps_execPodUnpin (f : Nat) (s : State) :
    (after (execPodUnpin f s) s).kept = s.kept := by
  unfold execPodUnpin; simp only [kept_base, keeps_command, keeps_podEv]

theorem keeps_execPodEvict (f : Nat) (s : State) :
    (after (execPodEvict f s) s).kept = s.kept := by
  unfold execPodEvict; simp only [kept_base, keeps_command, keeps_podEv]

theorem keeps_execPodClose (f : Nat) (s : State) :
    (after (execPodClose f s) s).kept = s.kept := by
  unfold execPodClose; simp only [kept_base, keeps_command, keeps_podEv]

theorem keeps_execPodRebase (f : Nat) (s : State) :
    (after (execPodRebase f s) s).kept = s.kept := by
  unfold execPodRebase; simp only [kept_base, keeps_addJob, keeps_command]

theorem keeps_setFmode (s : State) (sl : Nat) (h : Nat) (m : Nat) (v : Nat) :
    (State.setFmode s sl h m v).kept = s.kept := by
  unfold State.setFmode; simp only [kept_base, keeps_modPod]

theorem keeps_execPodSetMode (f : Nat) (s : State) :
    (after (execPodSetMode f s) s).kept = s.kept := by
  unfold execPodSetMode; simp only [kept_base, keeps_command, keeps_finish, keeps_setFmode]

theorem keeps_execPodKeyBind (f : Nat) (s : State) :
    (after (execPodKeyBind f s) s).kept = s.kept := by
  unfold execPodKeyBind; simp only [kept_base, keeps_askVault, keeps_command]

theorem keeps_execSlotClaim (f : Nat) (s : State) :
    (after (execSlotClaim f s) s).kept = s.kept := by
  unfold execSlotClaim; simp only [kept_base, keeps_command, keeps_raise]

theorem keeps_execSlotRelease (f : Nat) (s : State) :
    (after (execSlotRelease f s) s).kept = s.kept := by
  unfold execSlotRelease; simp only [kept_base, keeps_command, keeps_raise]

theorem keeps_execExpertClaim (f : Nat) (s : State) :
    (after (execExpertClaim f s) s).kept = s.kept := by
  unfold execExpertClaim; simp only [kept_base, keeps_command, keeps_raise, keeps_wantPod]

theorem keeps_execExpertRelease (f : Nat) (s : State) :
    (after (execExpertRelease f s) s).kept = s.kept := by
  unfold execExpertRelease; simp only [kept_base, keeps_command, keeps_raise]

theorem keeps_queueEv (s : State) (cls : Nat) (what : Nat) (args : List Nat) (e : ExecCmd) (q : Nat) :
    (State.queueEv s cls what args e q).kept = s.kept := by
  unfold State.queueEv; simp only [keeps_raise]

theorem keeps_execQueueCreate (f : Nat) (s : State) :
    (after (execQueueCreate f s) s).kept = s.kept := by
  unfold execQueueCreate; simp only [kept_base, keeps_command, keeps_queueEv]

theorem keeps_execQueueDestroy (f : Nat) (s : State) :
    (after (execQueueDestroy f s) s).kept = s.kept := by
  unfold execQueueDestroy; simp only [kept_base, keeps_command, keeps_queueEv]

theorem keeps_execQueueFlush (f : Nat) (s : State) :
    (after (execQueueFlush f s) s).kept = s.kept := by
  unfold execQueueFlush; simp only [kept_base, keeps_command, keeps_queueEv]

theorem keeps_suspendRow (s : State) (f : Nat) (op : Nat) :
    (State.suspendRow s f op).kept = s.kept := by
  unfold State.suspendRow; simp only [kept_base, keeps_commandIf, keeps_queueEv]

theorem keeps_execSuspend (f : Nat) (s : State) :
    (after (execSuspend f s) s).kept = s.kept := by
  unfold execSuspend; simp only [kept_base, keeps_suspendRow]

theorem keeps_execSuspendSave (f : Nat) (s : State) :
    (after (execSuspendSave f s) s).kept = s.kept := by
  unfold execSuspendSave; simp only [kept_base, keeps_suspendRow]

theorem keeps_execResume (f : Nat) (s : State) :
    (after (execResume f s) s).kept = s.kept := by
  unfold execResume; simp only [kept_base, keeps_suspendRow]

theorem keeps_execQueueCounts (f : Nat) (s : State) :
    (after (execQueueCounts f s) s).kept = s.kept := by
  unfold execQueueCounts; (repeat' (first
      | with_reducible refine kept_ite ?_ ?_
      | simp only [kept_base, keeps_cmdOut]
      | with_reducible refine ite_kept ?_ ?_
      | with_reducible refine keeps_command _ _ _ _ _ (fun _ _ => ?_)
      | split))

end Sys2Proof.Laws
end

