-- ==== Sys2Proof/Laws/KeepsFabric.lean ====
section
/-! SUPPORT. What the operations of Machine/Fabric, Transport keep: the queue of commands, the fuses, the slices in force, the halt,
the count and LLY_HFP_READY.FW, each but where a lemma leaves one out. -/

set_option maxRecDepth 4000

namespace Sys2Proof.Laws

open Sys2Proof.Machine

theorem keeps_setBypass (s : State) (k : Nat) (b : BypSt × Nat) :
    (State.setBypass s k b).kept = s.kept := by
  unfold State.setBypass; simp only [kept_base]

theorem keeps_emitFlit (s : State) (p : Nat) (l : Nat) (type : Nat) (vc : Nat) (seq : Nat) (cr : List Nat) (d : List Byte) :
    (State.emitFlit s p l type vc seq cr d).kept = s.kept := by
  unfold State.emitFlit; simp only [kept_base, keeps_emit, keeps_modLink]

theorem keeps_flushLink (s : State) (p : Nat) (l : Nat) (a : Nat) :
    (State.flushLink s p l a).kept = s.kept := by
  induction a generalizing s with
  | zero => simp only [State.flushLink]
  | succ _ ih => unfold State.flushLink; (repeat' (first
      | with_reducible refine kept_ite ?_ ?_
      | simp only [keeps_emitFlit, keeps_modLink, ih]
      | with_reducible refine ite_kept ?_ ?_
      | split))

theorem keeps_sendFlit (s : State) (p : Nat) (l : Nat) (type : Nat) (vc : Nat) (d : List Byte) :
    (State.sendFlit s p l type vc d).kept = s.kept := by
  unfold State.sendFlit; simp only [keeps_flushLink, keeps_modLink]

theorem keeps_sendPacket (s : State) (p : Nat) (l : Nat) (vc : Nat) (d : List Byte) :
    (State.sendPacket s p l vc d).kept = s.kept := by
  unfold State.sendPacket; simp only [kept_base, keeps_sendFlit]

theorem keeps_sendSync (s : State) (p : Nat) (l : Nat) :
    (State.sendSync s p l).kept = s.kept := by
  unfold State.sendSync; simp only [keeps_emitFlit]

theorem keeps_advertise (s : State) (p : Nat) (l : Nat) (v : Nat) (h : Nat) :
    (State.advertise s p l v h).kept = s.kept := by
  unfold State.advertise; simp only [keeps_modFab]

theorem keeps_sendCredits (s : State) (p : Nat) (l : Nat) :
    (State.sendCredits s p l).kept = s.kept := by
  unfold State.sendCredits; simp only [kept_base, keeps_advertise, keeps_sendFlit]

theorem keeps_sendPortCredits (s : State) (p : Nat) :
    (State.sendPortCredits s p).kept = s.kept := by
  unfold State.sendPortCredits; simp only [kept_base, keeps_sendCredits]

theorem keeps_clearLink (s : State) (p : Nat) (l : Nat) :
    (State.clearLink s p l).kept = s.kept := by
  unfold State.clearLink; simp only [kept_base]

theorem keeps_startTraining (s : State) (p : Nat) (l : Nat) (full : Bool) :
    (State.startTraining s p l full).kept = s.kept := by
  unfold State.startTraining; simp only [kept_base, keeps_clearLink, keeps_modLink]

theorem keeps_linkDown (s : State) (p : Nat) (l : Nat) (reason : Nat) :
    (State.linkDown s p l reason).kept = s.kept := by
  unfold State.linkDown; simp only [kept_base, keeps_clearLink, keeps_modLink, keeps_raise]

theorem keeps_execTrainingDone (p : Nat) (l : Nat) (locked : Nat) (fast : Bool) (reversed : Bool) (s : State) :
    (after (execTrainingDone p l locked fast reversed s) s).kept = s.kept := by
  unfold execTrainingDone; (repeat' (first
      | with_reducible refine kept_ite ?_ ?_
      | simp only [kept_base, keeps_linkDown, keeps_modLink]
      | with_reducible refine ite_kept ?_ ?_
      | split))

theorem keeps_execTrainingTimeout (p : Nat) (l : Nat) (s : State) :
    (after (execTrainingTimeout p l s) s).kept = s.kept := by
  unfold execTrainingTimeout; simp only [kept_base, keeps_linkDown]

theorem keeps_execTrainingRetry (p : Nat) (l : Nat) (s : State) :
    (after (execTrainingRetry p l s) s).kept = s.kept := by
  unfold execTrainingRetry; simp only [kept_base, keeps_startTraining]

theorem keeps_retrain (s : State) (p : Nat) :
    (State.retrain s p).kept = s.kept := by
  unfold State.retrain; simp only [kept_base, keeps_clearLink, keeps_modLink, keeps_startTraining, keeps_wf]

theorem keeps_writeFpcCtl (s : State) (v : Nat) :
    (State.writeFpcCtl s v).kept = s.kept := by
  unfold State.writeFpcCtl; simp only [kept_base, keeps_retrain]

theorem keeps_execFpcCtlRetrain (v : Nat) (s : State) :
    (after (execFpcCtlRetrain v s) s).kept = s.kept := by
  unfold execFpcCtlRetrain; simp only [kept_base, keeps_gated, keeps_writeFpcCtl]

theorem keeps_sendHello (s : State) (p : Nat) (l : Nat) :
    (State.sendHello s p l).kept = s.kept := by
  unfold State.sendHello; simp only [kept_base, keeps_drawn, keeps_modLink, keeps_sendFlit]

theorem keeps_laneChange (s : State) (p : Nat) (l : Nat) :
    (State.laneChange s p l).kept = s.kept := by
  unfold State.laneChange; (repeat' (first
      | with_reducible refine kept_ite ?_ ?_
      | simp only [keeps_linkDown, keeps_modLink, keeps_raise]
      | with_reducible refine ite_kept ?_ ?_
      | split))

theorem keeps_execStatusWord (p : Nat) (q : Nat) (state : Nat) (gen2 : Bool) (width : Nat) (mask : Nat) (byp : Nat) (fp : Nat) (s : State) :
    (after (execStatusWord p q state gen2 width mask byp fp s) s).kept = s.kept := by
  unfold execStatusWord; (repeat' (first
      | with_reducible refine kept_ite ?_ ?_
      | simp only [kept_base, keeps_emit, keeps_laneChange, keeps_linkDown, keeps_modLink, keeps_sendHello, keeps_startTraining]
      | with_reducible refine ite_kept ?_ ?_
      | split))

theorem keeps_execMgmtLaneSilent (p : Nat) (q : Nat) (s : State) :
    (after (execMgmtLaneSilent p q s) s).kept = s.kept := by
  unfold execMgmtLaneSilent; (repeat' (first
      | with_reducible refine kept_ite ?_ ?_
      | simp only [kept_base, keeps_linkDown, keeps_modLink]
      | with_reducible refine ite_kept ?_ ?_
      | split))

theorem keeps_execLaneFail (p : Nat) (lane : Nat) (lock : Bool) (corr : Nat) (s : State) :
    (after (execLaneFail p lane lock corr s) s).kept = s.kept := by
  unfold execLaneFail; simp only [kept_base, keeps_laneChange, keeps_modLink]

theorem keeps_execDegradeDone (p : Nat) (l : Nat) (s : State) :
    (after (execDegradeDone p l s) s).kept = s.kept := by
  unfold execDegradeDone; simp only [kept_base, keeps_flushLink, keeps_modLink, keeps_sendSync]

theorem keeps_pumpBypass (s : State) :
    (State.pumpBypass s).kept = s.kept := by
  unfold State.pumpBypass; (repeat' (first
      | with_reducible refine kept_ite ?_ ?_
      | simp only [keeps_setBypass]
      | with_reducible refine ite_kept ?_ ?_
      | split
      | refine (foldl_kept _ (fun _ _ => ?_) _ _).trans ?_))

theorem keeps_execBypassOpen (k : Nat) (s : State) :
    (after (execBypassOpen k s) s).kept = s.kept := by
  unfold execBypassOpen; simp only [kept_base, keeps_modLink, keeps_setBypass, keeps_startTraining]

theorem keeps_closePair (s : State) (k : Nat) (reason : Nat) :
    (State.closePair s k reason).kept = s.kept := by
  unfold State.closePair; simp only [kept_base, keeps_clearLink, keeps_modLink, keeps_setBypass]

theorem keeps_execBypassClose (k : Nat) (s : State) :
    (after (execBypassClose k s) s).kept = s.kept := by
  unfold execBypassClose; simp only [kept_base, keeps_closePair]

theorem keeps_closeFabric (s : State) (reason : Nat) :
    (State.closeFabric s reason).kept = s.kept := by
  unfold State.closeFabric; simp only [kept_base, keeps_closePair]

theorem keeps_admitPorts (s : State) :
    (State.admitPorts s).kept = s.kept := by
  unfold State.admitPorts; simp only [kept_base, keeps_modLink, keeps_sendCredits]

theorem keeps_bump16 (s : State) (a : Nat) (hi : Bool) :
    (State.bump16 s a hi).kept = s.kept := by
  unfold State.bump16; simp only [kept_base, keeps_wf]

theorem keeps_proto (s : State) :
    (State.proto s).kept = s.kept := by
  unfold State.proto; simp only [keeps_bump16]

theorem keeps_creditTx (s : State) (p : Nat) (l : Nat) (v : Nat) (h : Nat) (out : Nat → Nat) :
    (State.creditTx s p l v h out).kept = s.kept := by
  unfold State.creditTx; simp only [keeps_modFab]

theorem keeps_ackFlit (s : State) (p : Nat) (l : Nat) (h : Nat) :
    (State.ackFlit s p l h).kept = s.kept := by
  unfold State.ackFlit; simp only [kept_base, keeps_bump, keeps_flushLink, keeps_modLink]

theorem keeps_creditFlit (s : State) (p : Nat) (l : Nat) (h : Nat) :
    (State.creditFlit s p l h).kept = s.kept := by
  unfold State.creditFlit; (repeat' (first
      | with_reducible refine kept_ite ?_ ?_
      | simp only [keeps_creditTx]
      | with_reducible refine ite_kept ?_ ?_
      | split))

theorem keeps_rxFlit (s : State) (p : Nat) (l : Nat) (hdr : Nat) (d : List Byte) (ue : Bool) (tags : List Byte) (keyx : Bool) :
    (State.rxFlit s p l hdr d ue tags keyx).1.kept = s.kept := by
  unfold State.rxFlit; simp only [kept_base, keeps_ackFlit, keeps_bump16, keeps_creditFlit, keeps_linkDown, keeps_modLink,
        keeps_proto]

theorem keeps_rxSystem (s : State) (p : Nat) (l : Nat) (hdr : Nat) (type : Nat) (d : List Byte) (ue : Bool) (tag : List Byte) (keyx : Bool) :
    (State.rxSystem s p l hdr type d ue tag keyx).1.kept = s.kept := by
  unfold State.rxSystem; (repeat' (first
      | with_reducible refine kept_ite ?_ ?_
      | simp only [kept_base, keeps_proto, keeps_rxFlit]
      | with_reducible refine ite_kept ?_ ?_
      | split))

theorem keeps_execIdle (p : Nat) (l : Nat) (hdr : Nat) (ue : Bool) (tag : List Byte) (s : State) :
    (after (execIdle p l hdr ue tag s) s).kept = s.kept := by
  unfold execIdle; simp only [kept_base, keeps_rxSystem]

theorem keeps_execSync (p : Nat) (l : Nat) (hdr : Nat) (ctr : Nat) (ue : Bool) (tag : List Byte) (s : State) :
    (after (execSync p l hdr ctr ue tag s) s).kept = s.kept := by
  unfold execSync; simp only [kept_base, keeps_modLink, keeps_rxSystem]

theorem keeps_execCredit (p : Nat) (l : Nat) (hdr : Nat) (i : Nat) (entries : List (Nat × Nat × List Nat)) (ue : Bool) (tag : List Byte)
    (s : State) :
    (after (execCredit p l hdr i entries ue tag s) s).kept = s.kept := by
  unfold execCredit; simp only [kept_base, keeps_creditTx, keeps_rxSystem]

theorem keeps_payFab (s : State) (p : Nat) (l : Nat) (n : Nat) (k : Nat) :
    (State.payFab s p l n k).kept = s.kept := by
  unfold State.payFab; simp only [kept_base, keeps_modAcc]

theorem keeps_claimFab (s : State) (p : Nat) (n : Nat) :
    (State.claimFab s p n).kept = s.kept := by
  unfold State.claimFab; simp only [keeps_modAcc]

theorem keeps_repayFab (s : State) :
    (State.repayFab s).kept = s.kept := by
  unfold State.repayFab; simp only [kept_base]

theorem keeps_respond (s : State) (x : FabIn) :
    (State.respond s x).1.kept = s.kept := by
  unfold State.respond; simp only [kept_base, keeps_claimFab, keeps_modFab, keeps_payFab, keeps_sendPacket]

theorem keeps_askPartner (s : State) (o : FabOut) :
    (State.askPartner s o).kept = s.kept := by
  unfold State.askPartner; simp only [kept_base, keeps_modFab, keeps_payFab, keeps_sendPacket]

theorem keeps_pumpOut (s : State) :
    (State.pumpOut s).kept = s.kept := by
  unfold State.pumpOut; simp only [kept_base, keeps_askPartner, keeps_claimFab]

theorem keeps_pumpFab (s : State) :
    (State.pumpFab s).kept = s.kept := by
  unfold State.pumpFab; simp only [kept_base, keeps_advertise, keeps_emitFlit, keeps_modFab, keeps_pumpOut, keeps_respond]

theorem keeps_fabTick (s : State) :
    (State.fabTick s).kept = s.kept := by
  unfold State.fabTick; simp only [kept_base, keeps_pumpFab, keeps_repayFab]

theorem keeps_farRequest (s : State) (n : Nat) (addr : Nat) (len : Nat) (write : Bool) (data : List Byte) (far : Nat × Nat × Nat × Nat) :
    (State.farRequest s n addr len write data far).kept = s.kept := by
  unfold State.farRequest; (repeat' (first
      | with_reducible refine kept_ite ?_ ?_
      | simp only [kept_base, keeps_pumpOut]
      | with_reducible refine ite_kept ?_ ?_
      | split))

theorem keeps_execMemoryRequest (id : Nat) (cls : Nat) (tag : Nat) (addr : Nat) (len : Nat) (write : Bool) (mask : Nat) (data : List Byte)
    (port : Nat) (aux : Nat) (sub : Nat) (far : Option (Nat × Nat × Nat × Nat)) (s : State) :
    (after (execMemoryRequest id cls tag addr len write mask data port aux sub far s) s).kept = s.kept := by
  unfold execMemoryRequest; (repeat' (first
      | with_reducible refine kept_ite ?_ ?_
      | simp only [kept_base, keeps_enterRequest, keeps_farRequest]
      | with_reducible refine ite_kept ?_ ?_
      | split))

theorem keeps_rxPacket (s : State) (p : Nat) (l : Nat) (hdr : Nat) (head : List Byte) (data : List Byte) (vcs : List Nat) (ue : Bool)
    (tag : List Byte) :
    (State.rxPacket s p l hdr head data vcs ue tag).1.kept = s.kept := by
  unfold State.rxPacket; simp only [kept_base, keeps_proto, keeps_rxFlit]

theorem keeps_serveFab (s : State) (p : Nat) (l : Nat) (hdr : Nat) (fslice : Nat) (result : Nat) (len : Nat) (addr : Nat) (rtag : Nat)
    (write : Bool) (data : List Byte) (ue : Bool) (tag : List Byte) :
    (State.serveFab s p l hdr fslice result len addr rtag write data ue tag).kept = s.kept := by
  unfold State.serveFab; (repeat' (first
      | with_reducible refine kept_ite ?_ ?_
      | simp only [kept_base, keeps_drawn, keeps_enterRequest, keeps_modFab, keeps_proto, keeps_pumpFab,
        keeps_respond, keeps_rxPacket]
      | with_reducible refine ite_kept ?_ ?_
      | split))

theorem keeps_execRd (p : Nat) (l : Nat) (hdr : Nat) (fslice : Nat) (result : Nat) (len : Nat) (addr : Nat) (rtag : Nat) (ue : Bool)
    (tag : List Byte) (s : State) :
    (after (execRd p l hdr fslice result len addr rtag ue tag s) s).kept = s.kept := by
  unfold execRd; simp only [kept_base, keeps_serveFab]

theorem keeps_execWr (p : Nat) (l : Nat) (hdr : Nat) (fslice : Nat) (result : Nat) (len : Nat) (addr : Nat) (rtag : Nat) (data : List Byte)
    (ue : Bool) (tag : List Byte) (s : State) :
    (after (execWr p l hdr fslice result len addr rtag data ue tag s) s).kept = s.kept := by
  unfold execWr; simp only [kept_base, keeps_serveFab]

theorem keeps_fabAnswer (s : State) (p : Nat) (l : Nat) (hdr : Nat) (fslice : Nat) (op : Nat) (result : Nat) (addr : Nat) (rtag : Nat)
    (ops : List Nat) (data : List Byte) (ue : Bool) (tag : List Byte) :
    (State.fabAnswer s p l hdr fslice op result addr rtag ops data ue tag).kept = s.kept := by
  unfold State.fabAnswer; (repeat' (first
      | with_reducible refine kept_ite ?_ ?_
      | simp only [kept_base, keeps_emit, keeps_modFab, keeps_proto, keeps_rxPacket]
      | with_reducible refine ite_kept ?_ ?_
      | split))

theorem keeps_execRdrsp (p : Nat) (l : Nat) (hdr : Nat) (fslice : Nat) (addr : Nat) (rtag : Nat) (data : List Byte) (ue : Bool) (tag : List Byte)
    (s : State) :
    (after (execRdrsp p l hdr fslice addr rtag data ue tag s) s).kept = s.kept := by
  unfold execRdrsp; simp only [kept_base, keeps_fabAnswer]

theorem keeps_execWrack (p : Nat) (l : Nat) (hdr : Nat) (fslice : Nat) (addr : Nat) (rtag : Nat) (ue : Bool) (tag : List Byte) (s : State) :
    (after (execWrack p l hdr fslice addr rtag ue tag s) s).kept = s.kept := by
  unfold execWrack; simp only [kept_base, keeps_fabAnswer]

theorem keeps_execErr (p : Nat) (l : Nat) (hdr : Nat) (fslice : Nat) (result : Nat) (addr : Nat) (rtag : Nat) (ue : Bool) (tag : List Byte)
    (s : State) :
    (after (execErr p l hdr fslice result addr rtag ue tag s) s).kept = s.kept := by
  unfold execErr; simp only [kept_base, keeps_fabAnswer]

theorem keeps_execSignal (p : Nat) (l : Nat) (hdr : Nat) (fslice : Nat) (result : Nat) (len : Nat) (aux : Nat) (ue : Bool) (tag : List Byte)
    (s : State) :
    (after (execSignal p l hdr fslice result len aux ue tag s) s).kept = s.kept := by
  unfold execSignal; (repeat' (first
      | with_reducible refine kept_ite ?_ ?_
      | simp only [kept_base, keeps_proto, keeps_rxPacket, keeps_syncSet]
      | with_reducible refine ite_kept ?_ ?_
      | split))

theorem keeps_newSession (s : State) (p : Nat) (l : Nat) (n : Nat) :
    (State.newSession s p l n).kept = s.kept := by
  unfold State.newSession; simp only [keeps_modLink]

theorem keeps_execHello (p : Nat) (l : Nat) (hdr : Nat) (nonce : Nat) (fp : Nat) (ue : Bool) (tag : List Byte) (s : State) :
    (after (execHello p l hdr nonce fp ue tag s) s).kept = s.kept := by
  unfold execHello; simp only [kept_base, keeps_linkDown, keeps_modLink, keeps_newSession, keeps_rxSystem, keeps_sendFlit,
        keeps_sendHello, keeps_sendSync]

theorem keeps_execConfirm (p : Nat) (l : Nat) (hdr : Nat) (mac : List Byte) (ue : Bool) (tag : List Byte) (s : State) :
    (after (execConfirm p l hdr mac ue tag s) s).kept = s.kept := by
  unfold execConfirm; simp only [kept_base, keeps_linkDown, keeps_modLink, keeps_rxSystem]

theorem keeps_execKeyxTimeout (p : Nat) (l : Nat) (s : State) :
    (after (execKeyxTimeout p l s) s).kept = s.kept := by
  unfold execKeyxTimeout; simp only [kept_base, keeps_linkDown]

theorem keeps_askRekey (s : State) (p : Nat) (l : Nat) :
    (State.askRekey s p l).kept = s.kept := by
  unfold State.askRekey; simp only [kept_base, keeps_drawn, keeps_modLink, keeps_sendFlit]

theorem keeps_execRekeyThreshold (p : Nat) (l : Nat) (rx : Bool) (s : State) :
    (after (execRekeyThreshold p l rx s) s).kept = s.kept := by
  unfold execRekeyThreshold; simp only [kept_base, keeps_askRekey, keeps_modLink]

theorem keeps_switchKeys (s : State) (p : Nat) (l : Nat) (nonce : Nat) :
    (State.switchKeys s p l nonce).kept = s.kept := by
  unfold State.switchKeys; simp only [keeps_modLink, keeps_newSession, keeps_sendSync]

theorem keeps_execRekeyReq (p : Nat) (l : Nat) (hdr : Nat) (nonce : Nat) (ue : Bool) (tag : List Byte) (s : State) :
    (after (execRekeyReq p l hdr nonce ue tag s) s).kept = s.kept := by
  unfold execRekeyReq; simp only [kept_base, keeps_drawn, keeps_modLink, keeps_rxSystem, keeps_sendFlit, keeps_switchKeys]

theorem keeps_execRekeyAck (p : Nat) (l : Nat) (hdr : Nat) (nonce : Nat) (ue : Bool) (tag : List Byte) (s : State) :
    (after (execRekeyAck p l hdr nonce ue tag s) s).kept = s.kept := by
  unfold execRekeyAck; simp only [kept_base, keeps_rxSystem, keeps_switchKeys]

theorem keeps_execRekeyTimeout (p : Nat) (l : Nat) (s : State) :
    (after (execRekeyTimeout p l s) s).kept = s.kept := by
  unfold execRekeyTimeout; simp only [kept_base, keeps_askRekey]

theorem keeps_execCounterLimit (p : Nat) (l : Nat) (s : State) :
    (after (execCounterLimit p l s) s).kept = s.kept := by
  unfold execCounterLimit; simp only [kept_base, keeps_linkDown]

theorem keeps_sendAbort (s : State) (d : SliceDef) (x2 : Nat) (hops : Nat) (kind : Nat) (origin : Nat) (but : Option (Nat × Nat)) :
    (State.sendAbort s d x2 hops kind origin but).kept = s.kept := by
  unfold State.sendAbort; simp only [kept_base, keeps_sendFlit]

theorem keeps_setAbort (s : State) (n : Nat) (x2 : Option Nat) :
    (State.setAbort s n x2).kept = s.kept := by
  unfold State.setAbort; simp only [kept_base]

theorem keeps_execAbort (p : Nat) (l : Nat) (hdr : Nat) (fslice : Nat) (hops : Nat) (kind : Nat) (x : Nat) (origin : Nat) (res : Nat)
    (rest : List Byte) (ue : Bool) (tag : List Byte) (s : State) :
    (after (execAbort p l hdr fslice hops kind x origin res rest ue tag s) s).kept = s.kept := by
  unfold execAbort; (repeat' (first
      | with_reducible refine kept_ite ?_ ?_
      | simp only [kept_base, keeps_bump16, keeps_proto, keeps_raise, keeps_rxSystem, keeps_sendAbort, keeps_setAbort]
      | with_reducible refine ite_kept ?_ ?_
      | split))

end Sys2Proof.Laws
end

