-- ==== Sys2Proof/Laws/KeepsFaults.lean ====
section
/-! SUPPORT. What the operations of Machine/Control, Faults, Power keep: the queue of commands, the fuses, the slices in force, the halt,
the count and LLY_HFP_READY.FW, each but where a lemma leaves one out. -/

set_option maxRecDepth 4000

namespace Sys2Proof.Laws

open Sys2Proof.Machine

theorem keeps_modCore (s : State) (c : Nat) (f : Core → Core) :
    (State.modCore s c f).kept = s.kept := by
  unfold State.modCore; simp only [kept_base]

theorem keeps_modCcx (s : State) (f : Ccx → Ccx) :
    (State.modCcx s f).kept = s.kept := by
  unfold State.modCcx; simp only [kept_base]

theorem keeps_controlFault (s : State) :
    (State.controlFault s).kept = s.kept := by
  unfold State.controlFault; simp only [keeps_raiseFault]

theorem keeps_startCores (s : State) :
    (State.startCores s).kept = s.kept := by
  unfold State.startCores; simp only [kept_base, keeps_modCore]

theorem keeps_holdCores (s : State) :
    (State.holdCores s).kept = s.kept := by
  unfold State.holdCores; simp only [kept_base, keeps_modCore]

theorem keeps_fwFail (s : State) (status : Nat) (detail : Nat) :
    (State.fwFail s status detail).kept = s.kept := by
  unfold State.fwFail; (repeat' (first
      | with_reducible refine kept_ite ?_ ?_
      | simp only [kept_base, keeps_dropAccs, keeps_finish, keeps_modCcx, keeps_wf]
      | with_reducible refine ite_kept ?_ ?_
      | split))

theorem keeps_fwRecord (s : State) (sub : Nat) (i : FwImage) :
    (State.fwRecord s sub i).kept = s.kept := by
  unfold State.fwRecord; simp only [keeps_offer]

theorem keeps_fwPass (s : State) (j : FwJob) :
    (State.fwPass s j).kept = s.kept := by
  unfold State.fwPass; simp only [kept_base, keeps_emit, keeps_finish, keeps_fwRecord, keeps_modCcx, keeps_startCores]

theorem keeps_fwNext (s : State) :
    (State.fwNext s).kept = s.kept := by
  unfold State.fwNext; (repeat' (first
      | with_reducible refine kept_ite ?_ ?_
      | simp only [keeps_fwFail, keeps_fwPass, keeps_hostRead]
      | with_reducible refine ite_kept ?_ ?_
      | split))

theorem keeps_fwAnswer (s : State) (part : Nat) (d : Option (List Byte)) :
    (State.fwAnswer s part d).kept = s.kept := by
  unfold State.fwAnswer; (repeat' (first
      | with_reducible refine kept_ite ?_ ?_
      | simp only [keeps_fwFail, keeps_fwNext, keeps_modCcx]
      | with_reducible refine ite_kept ?_ ?_
      | split))

theorem keeps_fwStart (s : State) (e : ExecCmd) (update : Bool) :
    (State.fwStart s e update).kept = s.kept := by
  unfold State.fwStart; simp only [keeps_hostRead, keeps_modCcx]

theorem keeps_execFwLoad (s : State) :
    (after (execFwLoad s) s).kept = s.kept := by
  unfold execFwLoad; simp only [kept_base, keeps_command, keeps_fwStart]

theorem keeps_execFwUpdate (s : State) :
    (after (execFwUpdate s) s).kept = s.kept := by
  unfold execFwUpdate; simp only [kept_base, keeps_command, keeps_fwStart]

theorem keeps_undoCmd (s : State) (e : ExecCmd) :
    (State.undoCmd s e).kept = s.kept := by
  unfold State.undoCmd; simp only [kept_base, keeps_bindFail, keeps_dropAccs, keeps_fwFail, keeps_settlePods]

theorem keeps_interrupted (s : State) (e : ExecCmd) :
    (State.interrupted s e).kept = s.kept := by
  unfold State.interrupted; simp only [kept_base, keeps_finish, keeps_modCmd, keeps_undoCmd]

theorem keeps_interruptedAll (s : State) (comps : Nat) :
    (State.interruptedAll s comps).kept = s.kept := by
  unfold State.interruptedAll; simp only [kept_base, keeps_interrupted]

theorem keeps_execQuiesceEnd (s : State) :
    (after (execQuiesceEnd s) s).kept = s.kept := by
  unfold execQuiesceEnd; simp only [kept_base, keeps_holdCores, keeps_modCcx]

theorem keeps_rollback (s : State) :
    (State.rollback s).kept = s.kept := by
  unfold State.rollback; (repeat' (first
      | with_reducible refine kept_ite ?_ ?_
      | simp only [kept_base, keeps_deriveAlias, keeps_dropAccs, keeps_finish, keeps_fwRecord, keeps_holdCores, keeps_irq, keeps_modCcx]
      | with_reducible refine ite_kept ?_ ?_
      | split))

theorem keeps_execAdopt (s : State) :
    (after (execAdopt s) s).kept = s.kept := by
  unfold execAdopt; (repeat' (first
      | with_reducible refine kept_ite ?_ ?_
      | simp only [kept_base, keeps_deriveAlias, keeps_finish, keeps_fwRecord, keeps_interruptedAll, keeps_irq, keeps_modCcx, keeps_modCore]
      | with_reducible refine ite_kept ?_ ?_
      | split))

theorem keeps_execRollback (s : State) :
    (after (execRollback s) s).kept = s.kept := by
  unfold execRollback; simp only [kept_base, keeps_rollback]

theorem keeps_askRestart (s : State) (core : Nat) (why : Nat) :
    (State.askRestart s core why).kept = s.kept := by
  unfold State.askRestart; simp only [kept_base, keeps_raise]

theorem keeps_restartEffect (s : State) (core : Nat) (_why : Nat) (stamp : Nat) :
    (State.restartEffect s core _why stamp).kept = s.kept := by
  unfold State.restartEffect; simp only [kept_base, keeps_controlFault, keeps_irq, keeps_modCore, keeps_offer, keeps_rollback, keeps_wf]

theorem keeps_execCoreWatchdog (core : Nat) (s : State) :
    (after (execCoreWatchdog core s) s).kept = s.kept := by
  unfold execCoreWatchdog; simp only [kept_base, keeps_askRestart]

theorem keeps_execMpuViolation (core : Nat) (comp : Nat) (addr : Nat) (s : State) :
    (after (execMpuViolation core comp addr s) s).kept = s.kept := by
  unfold execMpuViolation; simp only [kept_base, keeps_askRestart, keeps_irq, keeps_offer, keeps_wr]

theorem keeps_execCoreEccError (core : Nat) (s : State) :
    (after (execCoreEccError core s) s).kept = s.kept := by
  unfold execCoreEccError; simp only [kept_base, keeps_askRestart]

theorem keeps_execIllegalInstruction (core : Nat) (s : State) :
    (after (execIllegalInstruction core s) s).kept = s.kept := by
  unfold execIllegalInstruction; simp only [kept_base, keeps_askRestart]

theorem keeps_execCoreRelease (core : Nat) (s : State) :
    (after (execCoreRelease core s) s).kept = s.kept := by
  unfold execCoreRelease; simp only [kept_base, keeps_modCcx, keeps_modCore]

theorem keeps_execComponentRunning (comp : Nat) (s : State) :
    (after (execComponentRunning comp s) s).kept = s.kept := by
  unfold execComponentRunning; simp only [kept_base, keeps_interruptedAll, keeps_modCore]

theorem keeps_execRunningTimeout (comp : Nat) (s : State) :
    (after (execRunningTimeout comp s) s).kept = s.kept := by
  unfold execRunningTimeout; simp only [kept_base, keeps_controlFault, keeps_offer]

theorem keeps_execTracePoint (comp : Nat) (group : Nat) (num : Nat) (args : List Byte) (busy : Bool) (s : State) :
    (after (execTracePoint comp group num args busy s) s).kept = s.kept := by
  unfold execTracePoint; simp only [kept_base, keeps_modCcx, keeps_wf]

theorem keeps_execLogMask (s : State) :
    (after (execLogMask s) s).kept = s.kept := by
  unfold execLogMask; simp only [kept_base, keeps_command, keeps_finish, keeps_modCcx]

theorem keeps_execLogRead (s : State) :
    (after (execLogRead s) s).kept = s.kept := by
  unfold execLogRead; simp only [kept_base, keeps_cmdOut, keeps_command]

theorem keeps_showFault (s : State) (kind : Nat) (scope : Nat) (sl : Nat) :
    (State.showFault s kind scope sl).kept = s.kept := by
  unfold State.showFault; simp only [keeps_bump, keeps_irq, keeps_wr]

theorem keeps_syncAlert (s : State) :
    (State.syncAlert s).kept = s.kept := by
  unfold State.syncAlert; simp only [kept_base]

theorem keeps_writeFault (s : State) (n : Nat) (cls : Nat) (tick : Nat) (e : FaultEv) (primary : Bool) (capture : Nat) :
    (State.writeFault s n cls tick e primary capture).kept = s.kept := by
  unfold State.writeFault; (repeat' (first
      | with_reducible refine kept_ite ?_ ?_
      | simp only [keeps_hfpEvt, keeps_modFsl, keeps_offer]
      | with_reducible refine ite_kept ?_ ?_
      | split))

theorem keeps_report (s : State) (n : Nat) (e : FaultEv) :
    (State.report s n e).kept = s.kept := by
  unfold State.report; simp only [keeps_showFault, keeps_writeFault]

theorem keeps_recoveryEnd (s : State) (n : Nat) (outcome : Nat) :
    (State.recoveryEnd s n outcome).kept = s.kept := by
  unfold State.recoveryEnd; simp only [keeps_report]

theorem keeps_containActs (s : State) (n : Nat) :
    (State.containActs s n).kept = s.kept := by
  unfold State.containActs; simp only [kept_base, keeps_emit, keeps_modFsl, keeps_refuseReq, keeps_stopPositions]

theorem keeps_startContain (s : State) (n : Nat) (stamp : Nat) (e : Option FaultEv) :
    (State.startContain s n stamp e).kept = s.kept := by
  unfold State.startContain; simp only [kept_base, keeps_bump16, keeps_containActs, keeps_modFsl]

theorem keeps_endTask (s : State) (n : Nat) (e : FaultEv) :
    (State.endTask s n e).kept = s.kept := by
  unfold State.endTask; (repeat' (first
      | with_reducible refine kept_ite ?_ ?_
      | simp only [keeps_cancelEntry, keeps_complete, keeps_dropTask, keeps_settleSuspend, keeps_syncSaveUse, keeps_withdrawFrom]
      | with_reducible refine ite_kept ?_ ?_
      | split))

theorem keeps_sliceFault (s : State) (n : Nat) (stamp : Nat) (e : FaultEv) :
    (State.sliceFault s n stamp e).kept = s.kept := by
  unfold State.sliceFault; simp only [kept_base, keeps_endTask, keeps_modFsl, keeps_showFault, keeps_startContain, keeps_writeFault]

theorem keeps_holdPorts (s : State) (ps : List Nat) :
    (State.holdPorts s ps).kept = s.kept := by
  unfold State.holdPorts; simp only [kept_base]

theorem keeps_countTimeout (s : State) (stamp : Nat) (port : Nat) :
    (State.countTimeout s stamp port).kept = s.kept := by
  unfold State.countTimeout; simp only [kept_base, keeps_holdPorts, keeps_report]

theorem keeps_faultEffect (s : State) (stamp : Nat) (e : FaultEv) :
    (State.faultEffect s stamp e).kept = s.kept := by
  unfold State.faultEffect; simp only [kept_base, keeps_countTimeout, keeps_emit, keeps_holdPorts, keeps_modFsl, keeps_offer, keeps_poisonGrains,
    keeps_showFault, keeps_sliceFault, keeps_syncAlert]

theorem keeps_linePoisonEffect (s : State) (stamp : Nat) (grain : Nat) (line : Nat) (port : Nat) (cause : Nat) :
    (State.linePoisonEffect s stamp grain line port cause).kept = s.kept := by
  unfold State.linePoisonEffect; simp only [kept_base, keeps_countPoison, keeps_raise, keeps_sliceFault]

theorem keeps_portDownEffect (s : State) (stamp : Nat) (port : Nat) (link : Nat) (reason : Nat) :
    (State.portDownEffect s stamp port link reason).kept = s.kept := by
  unfold State.portDownEffect; simp only [keeps_bump16, keeps_faultEffect, keeps_irq]

theorem keeps_portDegradeEffect (s : State) (stamp : Nat) (port : Nat) (link : Nat) (lanes : Nat) :
    (State.portDegradeEffect s stamp port link lanes).kept = s.kept := by
  unfold State.portDegradeEffect; simp only [keeps_bump16, keeps_faultEffect, keeps_irq]

theorem keeps_abortEffect (s : State) (n : Nat) (stamp : Nat) (x3 : Nat) (hops : Nat) (kind : Nat) (origin : Nat) :
    (State.abortEffect s n stamp x3 hops kind origin).kept = s.kept := by
  unfold State.abortEffect; simp only [keeps_faultEffect]

theorem keeps_abortSend (s : State) (n : Nat) (x : Nat) (kind : Nat) :
    (State.abortSend s n x kind).kept = s.kept := by
  unfold State.abortSend; (repeat' (first
      | with_reducible refine kept_ite ?_ ?_
      | simp only [keeps_sendAbort, keeps_setAbort]
      | with_reducible refine ite_kept ?_ ?_
      | split))

theorem keeps_endPodWork (s : State) (n : Nat) :
    (State.endPodWork s n).kept = s.kept := by
  unfold State.endPodWork; simp only [kept_base, keeps_abortStep, keeps_dropAccs, keeps_dropPromo, keeps_finish, keeps_modPod,
        keeps_podFailed]

theorem keeps_resetVfRegs (s : State) (v : Nat) :
    (State.resetVfRegs s v).kept = s.kept := by
  unfold State.resetVfRegs; simp only [kept_base]

theorem keeps_resetSlice (s : State) (n : Nat) (flr : Bool) :
    (State.resetSlice s n flr).kept = s.kept := by
  unfold State.resetSlice; (repeat' (first
      | with_reducible refine kept_ite ?_ ?_
      | simp only [kept_base, keeps_advanceGens, keeps_cancelSlice, keeps_emit, keeps_endPodWork, keeps_modFn,
        keeps_modFsl, keeps_resetVfRegs]
      | with_reducible refine ite_kept ?_ ?_
      | split))

theorem keeps_sliceResetEffect (s : State) (n : Nat) (cause : Nat) (stamp : Nat) (cmd : Option CmdRef) :
    (State.sliceResetEffect s n cause stamp cmd).kept = s.kept := by
  unfold State.sliceResetEffect; (repeat' (first
      | with_reducible refine kept_ite ?_ ?_
      | simp only [keeps_advanceGen, keeps_finish, keeps_modFsl, keeps_resetSlice, keeps_startContain]
      | with_reducible refine ite_kept ?_ ?_
      | split))

theorem keeps_leaveFault (s : State) (n : Nat) (status : Nat) (detail : Nat) :
    (State.leaveFault s n status detail).kept = s.kept := by
  unfold State.leaveFault; (repeat' (first
      | with_reducible refine kept_ite ?_ ?_
      | simp only [kept_base, keeps_emit, keeps_finish, keeps_modFn, keeps_modFsl, keeps_podPin, keeps_setAbort]
      | with_reducible refine ite_kept ?_ ?_
      | split))

theorem keeps_flushCpls (s : State) (n : Nat) (q : Nat) :
    (State.flushCpls s n q).kept = s.kept := by
  unfold State.flushCpls; simp only [kept_base, keeps_writeCpl]

theorem keeps_endPrimary (s : State) (n : Nat) (e : FaultEv) :
    (State.endPrimary s n e).kept = s.kept := by
  unfold State.endPrimary; (repeat' (first
      | with_reducible refine kept_ite ?_ ?_
      | simp only [kept_base, keeps_abortStep, keeps_complete, keeps_dropTask, keeps_endPass, keeps_flushCpls, keeps_syncSaveUse]
      | with_reducible refine ite_kept ?_ ?_
      | split))

theorem keeps_writePrimary (s : State) (n : Nat) (mode : Nat) :
    (State.writePrimary s n mode).kept = s.kept := by
  unfold State.writePrimary; (repeat' (first
      | with_reducible refine kept_ite ?_ ?_
      | simp only [kept_base, keeps_modFsl, keeps_writeFault]
      | with_reducible refine ite_kept ?_ ?_
      | split))

theorem keeps_holdSlice (s : State) (n : Nat) :
    (State.holdSlice s n).kept = s.kept := by
  unfold State.holdSlice; simp only [keeps_modFsl, keeps_recoveryEnd]

theorem keeps_afterCapture (s : State) (n : Nat) :
    (State.afterCapture s n).kept = s.kept := by
  unfold State.afterCapture; (repeat' (first
      | with_reducible refine kept_ite ?_ ?_
      | simp only [kept_base, keeps_holdSlice, keeps_modFsl, keeps_raise, keeps_report]
      | with_reducible refine ite_kept ?_ ?_
      | split
      | refine (foldl_kept _ (fun _ _ => ?_) _ _).trans ?_))

theorem keeps_execContained (n : Nat) (s : State) :
    (after (execContained n s) s).kept = s.kept := by
  unfold execContained; (repeat' (first
      | with_reducible refine kept_ite ?_ ?_
      | simp only [kept_base, keeps_afterCapture, keeps_cancelEntry, keeps_dropTask, keeps_endPrimary, keeps_modFsl, keeps_syncSaveUse,
        keeps_writePrimary]
      | with_reducible refine ite_kept ?_ ?_
      | split))

theorem keeps_execCaptureDone (n : Nat) (data : List Byte) (s : State) :
    (after (execCaptureDone n data s) s).kept = s.kept := by
  unfold execCaptureDone; (repeat' (first
      | with_reducible refine kept_ite ?_ ?_
      | simp only [kept_base, keeps_afterCapture, keeps_modFsl]
      | with_reducible refine ite_kept ?_ ?_
      | split))

theorem keeps_execAbortTick (n : Nat) (s : State) :
    (after (execAbortTick n s) s).kept = s.kept := by
  unfold execAbortTick; simp only [kept_base, keeps_containActs]

theorem keeps_execEngineStopAck (cl : Nat) (s : State) :
    (after (execEngineStopAck cl s) s).kept = s.kept := by
  unfold execEngineStopAck; simp only [kept_base, keeps_modFsl]

theorem keeps_execClusterReset (cl : Nat) (s : State) :
    (after (execClusterReset cl s) s).kept = s.kept := by
  unfold execClusterReset; (repeat' (first
      | with_reducible refine kept_ite ?_ ?_
      | simp only [kept_base, keeps_emit, keeps_modFsl]
      | with_reducible refine ite_kept ?_ ?_
      | split))

theorem keeps_execClusterOutOfService (cl : Nat) (s : State) :
    (after (execClusterOutOfService cl s) s).kept = s.kept := by
  unfold execClusterOutOfService; (repeat' (first
      | with_reducible refine kept_ite ?_ ?_
      | simp only [kept_base, keeps_modCluster, keeps_modFsl]
      | with_reducible refine ite_kept ?_ ?_
      | split))

theorem keeps_markGroup (s : State) (die : Nat) (g : Nat) (bad : Bool) :
    (State.markGroup s die g bad).kept = s.kept := by
  unfold State.markGroup; simp only [kept_base]

theorem keeps_dieFail (s : State) (die : Nat) (g : Nat) (mask : Nat) :
    (State.dieFail s die g mask).kept = s.kept := by
  unfold State.dieFail; simp only [kept_base, keeps_markGroup, keeps_modCluster, keeps_modFsl, keeps_raiseFault]

theorem keeps_retrained (s : State) (t : Retrain) (ports : List Nat) (ok : Bool) :
    (State.retrained s t ports ok).kept = s.kept := by
  unfold State.retrained; (repeat' (first
      | with_reducible refine kept_ite ?_ ?_
      | simp only [kept_base, keeps_dieFail, keeps_markGroup, keeps_modFsl, keeps_raiseFault]
      | with_reducible refine ite_kept ?_ ?_
      | split))

theorem keeps_execRetrainDone (kind : Nat) (idx : Nat) (k : Nat) (ok : Bool) (s : State) :
    (after (execRetrainDone kind idx k ok s) s).kept = s.kept := by
  unfold execRetrainDone; simp only [kept_base, keeps_releaseHeld, keeps_retrained]

theorem keeps_execSliceResetEnd (n : Nat) (failed : Nat) (s : State) :
    (after (execSliceResetEnd n failed s) s).kept = s.kept := by
  unfold execSliceResetEnd; (repeat' (first
      | with_reducible refine kept_ite ?_ ?_
      | simp only [kept_base, keeps_finish, keeps_holdSlice, keeps_leaveFault, keeps_modCluster, keeps_modFn, keeps_modFsl, keeps_pumpHost,
        keeps_recoveryEnd]
      | with_reducible refine ite_kept ?_ ?_
      | split))

theorem keeps_execRecoveryPhaseTimeout (n : Nat) (s : State) :
    (after (execRecoveryPhaseTimeout n s) s).kept = s.kept := by
  unfold execRecoveryPhaseTimeout; (repeat' (first
      | with_reducible refine kept_ite ?_ ?_
      | simp only [kept_base, keeps_holdSlice, keeps_modFsl, keeps_syncSaveUse, keeps_writePrimary]
      | with_reducible refine ite_kept ?_ ?_
      | split))

theorem keeps_failDevice (s : State) (at' : Nat) :
    (State.failDevice s at').kept = s.kept := by
  unfold State.failDevice; simp only [kept_base, keeps_containActs, keeps_irq, keeps_syncAlert, keeps_wf]

theorem keeps_blockSlice (s : State) (n : Nat) :
    (State.blockSlice s n).kept = s.kept := by
  unfold State.blockSlice; simp only [kept_base, keeps_complete, keeps_dropAccs, keeps_dropTask, keeps_endDma, keeps_endPass, keeps_endPodWork,
    keeps_glistAnswer, keeps_modCluster, keeps_modPod, keeps_settleSuspend, keeps_syncSaveUse]

theorem keeps_blockEffect (s : State) (stamp : Nat) :
    (State.blockEffect s stamp).kept = s.kept := by
  unfold State.blockEffect; simp only [kept_base, keeps_blockSlice, keeps_clearStale, keeps_closeFabric, keeps_containActs,
        keeps_emptyBanks, keeps_failDevice, keeps_irq, keeps_modCore, keeps_modGrain, keeps_rollback, keeps_syncAlert, keeps_syncSaveUse,
        keeps_writeBack]

theorem keeps_execBlockResetReady (s : State) :
    (after (execBlockResetReady s) s).kept = s.kept := by
  unfold execBlockResetReady; simp only [kept_base, keeps_failDevice, keeps_irq, keeps_leaveFault, keeps_podPin, keeps_pumpHost, keeps_readTurn,
    keeps_recoveryEnd, keeps_releaseHeld, keeps_resumeSuspended, keeps_showFault, keeps_startWork, keeps_syncAlert, keeps_wf, keeps_writeFault,
    keeps_writePrimary]

theorem keeps_execBlockReadyTimeout (s : State) :
    (after (execBlockReadyTimeout s) s).kept = s.kept := by
  unfold execBlockReadyTimeout; simp only [kept_base, keeps_failDevice]

theorem keeps_execEngineHang (cl : Nat) (engine : Nat) (ticks : Nat) (instr : Nat) (s : State) :
    (after (execEngineHang cl engine ticks instr s) s).kept = s.kept := by
  unfold execEngineHang; (repeat' (first
      | with_reducible refine kept_ite ?_ ?_
      | simp only [kept_base, keeps_raiseFault]
      | with_reducible refine ite_kept ?_ ?_
      | split))

theorem keeps_execMemTimeout (id : Nat) (addr : Nat) (sub : Nat) (s : State) :
    (after (execMemTimeout id addr sub s) s).kept = s.kept := by
  unfold execMemTimeout; (repeat' (first
      | with_reducible refine kept_ite ?_ ?_
      | simp only [kept_base, keeps_answer, keeps_raiseFault]
      | with_reducible refine ite_kept ?_ ?_
      | split))

theorem keeps_execDieFail (die : Nat) (m : Nat) (s : State) :
    (after (execDieFail die m s) s).kept = s.kept := by
  unfold execDieFail; simp only [kept_base, keeps_raiseFault]

theorem keeps_execUnitHang (unit : Nat) (s : State) :
    (after (execUnitHang unit s) s).kept = s.kept := by
  unfold execUnitHang; simp only [kept_base, keeps_raiseFault]

theorem keeps_execEngineError (cl : Nat) (engine : Nat) (code : Nat) (detail : Nat) (instr : Nat) (s : State) :
    (after (execEngineError cl engine code detail instr s) s).kept = s.kept := by
  unfold execEngineError; simp only [kept_base, keeps_raiseFault]

theorem keeps_execScratchUe (cl : Nat) (off : Nat) (s : State) :
    (after (execScratchUe cl off s) s).kept = s.kept := by
  unfold execScratchUe; simp only [kept_base, keeps_raiseFault]

theorem keeps_execCaptureMode (f : Nat) (s : State) :
    (after (execCaptureMode f s) s).kept = s.kept := by
  unfold execCaptureMode; simp only [kept_base, keeps_command, keeps_finish, keeps_modFsl]

theorem keeps_execCaptureRead (f : Nat) (s : State) :
    (after (execCaptureRead f s) s).kept = s.kept := by
  unfold execCaptureRead; (repeat' (first
      | with_reducible refine kept_ite ?_ ?_
      | simp only [kept_base, keeps_cmdOut]
      | with_reducible refine ite_kept ?_ ?_
      | with_reducible refine keeps_command _ _ _ _ _ (fun _ _ => ?_)
      | split))

theorem keeps_execSliceReset (f : Nat) (s : State) :
    (after (execSliceReset f s) s).kept = s.kept := by
  unfold execSliceReset; simp only [kept_base, keeps_command, keeps_raise]

theorem keeps_resetBlock (s : State) (cold : Bool) (cause : Nat) :
    (State.resetBlock s cold cause).kept.pending = s.kept.pending ∧ (State.resetBlock s cold cause).kept.otp = s.kept.otp := by
  unfold State.resetBlock; refine ⟨?_, ?_⟩ <;> simp only [kept_base, kept_parts, keeps_lcRecord, keeps_wr]

theorem keeps_endReset (s : State) :
    (State.endReset s).kept = s.kept := by
  unfold State.endReset; simp only [kept_base, keeps_drawn, keeps_raise, keeps_senseLc]

theorem keeps_warmReset (s : State) (cause : Nat) :
    (State.warmReset s cause).kept.pending = s.kept.pending ∧ (State.warmReset s cause).kept.otp = s.kept.otp := by
  unfold State.warmReset; refine ⟨?_, ?_⟩ <;> simp only [kept_base, kept_parts, keeps_resetBlock]

theorem keeps_latchedReset (s : State) :
    (State.latchedReset s).kept.pending = s.kept.pending ∧ (State.latchedReset s).kept.otp = s.kept.otp := by
  unfold State.latchedReset; refine ⟨?_, ?_⟩ <;> simp only [kept_base, kept_parts, keeps_endReset, keeps_resetBlock]

theorem keeps_execColdReset (s : State) :
    (after (execColdReset s) s).kept.pending = s.kept.pending ∧ (after (execColdReset s) s).kept.otp = s.kept.otp := by
  unfold execColdReset; refine ⟨?_, ?_⟩ <;> simp only [kept_base, kept_parts, keeps_resetBlock]

theorem keeps_execPorstRelease (s : State) :
    (after (execPorstRelease s) s).kept = s.kept := by
  unfold execPorstRelease; simp only [kept_base, keeps_endReset]

theorem keeps_execWarmReset (s : State) :
    (after (execWarmReset s) s).kept.pending = s.kept.pending ∧ (after (execWarmReset s) s).kept.otp = s.kept.otp := by
  unfold execWarmReset; refine ⟨?_, ?_⟩ <;> simp only [kept_base, kept_parts, keeps_warmReset]

theorem keeps_execWrstRelease (s : State) :
    (after (execWrstRelease s) s).kept = s.kept := by
  unfold execWrstRelease; simp only [kept_base, keeps_endReset]

theorem keeps_execFuseBitDone (ok : Bool) (s : State) :
    (after (execFuseBitDone ok s) s).kept.pending = s.kept.pending := by
  unfold execFuseBitDone; simp only [kept_base, kept_parts, keeps_fuseBit, keeps_latchedReset]

theorem keeps_supply (s : State) (k : Nat) :
    (State.supply s k).kept = s.kept := by
  unfold State.supply; simp only [keeps_raise]

theorem keeps_supplyEffect (s : State) (stamp : Nat) (k : Nat) :
    (State.supplyEffect s stamp k).kept = s.kept := by
  unfold State.supplyEffect; simp only [kept_base, keeps_irq, keeps_offer, keeps_syncAlert]

theorem keeps_supplyHold (s : State) (cause : Nat) :
    (State.supplyHold s cause).kept.pending = s.kept.pending ∧ (State.supplyHold s cause).kept.otp = s.kept.otp := by
  unfold State.supplyHold; refine ⟨?_, ?_⟩ <;> simp only [kept_parts, keeps_offer, keeps_warmReset]

theorem keeps_execSecBackup (s : State) :
    (after (execSecBackup s) s).kept = s.kept := by
  unfold execSecBackup; simp only [kept_base, keeps_supply]

theorem keeps_execSecMain (s : State) :
    (after (execSecMain s) s).kept = s.kept := by
  unfold execSecMain; simp only [kept_base, keeps_endReset, keeps_supply]

theorem keeps_execBackupTimeout (s : State) :
    (after (execBackupTimeout s) s).kept.pending = s.kept.pending ∧ (after (execBackupTimeout s) s).kept.otp = s.kept.otp := by
  unfold execBackupTimeout; refine ⟨?_, ?_⟩ <;> (repeat' (first
      | with_reducible refine kept_ite ?_ ?_
      | simp only [kept_base, kept_parts, keeps_supplyHold]
      | with_reducible refine ite_kept ?_ ?_
      | split))

theorem keeps_execVllyWarn (below : Bool) (s : State) :
    (after (execVllyWarn below s) s).kept = s.kept := by
  unfold execVllyWarn; simp only [kept_base, keeps_supply]

theorem keeps_execVddLlyLoss (s : State) :
    (after (execVddLlyLoss s) s).kept.pending = s.kept.pending ∧ (after (execVddLlyLoss s) s).kept.otp = s.kept.otp := by
  unfold execVddLlyLoss; refine ⟨?_, ?_⟩ <;> simp only [kept_base, kept_parts, keeps_resetBlock]

theorem keeps_execSecureDomainLost (s : State) :
    (after (execSecureDomainLost s) s).kept = s.kept := by
  unfold execSecureDomainLost; simp only [kept_base]

theorem keeps_execSecureDomainPowerUp (s : State) :
    (after (execSecureDomainPowerUp s) s).kept.pending = s.kept.pending ∧ (after (execSecureDomainPowerUp s) s).kept.otp = s.kept.otp := by
  unfold execSecureDomainPowerUp; refine ⟨?_, ?_⟩ <;> simp only [kept_base, kept_parts, keeps_endReset, keeps_resetBlock]

theorem keeps_execSensorReport (die : Nat) (temp : Nat) (power : Nat) (s : State) :
    (after (execSensorReport die temp power s) s).kept = s.kept := by
  unfold execSensorReport; simp only [kept_base, keeps_supply]

theorem keeps_useSystemKey (s : State) :
    (State.useSystemKey s).kept = s.kept := by
  unfold State.useSystemKey; simp only [keeps_raiseIndex, keeps_useKey]

theorem keeps_execVaultSelfTestDone (s : State) :
    (after (execVaultSelfTestDone s) s).kept = s.kept := by
  unfold execVaultSelfTestDone; simp only [kept_base, keeps_deriveAlias, keeps_deriveIdentity, keeps_useSystemKey]

theorem keeps_execCarveoutInitDone (s : State) :
    (after (execCarveoutInitDone s) s).kept = s.kept := by
  unfold execCarveoutInitDone; simp only [kept_base, keeps_emit]

theorem keeps_execMemoryClearDone (bad : List Nat) (s : State) :
    (after (execMemoryClearDone bad s) s).kept = s.kept := by
  unfold execMemoryClearDone; simp only [kept_base, keeps_emit, keeps_irq, keeps_offer, keeps_useSystemKey]

theorem keeps_execFwReady (s : State) :
    (after (execFwReady s) s).kept.pending = s.kept.pending ∧ (after (execFwReady s) s).kept.otp = s.kept.otp ∧
      (after (execFwReady s) s).kept.defs = s.kept.defs ∧ (after (execFwReady s) s).kept.halted = s.kept.halted ∧
      (after (execFwReady s) s).kept.tick = s.kept.tick := by
  unfold execFwReady; refine ⟨?_, ?_, ?_, ?_, ?_⟩ <;> simp only [kept_base, kept_parts, keeps_irq, keeps_pumpHost, keeps_raiseFault,
    keeps_releaseHeld, keeps_wf]

theorem keeps_execUnitIdle (_unit : Nat) (s : State) :
    (after (execUnitIdle _unit s) s).kept = s.kept := by
  unfold execUnitIdle; simp only [kept_base]

theorem keeps_setPark (s : State) (n : Nat) (p : ParkSt) :
    (State.setPark s n p).kept = s.kept := by
  unfold State.setPark; simp only [kept_base]

theorem keeps_execRetentionDone (n : Nat) (s : State) :
    (after (execRetentionDone n s) s).kept = s.kept := by
  unfold execRetentionDone; (repeat' (first
      | with_reducible refine kept_ite ?_ ?_
      | simp only [kept_base, keeps_modFn, keeps_resumeSuspended, keeps_setPark]
      | with_reducible refine ite_kept ?_ ?_
      | split))

theorem keeps_tellPark (s : State) (n : Nat) (on : Bool) :
    (State.tellPark s n on).kept = s.kept := by
  unfold State.tellPark; simp only [kept_base, keeps_emit, keeps_setPark, keeps_withdrawReads]

theorem keeps_askDeep (s : State) :
    (State.askDeep s).kept = s.kept := by
  unfold State.askDeep; simp only [kept_base, keeps_tellPark, keeps_wf]

theorem keeps_writeSrcCtl (s : State) (v : Nat) :
    (State.writeSrcCtl s v).kept = s.kept := by
  unfold State.writeSrcCtl; simp only [kept_base, keeps_askDeep, keeps_wr]

theorem keeps_execDeepReq (s : State) :
    (after (execDeepReq s) s).kept = s.kept := by
  unfold execDeepReq; simp only [kept_base, keeps_askDeep, keeps_gated]

theorem keeps_execDeepEntryDone (s : State) :
    (after (execDeepEntryDone s) s).kept = s.kept := by
  unfold execDeepEntryDone; simp only [kept_base, keeps_clearStale, keeps_closeDebug, keeps_closeFabric, keeps_dropPromo, keeps_modGrain,
        keeps_modPod, keeps_offer, keeps_scrubFrom, keeps_setPark, keeps_writeBack]

theorem keeps_execWake (s : State) :
    (after (execWake s) s).kept = s.kept := by
  unfold execWake; simp only [kept_base, keeps_wakeUp]

theorem keeps_wakeDone (s : State) (periods : Nat) (wake : Nat) :
    (State.wakeDone s periods wake).kept.pending = s.kept.pending ∧ (State.wakeDone s periods wake).kept.otp = s.kept.otp ∧
      (State.wakeDone s periods wake).kept.defs = s.kept.defs ∧ (State.wakeDone s periods wake).kept.halted = s.kept.halted ∧
      (State.wakeDone s periods wake).kept.fwReady = s.kept.fwReady := by
  unfold State.wakeDone; refine ⟨?_, ?_, ?_, ?_, ?_⟩ <;> simp only [kept_base, kept_parts, keeps_irq, keeps_loadKey, keeps_offer, keeps_podPin, keeps_raiseFault,
        keeps_releaseHeld, keeps_startWork, keeps_tellPark, keeps_wf]

end Sys2Proof.Laws
end

