-- ==== Sys2Proof/Laws/KeepsRest.lean ====
section
/-! SUPPORT. What the operations of Machine/Pins, Recorder, HostData, Registers keep: the queue of commands, the fuses, the slices in force, the halt,
the count and LLY_HFP_READY.FW, each but where a lemma leaves one out. -/

set_option maxRecDepth 4000

namespace Sys2Proof.Laws

open Sys2Proof.Machine

theorem keeps_loadTap (s : State) (op : Nat) :
    (State.loadTap s op).kept.pending = s.kept.pending ∧ (State.loadTap s op).kept.otp = s.kept.otp := by
  unfold State.loadTap; refine ⟨?_, ?_⟩ <;> simp only [kept_base, kept_parts, keeps_endReset, keeps_warmReset]

theorem keeps_execExtest (s : State) :
    (after (execExtest s) s).kept.pending = s.kept.pending ∧ (after (execExtest s) s).kept.otp = s.kept.otp := by
  unfold execExtest; refine ⟨?_, ?_⟩ <;> simp only [kept_base, keeps_loadTap]

theorem keeps_execClamp (s : State) :
    (after (execClamp s) s).kept.pending = s.kept.pending ∧ (after (execClamp s) s).kept.otp = s.kept.otp := by
  unfold execClamp; refine ⟨?_, ?_⟩ <;> simp only [kept_base, keeps_loadTap]

theorem keeps_execHighz (s : State) :
    (after (execHighz s) s).kept.pending = s.kept.pending ∧ (after (execHighz s) s).kept.otp = s.kept.otp := by
  unfold execHighz; refine ⟨?_, ?_⟩ <;> simp only [kept_base, keeps_loadTap]

theorem keeps_execInstructionLoad (op : Nat) (s : State) :
    (after (execInstructionLoad op s) s).kept.pending = s.kept.pending ∧ (after (execInstructionLoad op s) s).kept.otp = s.kept.otp := by
  unfold execInstructionLoad; refine ⟨?_, ?_⟩ <;> simp only [kept_base, keeps_loadTap]

theorem keeps_execTapReset (s : State) :
    (after (execTapReset s) s).kept.pending = s.kept.pending ∧ (after (execTapReset s) s).kept.otp = s.kept.otp := by
  unfold execTapReset; refine ⟨?_, ?_⟩ <;> simp only [kept_base, keeps_loadTap]

theorem keeps_execEntdaa (a : Nat) (s : State) :
    (after (execEntdaa a s) s).kept = s.kept := by
  unfold execEntdaa; simp only [kept_base, keeps_emit]

theorem keeps_execHdrEntry (s : State) :
    (after (execHdrEntry s) s).kept = s.kept := by
  unfold execHdrEntry; simp only [kept_base]

theorem keeps_execHdrExit (s : State) :
    (after (execHdrExit s) s).kept = s.kept := by
  unfold execHdrExit; simp only [kept_base]

theorem keeps_execMctpControl (cmd : Nat) (data : List Byte) (s : State) :
    (after (execMctpControl cmd data s) s).kept = s.kept := by
  unfold execMctpControl; simp only [kept_base, keeps_emit, keeps_wakeUp]

theorem keeps_execRecordWrite (s : State) :
    (after (execRecordWrite s) s).kept = s.kept := by
  unfold execRecordWrite; (repeat' (first
      | with_reducible refine kept_ite ?_ ?_
      | simp only [kept_base, keeps_irq]
      | with_reducible refine ite_kept ?_ ?_
      | split))

theorem keeps_selRecord (s : State) (src : Nat) (i : Nat) :
    (State.selRecord s src i).kept = s.kept := by
  unfold State.selRecord; simp only [kept_base, keeps_wr]

theorem keeps_execEvrSelWrite (src : Nat) (i : Nat) (s : State) :
    (after (execEvrSelWrite src i s) s).kept = s.kept := by
  unfold execEvrSelWrite; simp only [kept_base, keeps_gated, keeps_selRecord]

theorem keeps_recEv (s : State) (b : EvBody) :
    (State.recEv s b).kept = s.kept := by
  unfold State.recEv; simp only [keeps_raise]

theorem keeps_execFreeze (s : State) :
    (after (execFreeze s) s).kept = s.kept := by
  unfold execFreeze; simp only [kept_base, keeps_commandIf, keeps_recEv]

theorem keeps_execUnfreeze (s : State) :
    (after (execUnfreeze s) s).kept = s.kept := by
  unfold execUnfreeze; simp only [kept_base, keeps_commandIf, keeps_recEv]

theorem keeps_freezeEffect (s : State) (stamp : Nat) (cmd : Option CmdRef) :
    (State.freezeEffect s stamp cmd).kept = s.kept := by
  unfold State.freezeEffect; (repeat' (first
      | with_reducible refine kept_ite ?_ ?_
      | simp only [kept_base, keeps_finish]
      | with_reducible refine ite_kept ?_ ?_
      | split))

theorem keeps_thawEffect (s : State) (stamp : Nat) (cmd : Option CmdRef) :
    (State.thawEffect s stamp cmd).kept = s.kept := by
  unfold State.thawEffect; (repeat' (first
      | with_reducible refine kept_ite ?_ ?_
      | simp only [kept_base, keeps_finish, keeps_offer]
      | with_reducible refine ite_kept ?_ ?_
      | split))

theorem keeps_execClear (s : State) :
    (after (execClear s) s).kept = s.kept := by
  unfold execClear; simp only [kept_base, keeps_commandIf, keeps_recEv]

theorem keeps_clearEffect (s : State) (cmd : Option CmdRef) :
    (State.clearEffect s cmd).kept = s.kept := by
  unfold State.clearEffect; simp only [kept_base, keeps_finish]

theorem keeps_execClearDone (s : State) :
    (after (execClearDone s) s).kept = s.kept := by
  unfold execClearDone; simp only [kept_base, keeps_finish]

theorem keeps_execRecRead (s : State) :
    (after (execRecRead s) s).kept = s.kept := by
  unfold execRecRead; simp only [kept_base, keeps_cmdOut, keeps_command, keeps_finish]

theorem keeps_podHostError (s : State) (n : Nat) (addr : Nat) :
    (State.podHostError s n addr).kept = s.kept := by
  unfold State.podHostError; simp only [keeps_raiseFault]

theorem keeps_failDma (s : State) (sl : Nat) (q : Nat) (moved : Option Nat) :
    (State.failDma s sl q moved).kept = s.kept := by
  unfold State.failDma; simp only [kept_base]

theorem keeps_dmaCame (s : State) (a : HostAcc) (upTo : Nat) :
    (State.dmaCame s a upTo).kept = s.kept := by
  unfold State.dmaCame; (repeat' (first
      | with_reducible refine kept_ite ?_ ?_
      | simp only [keeps_dmaWrite]
      | with_reducible refine ite_kept ?_ ?_
      | split))

theorem keeps_hostDone (s : State) (a : HostAcc) :
    (State.hostDone s a).kept = s.kept := by
  unfold State.hostDone; (repeat' (first
      | with_reducible refine kept_ite ?_ ?_
      | simp only [keeps_dataAnswer, keeps_dmaCame, keeps_fwAnswer, keeps_glistAnswer, keeps_modFetch, keeps_modQueue, keeps_outAnswer,
        keeps_recordIn, keeps_ringAnswer]
      | with_reducible refine ite_kept ?_ ?_
      | split))

theorem keeps_hostFailed (s : State) (a : HostAcc) (off : Nat) :
    (State.hostFailed s a off).kept = s.kept := by
  unfold State.hostFailed; (repeat' (first
      | with_reducible refine kept_ite ?_ ?_
      | simp only [keeps_dataAnswer, keeps_dmaCame, keeps_failDma, keeps_failTurn, keeps_fwAnswer, keeps_glistAnswer,
        keeps_hostError, keeps_modFetch, keeps_modQueue, keeps_outAnswer, keeps_podEv, keeps_podHostError, keeps_putOver, keeps_recordIn,
        keeps_ringAnswer]
      | with_reducible refine ite_kept ?_ ?_
      | split))

theorem keeps_execHostCompletion (tag : Nat) (stat : Nat) (data : List Byte) (s : State) :
    (after (execHostCompletion tag stat data s) s).kept = s.kept := by
  unfold execHostCompletion; (repeat' (first
      | with_reducible refine kept_ite ?_ ?_
      | simp only [kept_base, keeps_answerReq, keeps_dmaCame, keeps_hostDone, keeps_hostFailed, keeps_pumpHost]
      | with_reducible refine ite_kept ?_ ?_
      | split))

theorem keeps_execTickLoRead (f : Nat) (src : Nat) (s : State) :
    (after (execTickLoRead f src s) s).kept = s.kept := by
  unfold execTickLoRead; simp only [kept_base, keeps_answerRead, keeps_wr]

theorem keeps_readClear (s : State) (src : Nat) (a : Nat) (hi : Nat) (lo : Nat) :
    (State.readClear s src a hi lo).kept = s.kept := by
  unfold State.readClear; simp only [kept_base, keeps_answerRead, keeps_wf]

theorem keeps_readClear32 (s : State) (src : Nat) (a : Nat) :
    (State.readClear32 s src a).kept = s.kept := by
  unfold State.readClear32; simp only [keeps_readClear]

theorem keeps_execSpnDeferRead (src : Nat) (s : State) :
    (after (execSpnDeferRead src s) s).kept = s.kept := by
  unfold execSpnDeferRead; simp only [kept_base, keeps_readClear32]

theorem keeps_execBndDenyCntRead (src : Nat) (s : State) :
    (after (execBndDenyCntRead src s) s).kept = s.kept := by
  unfold execBndDenyCntRead; simp only [kept_base, keeps_readClear32]

theorem keeps_execMcePoisonCntRead (src : Nat) (s : State) :
    (after (execMcePoisonCntRead src s) s).kept = s.kept := by
  unfold execMcePoisonCntRead; simp only [kept_base, keeps_readClear32]

theorem keeps_execMceCeccCntRead (src : Nat) (s : State) :
    (after (execMceCeccCntRead src s) s).kept = s.kept := by
  unfold execMceCeccCntRead; simp only [kept_base, keeps_readClear32]

theorem keeps_execMceTagcMissRead (src : Nat) (s : State) :
    (after (execMceTagcMissRead src s) s).kept = s.kept := by
  unfold execMceTagcMissRead; simp only [kept_base, keeps_readClear32]

theorem keeps_execTcuMissCntRead (src : Nat) (s : State) :
    (after (execTcuMissCntRead src s) s).kept = s.kept := by
  unfold execTcuMissCntRead; simp only [kept_base, keeps_readClear32]

theorem keeps_execFldAbandonRead (src : Nat) (s : State) :
    (after (execFldAbandonRead src s) s).kept = s.kept := by
  unfold execFldAbandonRead; simp only [kept_base, keeps_readClear32]

theorem keeps_execPcmHuskFailRead (src : Nat) (s : State) :
    (after (execPcmHuskFailRead src s) s).kept = s.kept := by
  unfold execPcmHuskFailRead; simp only [kept_base, keeps_readClear32]

theorem keeps_execPcmFactorUeRead (src : Nat) (s : State) :
    (after (execPcmFactorUeRead src s) s).kept = s.kept := by
  unfold execPcmFactorUeRead; simp only [kept_base, keeps_readClear32]

theorem keeps_execBwrLateRead (src : Nat) (s : State) :
    (after (execBwrLateRead src s) s).kept = s.kept := by
  unfold execBwrLateRead; simp only [kept_base, keeps_readClear32]

theorem keeps_execFpcEvcntRead (src : Nat) (s : State) :
    (after (execFpcEvcntRead src s) s).kept = s.kept := by
  unfold execFpcEvcntRead; simp only [kept_base, keeps_readClear32]

theorem keeps_execFpcLnkcntRead (src : Nat) (s : State) :
    (after (execFpcLnkcntRead src s) s).kept = s.kept := by
  unfold execFpcLnkcntRead; simp only [kept_base, keeps_readClear32]

theorem keeps_execFpcRetryRead (src : Nat) (s : State) :
    (after (execFpcRetryRead src s) s).kept = s.kept := by
  unfold execFpcRetryRead; simp only [kept_base, keeps_readClear32]

theorem keeps_execFpcAbortRead (src : Nat) (s : State) :
    (after (execFpcAbortRead src s) s).kept = s.kept := by
  unfold execFpcAbortRead; simp only [kept_base, keeps_readClear32]

theorem keeps_execVltRemaskRead (src : Nat) (s : State) :
    (after (execVltRemaskRead src s) s).kept = s.kept := by
  unfold execVltRemaskRead; simp only [kept_base, keeps_readClear32]

theorem keeps_execVltTrngRead (src : Nat) (s : State) :
    (after (execVltTrngRead src s) s).kept = s.kept := by
  unfold execVltTrngRead; simp only [kept_base, keeps_readClear]

theorem keeps_execHfpStaleRead (f : Nat) (src : Nat) (s : State) :
    (after (execHfpStaleRead f src s) s).kept = s.kept := by
  unfold execHfpStaleRead; simp only [kept_base, keeps_answerRead, keeps_modFn]

theorem keeps_execMbxDropRead (f : Nat) (src : Nat) (s : State) :
    (after (execMbxDropRead f src s) s).kept = s.kept := by
  unfold execMbxDropRead; simp only [kept_base, keeps_answerRead, keeps_readClear32, keeps_wr]

theorem keeps_execCcxRestartsRead (src : Nat) (s : State) :
    (after (execCcxRestartsRead src s) s).kept = s.kept := by
  unfold execCcxRestartsRead; simp only [kept_base, keeps_readClear32]

theorem keeps_execCcxLogRead (src : Nat) (s : State) :
    (after (execCcxLogRead src s) s).kept = s.kept := by
  unfold execCcxLogRead; simp only [kept_base, keeps_readClear]

theorem keeps_execFltCountRead (src : Nat) (s : State) :
    (after (execFltCountRead src s) s).kept = s.kept := by
  unfold execFltCountRead; simp only [kept_base, keeps_readClear32]

theorem keeps_writeIrqEn (s : State) (v : Nat) :
    (State.writeIrqEn s v).kept = s.kept := by
  unfold State.writeIrqEn; simp only [kept_base, keeps_signal, keeps_wr]

theorem keeps_execIrqEnWrite (src : Nat) (v : Nat) (s : State) :
    (after (execIrqEnWrite src v s) s).kept = s.kept := by
  unfold execIrqEnWrite; simp only [kept_base, keeps_gated, keeps_writeIrqEn]

theorem keeps_writePlain (s : State) (a : Nat) (v : Nat) :
    (State.writePlain s a v).kept = s.kept := by
  unfold State.writePlain; simp only [kept_base, keeps_stageReg, keeps_wr]

theorem keeps_writePf (s : State) (src : Nat) (a : Nat) (v : Nat) :
    (State.writePf s src a v).kept = s.kept := by
  unfold State.writePf; simp only [kept_base, keeps_selGrain, keeps_selKey, keeps_selRecord, keeps_selSum, keeps_selWalk, keeps_writeChkMode,
    keeps_writeCommit, keeps_writeCqHead, keeps_writeFpcCtl, keeps_writeGo, keeps_writeInject, keeps_writeIrqEn, keeps_writeLcCtrl,
    keeps_writeMbxCfg, keeps_writePlain, keeps_writeSqTail, keeps_writeSrcCtl]

theorem keeps_writeMsix (s : State) (f : Nat) (e : Nat) (k : Nat) (v : Nat) :
    (State.writeMsix s f e k v).kept = s.kept := by
  unfold State.writeMsix; simp only [kept_base, keeps_maskVector, keeps_modFn]

theorem keeps_pfWrite (s : State) (src : Nat) (a : Nat) (v : Nat) :
    (State.pfWrite s src a v).kept = s.kept := by
  unfold State.pfWrite; simp only [kept_base, keeps_accErr, keeps_gated, keeps_writeMsix, keeps_writePf]

theorem keeps_writeVf (s : State) (f : Nat) (off : Nat) (v : Nat) :
    (State.writeVf s f off v).kept = s.kept := by
  unfold State.writeVf; (repeat' (first
      | with_reducible refine kept_ite ?_ ?_
      | simp only [keeps_modQueue, keeps_selQueue, keeps_wf, keeps_writeCqHead, keeps_writeCqh, keeps_writeDoorbell, keeps_writeMbxCfg,
        keeps_writePlain, keeps_writeSqTail]
      | with_reducible refine ite_kept ?_ ?_
      | split))

theorem keeps_vfWrite (s : State) (f : Nat) (off : Nat) (v : Nat) :
    (State.vfWrite s f off v).kept = s.kept := by
  unfold State.vfWrite; simp only [kept_base, keeps_gatedCfg, keeps_gatedVf, keeps_writeMsix, keeps_writeVf]

theorem keeps_execRegisterWrite (src : Nat) (f : Nat) (off : Nat) (be : Nat) (v : Nat) (s : State) :
    (after (execRegisterWrite src f off be v s) s).kept = s.kept := by
  unfold execRegisterWrite; simp only [kept_base, keeps_accErr, keeps_pfWrite, keeps_vfWrite]

theorem keeps_applyHeld (s : State) (h : Nat × Nat × Nat) :
    (State.applyHeld s h).kept = s.kept := by
  unfold State.applyHeld; (repeat' (first
      | with_reducible refine kept_ite ?_ ?_
      | simp only [keeps_flr, keeps_maskVector, keeps_pf0Flr, keeps_pfWrite, keeps_setVfs, keeps_vfWrite, keeps_writeConfig, keeps_writeMsix]
      | with_reducible refine ite_kept ?_ ?_
      | split))

theorem keeps_execWakeDone (periods : Nat) (wake : Nat) (s : State) :
    (after (execWakeDone periods wake s) s).kept.pending = s.kept.pending ∧ (after (execWakeDone periods wake s) s).kept.otp = s.kept.otp ∧
      (after (execWakeDone periods wake s) s).kept.defs = s.kept.defs ∧ (after (execWakeDone periods wake s) s).kept.halted = s.kept.halted ∧
      (after (execWakeDone periods wake s) s).kept.fwReady = s.kept.fwReady := by
  unfold execWakeDone; refine ⟨?_, ?_, ?_, ?_, ?_⟩ <;> simp only [kept_base, kept_parts, keeps_applyHeld, keeps_pumpHost, keeps_wakeDone]

theorem keeps_ddpResult (s : State) (op : Nat) (addr : Nat) (data : Nat) (st : Nat) :
    (State.ddpResult s op addr data st).kept = s.kept := by
  unfold State.ddpResult; simp only [kept_base, keeps_emit]

theorem keeps_ddpFrame (s : State) (f : State → State) (hf : ∀ s, (f s).kept = s.kept) :
    (State.ddpFrame s f).kept = s.kept := by
  unfold State.ddpFrame; simp only [kept_base, keeps_emit, hf]

theorem keeps_execDdpStatus (s : State) :
    (after (execDdpStatus s) s).kept = s.kept := by
  unfold execDdpStatus; simp only [kept_base, keeps_ddpFrame, keeps_ddpResult]

theorem keeps_execDdpRead (a : Nat) (s : State) :
    (after (execDdpRead a s) s).kept = s.kept := by
  unfold execDdpRead; simp only [kept_base, keeps_ddpFrame, keeps_ddpResult, keeps_modFn, keeps_wr]

theorem keeps_execDdpWrite (a : Nat) (v : Nat) (s : State) :
    (after (execDdpWrite a v s) s).kept = s.kept := by
  unfold execDdpWrite; simp only [kept_base, keeps_ddpFrame, keeps_ddpResult, keeps_pfWrite]

theorem keeps_execDdpCoreDebug (c : Nat) (r : Nat) (wr : Bool) (v : Nat) (s : State) :
    (after (execDdpCoreDebug c r wr v s) s).kept = s.kept := by
  unfold execDdpCoreDebug; simp only [kept_base, keeps_ddpFrame, keeps_ddpResult, keeps_enterRequest, keeps_modCore]

end Sys2Proof.Laws
end

