-- ==== Sys2Proof/Laws/KeepsSpindle.lean ====
section
/-! SUPPORT. What the operations of Machine/Spindle keep: the queue of commands, the fuses, the slices in force, the halt,
the count and LLY_HFP_READY.FW, each but where a lemma leaves one out. -/

set_option maxRecDepth 4000

namespace Sys2Proof.Laws

open Sys2Proof.Machine

theorem keeps_zeroiseAll (s : State) :
    (State.zeroiseAll s).kept = s.kept := by
  unfold State.zeroiseAll; simp only [kept_base]

theorem keeps_haltEffect (s : State) (stamp : Nat) (source : Nat) (port : Nat) (tag : Nat) (grain : Nat) (line : Nat) :
    (State.haltEffect s stamp source port tag grain line).kept.pending = s.kept.pending ∧
      (State.haltEffect s stamp source port tag grain line).kept.otp = s.kept.otp ∧
      (State.haltEffect s stamp source port tag grain line).kept.defs = s.kept.defs ∧
      (State.haltEffect s stamp source port tag grain line).kept.tick = s.kept.tick ∧
      (State.haltEffect s stamp source port tag grain line).kept.fwReady = s.kept.fwReady := by
  unfold State.haltEffect; refine ⟨?_, ?_, ?_, ?_, ?_⟩ <;> simp only [kept_base, kept_parts, keeps_closeFabric, keeps_finish, keeps_offer,
        keeps_tdispErrors, keeps_wr, keeps_zeroiseAll]

theorem keeps_setAlign (s : State) (a : AlignSt) :
    (State.setAlign s a).kept = s.kept := by
  unfold State.setAlign; simp only [kept_base, keeps_irq]

theorem keeps_syncAlign (s : State) (old : State) :
    (State.syncAlign s old).kept = s.kept := by
  unfold State.syncAlign; simp only [kept_base, keeps_setAlign]

theorem keeps_commitEvent (s : State) (b : Nat) (stamp : Nat) :
    (State.commitEvent s b stamp).kept.pending = s.kept.pending ∧ (State.commitEvent s b stamp).kept.otp = s.kept.otp ∧
      (State.commitEvent s b stamp).kept.halted = s.kept.halted ∧ (State.commitEvent s b stamp).kept.tick = s.kept.tick ∧
      (State.commitEvent s b stamp).kept.fwReady = s.kept.fwReady := by
  have h : (State.commitEvent s b stamp).kept = s.kept ∨ (State.commitEvent s b stamp).kept = (s.commitEffect b (stamp + 2) stamp).kept := by
    unfold State.commitEvent
    split
    · exact .inl rfl
    · refine .inr ((foldl_kept _ (fun t p => ?_) _ _).trans (keeps_syncAlign ..))
      exact (keeps_sendPortCredits ..).trans (foldl_kept _ (fun t l => kept_ite
        (foldl_kept _ (fun t h => foldl_kept _ (fun t v => keeps_creditTx ..) _ _) _ _) rfl) _ _)
  rcases h with h | h <;> simp only [h, keeps_commitEffect, and_self]

theorem keeps_commitRefused (s : State) (b : Nat) (stamp : Nat) (f : CheckFail) :
    (State.commitRefused s b stamp f).kept = s.kept := by
  unfold State.commitRefused; simp only [kept_base, keeps_failCommit, keeps_offer]

theorem keeps_leaveDecided (s : State) (n : Nat) (q : Nat) (entry : Nat) (stamp : Nat) (d : List Byte) (nums : List Nat) :
    (State.leaveDecided s n q entry stamp d nums).kept = s.kept := by
  unfold State.leaveDecided; simp only [kept_base, keeps_leaveEffect, keeps_offer]

theorem keeps_keyRetired (s : State) (k : Nat) :
    (State.keyRetired s k).kept = s.kept := by
  unfold State.keyRetired; simp only [kept_base, keeps_modKey]

theorem keeps_scrubStep (s : State) (g : Nat) (src : GState) (dst : GrainE → GrainE) :
    (State.scrubStep s g src dst).kept = s.kept := by
  unfold State.scrubStep; simp only [kept_base, keeps_modGrain]

theorem keeps_applyEvent (s : State) (e : Eff) :
    (State.applyEvent s e).kept.pending = s.kept.pending ∧ (State.applyEvent s e).kept.otp = s.kept.otp ∧
      (State.applyEvent s e).kept.tick = s.kept.tick ∧ (State.applyEvent s e).kept.fwReady = s.kept.fwReady := by
  unfold State.applyEvent; refine ⟨?_, ?_, ?_, ?_⟩ <;> (repeat' (first
      | with_reducible refine kept_ite ?_ ?_
      | simp only [kept_base, kept_parts, keeps_abortEffect, keeps_abortSend, keeps_advanceGens, keeps_blockEffect,
        keeps_chalTaken, keeps_claimEffect, keeps_clearEffect, keeps_commitEvent, keeps_commitRefused, keeps_doorbellEffect,
        keeps_doorbellSubmit, keeps_faultEffect, keeps_freezeEffect, keeps_giveBackEffect, keeps_goEffect, keeps_haltEffect,
        keeps_joinEffect, keeps_keyRetired, keeps_leaseEnd, keeps_leaveDecided, keeps_linePoisonEffect, keeps_modQueue, keeps_podApply,
        keeps_poisonGrains, keeps_portDegradeEffect, keeps_portDownEffect, keeps_preemptEffect, keeps_queueEffect, keeps_releaseEffect,
        keeps_restartEffect, keeps_saveTaskEffect, keeps_scrubFrom, keeps_scrubStep, keeps_sessionEffect, keeps_sliceResetEffect,
        keeps_supplyEffect, keeps_tailEffect, keeps_thawEffect]
      | with_reducible refine ite_kept ?_ ?_
      | split))

theorem keeps_sampled (s : State) :
    (State.sampled s).kept = s.kept := by
  unfold State.sampled; simp only [kept_base]

theorem keeps_applyEff (s : State) (e : Eff) :
    (State.applyEff s e).kept.pending = s.kept.pending ∧ (State.applyEff s e).kept.otp = s.kept.otp ∧
      (State.applyEff s e).kept.tick = s.kept.tick ∧ (State.applyEff s e).kept.fwReady = s.kept.fwReady := by
  unfold State.applyEff; refine ⟨?_, ?_, ?_, ?_⟩ <;> simp only [kept_base, kept_parts, keeps_applyEvent]

theorem keeps_applyDue (s : State) :
    (State.applyDue s).kept.pending = s.kept.pending ∧ (State.applyDue s).kept.otp = s.kept.otp ∧ (State.applyDue s).kept.tick = s.kept.tick ∧
      (State.applyDue s).kept.fwReady = s.kept.fwReady := by
  have h : ∀ (l : List Eff) (s : State), (l.foldl (fun s e => s.applyEff e) s).kept.pending = s.kept.pending
      ∧ (l.foldl (fun s e => s.applyEff e) s).kept.otp = s.kept.otp ∧ (l.foldl (fun s e => s.applyEff e) s).kept.tick = s.kept.tick
      ∧ (l.foldl (fun s e => s.applyEff e) s).kept.fwReady = s.kept.fwReady := fun l s =>
    ⟨foldl_same (fun s : State => s.kept.pending) _ (fun s e => (keeps_applyEff s e).1) l s,
     foldl_same (fun s : State => s.kept.otp) _ (fun s e => (keeps_applyEff s e).2.1) l s,
     foldl_same (fun s : State => s.kept.tick) _ (fun s e => (keeps_applyEff s e).2.2.1) l s,
     foldl_same (fun s : State => s.kept.fwReady) _ (fun s e => (keeps_applyEff s e).2.2.2) l s⟩
  unfold State.applyDue
  dsimp only
  split
  · simp only [keeps_zeroiseAll]; exact h _ _
  · exact h _ _

theorem later_keeps (p : Deciding) (t due : Nat) (e : Ev) (nums : List Nat) : (p.later t due e nums).real.kept = p.real.kept := rfl

theorem pushAt_keeps (p : Deciding) (t due : Nat) (e : Ev) (nums : List Nat) : (p.pushAt t due e nums).real.kept = p.real.kept := by
  unfold Deciding.pushAt; simp only [kept_base, keeps_raise]

theorem push_keeps (p : Deciding) (t : Nat) (e : Ev) (nums : List Nat) : (p.push t e nums).real.kept = p.real.kept := pushAt_keeps ..

theorem origin_keeps (p : Deciding) (t n k : Nat) : (p.origin t n k).real.kept = p.real.kept := by
  unfold Deciding.origin; split
  · exact pushAt_keeps ..
  · rfl

theorem deciding_fold {α : Type} (f : Deciding → α → Deciding) (h : ∀ p a, (f p a).real.kept = p.real.kept) (l : List α) (p : Deciding) :
    (l.foldl f p).real.kept = p.real.kept := foldl_same (fun p => p.real.kept) f h l p

theorem decide_keeps (p : Deciding) (t : Nat) (e : Ev) : (p.decide t e).real.kept = p.real.kept := by
  unfold Deciding.decide Deciding.blockReset Deciding.commit Deciding.leave
  dsimp only
  (repeat' (first
      | rfl
      | simp only [push_keeps]
      | exact (deciding_fold _ (fun p x => origin_keeps ..) _ _).trans (later_keeps ..)
      | exact deciding_fold _ (fun p x => origin_keeps ..) _ _
      | split))

theorem carry_keeps (p : Deciding) (t : Nat) (x : Bool × Ev) : (p.carry t x).real.kept = p.real.kept := by
  unfold Deciding.carry
  split
  · exact push_keeps ..
  · rfl

theorem carriedOn_keeps (p : Deciding) (t : Nat) (x : Bool × Ev) : (p.carriedOn t x).real.kept = p.real.kept := by
  unfold Deciding.carriedOn
  split <;> simp only [push_keeps, decide_keeps]

theorem keeps_decideStamp (s : State) (t : Nat) (events : List Ev) (flagged : List Ev) (carried : List (Bool × Ev)) :
    (State.decideStamp s t events flagged carried).kept = s.kept := by
  have fold : ∀ (l : List Ev) (p : Deciding), (l.foldl (fun p e => p.decide t e) p).real.kept = p.real.kept :=
    deciding_fold _ (fun p e => decide_keeps p t e)
  have foldOn : ∀ (l : List (Bool × Ev)) (p : Deciding), (l.foldl (fun p x => p.carriedOn t x) p).real.kept = p.real.kept :=
    deciding_fold _ (fun p x => carriedOn_keeps p t x)
  have foldC : ∀ (l : List (Bool × Ev)) (p : Deciding), (l.foldl (fun p x => p.carry t x) p).real.kept = p.real.kept :=
    deciding_fold _ (fun p x => carry_keeps p t x)
  unfold State.decideStamp
  simp only [fold, foldOn, foldC, kept_base, keeps_bump]

theorem keeps_sampleTick (s : State) :
    (State.sampleTick s).kept = s.kept := by
  unfold State.sampleTick; simp only [kept_base, keeps_bump, keeps_commitMiss, keeps_decideStamp, keeps_raise, keeps_sampled, keeps_setBank]

theorem keeps_audit (s : State) :
    (State.audit s).kept = s.kept := by
  unfold State.audit; simp only [kept_base, keeps_irq, keeps_raise, keeps_raiseFault, keeps_wf]

theorem keeps_slewTick (s : State) :
    (State.slewTick s).kept = s.kept := by
  unfold State.slewTick; simp only [kept_base, keeps_emit]

theorem keeps_moveData (s : State) :
    (State.moveData s).kept = s.kept := by
  unfold State.moveData; simp only [kept_base, keeps_dmaTick, keeps_foldTick, keeps_huskTick, keeps_scrubTick, keeps_walkTick]

theorem keeps_tickWork (s : State) :
    (State.tickWork s).kept = s.kept := by
  unfold State.tickWork; simp only [kept_base, keeps_audit, keeps_dmaBudgets, keeps_endSlot, keeps_fabTick, keeps_fillTokens,
        keeps_moveData, keeps_noteWaits, keeps_pumpBind, keeps_pumpBypass, keeps_pumpHost, keeps_slewTick]

theorem keeps_countTick (s : State) :
    (State.countTick s).kept.pending = s.kept.pending ∧ (State.countTick s).kept.otp = s.kept.otp ∧ (State.countTick s).kept.defs = s.kept.defs ∧
      (State.countTick s).kept.halted = s.kept.halted ∧ (State.countTick s).kept.fwReady = s.kept.fwReady := by
  unfold State.countTick; refine ⟨?_, ?_, ?_, ?_, ?_⟩ <;> simp only [kept_base, kept_parts]

theorem keeps_firstTick (s : State) :
    (State.firstTick s).kept.pending = s.kept.pending ∧ (State.firstTick s).kept.otp = s.kept.otp ∧ (State.firstTick s).kept.defs = s.kept.defs ∧
      (State.firstTick s).kept.halted = s.kept.halted ∧ (State.firstTick s).kept.fwReady = s.kept.fwReady := by
  unfold State.firstTick; refine ⟨?_, ?_, ?_, ?_, ?_⟩ <;> simp only [kept_base, kept_parts, keeps_countTick, keeps_offer]

theorem keeps_execTick (s : State) :
    (after (execTick s) s).kept.pending = s.kept.pending ∧ (after (execTick s) s).kept.otp = s.kept.otp := by
  unfold execTick; refine ⟨?_, ?_⟩ <;> simp only [kept_base, kept_parts, keeps_applyDue, keeps_countTick, keeps_firstTick,
        keeps_sampleTick, keeps_sendMsix, keeps_tickWork]

theorem keeps_epochEffect (s : State) (n : Nat) (heat : List Nat) :
    (State.epochEffect s n heat).kept.pending = s.kept.pending ∧ (State.epochEffect s n heat).kept.otp = s.kept.otp := by
  unfold State.epochEffect; refine ⟨?_, ?_⟩ <;> simp only [kept_base, kept_parts, keeps_admitPorts, keeps_closeEpoch, keeps_irq, keeps_lendGrant,
    keeps_pumpHost, keeps_supplyHold, keeps_syncAlert, keeps_wr]

theorem keeps_holdEpoch (s : State) :
    (State.holdEpoch s).kept = s.kept := by
  unfold State.holdEpoch; simp only [kept_base, keeps_endReset]

theorem keeps_execEpochBoundary (s : State) :
    (after (execEpochBoundary s) s).kept.pending = s.kept.pending ∧ (after (execEpochBoundary s) s).kept.otp = s.kept.otp := by
  unfold execEpochBoundary; refine ⟨?_, ?_⟩ <;> (repeat' (first
      | with_reducible refine kept_ite ?_ ?_
      | simp only [kept_base, kept_parts, keeps_epochEffect, keeps_holdEpoch]
      | with_reducible refine ite_kept ?_ ?_
      | split))

theorem keeps_stepBack (s : State) (k : Nat) :
    (State.stepBack s k).kept.pending = s.kept.pending ∧ (State.stepBack s k).kept.otp = s.kept.otp ∧
      (State.stepBack s k).kept.defs = s.kept.defs ∧ (State.stepBack s k).kept.halted = s.kept.halted ∧
      (State.stepBack s k).kept.fwReady = s.kept.fwReady := by
  unfold State.stepBack; refine ⟨?_, ?_, ?_, ?_, ?_⟩ <;> simp only [kept_base, kept_parts, keeps_wr]

theorem keeps_alignStep (s : State) (k : Int) :
    (State.alignStep s k).kept.pending = s.kept.pending ∧ (State.alignStep s k).kept.otp = s.kept.otp ∧
      (State.alignStep s k).kept.defs = s.kept.defs ∧ (State.alignStep s k).kept.halted = s.kept.halted ∧
      (State.alignStep s k).kept.fwReady = s.kept.fwReady := by
  unfold State.alignStep; refine ⟨?_, ?_, ?_, ?_, ?_⟩ <;> simp only [kept_base, kept_parts, keeps_offer, keeps_stepBack]

theorem keeps_execAlignTimer (s : State) :
    (after (execAlignTimer s) s).kept = s.kept := by
  unfold execAlignTimer; (repeat' (first
      | with_reducible refine kept_ite ?_ ?_
      | simp only [kept_base, keeps_sendFlit]
      | with_reducible refine ite_kept ?_ ?_
      | split))

theorem keeps_execAlignRequest (p : Nat) (l : Nat) (hdr : Nat) (t2 : Nat) (t3 : Nat) (ue : Bool) (tag : List Byte) (s : State) :
    (after (execAlignRequest p l hdr t2 t3 ue tag s) s).kept = s.kept := by
  unfold execAlignRequest; simp only [kept_base, keeps_emit, keeps_rxSystem, keeps_sendFlit]

theorem keeps_alignGood (s : State) (d : Int) (off : Int) :
    (State.alignGood s d off).kept.pending = s.kept.pending ∧ (State.alignGood s d off).kept.otp = s.kept.otp ∧
      (State.alignGood s d off).kept.defs = s.kept.defs ∧ (State.alignGood s d off).kept.halted = s.kept.halted ∧
      (State.alignGood s d off).kept.fwReady = s.kept.fwReady := by
  unfold State.alignGood; refine ⟨?_, ?_, ?_, ?_, ?_⟩ <;> (repeat' (first
      | with_reducible refine kept_ite ?_ ?_
      | simp only [kept_base, kept_parts, keeps_alignStep, keeps_setAlign]
      | with_reducible refine ite_kept ?_ ?_
      | split))

theorem keeps_alignLost (s : State) :
    (State.alignLost s).kept = s.kept := by
  unfold State.alignLost; simp only [kept_base, keeps_raiseFault, keeps_setAlign]

theorem keeps_execAlignResponse (p : Nat) (l : Nat) (hdr : Nat) (t1 : Nat) (t2 : Nat) (t3 : Nat) (t4 : Nat) (off : Int) (ue : Bool)
    (tag : List Byte) (s : State) :
    (after (execAlignResponse p l hdr t1 t2 t3 t4 off ue tag s) s).kept.pending = s.kept.pending ∧
      (after (execAlignResponse p l hdr t1 t2 t3 t4 off ue tag s) s).kept.otp = s.kept.otp ∧
      (after (execAlignResponse p l hdr t1 t2 t3 t4 off ue tag s) s).kept.defs = s.kept.defs ∧
      (after (execAlignResponse p l hdr t1 t2 t3 t4 off ue tag s) s).kept.halted = s.kept.halted ∧
      (after (execAlignResponse p l hdr t1 t2 t3 t4 off ue tag s) s).kept.fwReady = s.kept.fwReady := by
  unfold execAlignResponse; refine ⟨?_, ?_, ?_, ?_, ?_⟩ <;> simp only [kept_base, kept_parts, keeps_alignGood, keeps_alignLost, keeps_rxSystem]

theorem keeps_execAlignLost (s : State) :
    (after (execAlignLost s) s).kept = s.kept := by
  unfold execAlignLost; simp only [kept_base, keeps_alignLost]

end Sys2Proof.Laws
end

