-- ==== Sys2Proof/Laws/KeepsStep.lean ====
section
/-! SUPPORT. What the operations that a lemma of the files before leaves one thing out of do to that thing: the halt in a tick,
the count in a warm reset, and
the fuses in a burn; and what a kept state says of each of its parts. -/

namespace Sys2Proof.Laws

open Sys2Proof.Machine

/-- What `State.kept` stands for. -/
theorem kept_iff {s t : State} : t.kept = s.kept ↔ t.pending = s.pending ∧ t.lc.otp = s.lc.otp ∧ t.bnd.defs = s.bnd.defs ∧ t.mce.halted = s.mce.halted
    ∧ t.spn.tick = s.spn.tick ∧ t.hfp.fwReady = s.hfp.fwReady := by
  simp only [State.kept, Kept.mk.injEq]

/-! ## The halt stays through a tick -/

theorem haltEffect_halted (s : State)
    (stamp source port tag grain line : Nat) : (s.haltEffect stamp source port tag grain line).kept.halted = true := by
  unfold State.haltEffect
  split
  · assumption
  · simp only [kept_base, keeps_closeFabric, keeps_offer, keeps_tdispErrors, keeps_zeroiseAll]

theorem applyEvent_halted (s : State) (e : Eff) (h : s.kept.halted = true) : (s.applyEvent e).kept.halted = true := by
  unfold State.applyEvent
  (repeat' (first
      | exact h
      | exact haltEffect_halted ..
      | simp only [kept_base, kept_parts, keeps_abortEffect, keeps_abortSend, keeps_advanceGens, keeps_blockEffect, keeps_claimEffect, keeps_clearEffect,
        keeps_commitEvent, keeps_commitRefused, keeps_doorbellEffect, keeps_doorbellSubmit, keeps_faultEffect, keeps_freezeEffect, keeps_giveBackEffect, keeps_goEffect, keeps_joinEffect,
        keeps_keyRetired, keeps_leaseEnd, keeps_leaveDecided, keeps_linePoisonEffect, keeps_podApply, keeps_poisonGrains,
        keeps_portDegradeEffect, keeps_portDownEffect, keeps_preemptEffect, keeps_queueEffect, keeps_releaseEffect, keeps_restartEffect,
        keeps_saveTaskEffect, keeps_scrubFrom, keeps_scrubStep, keeps_sessionEffect, keeps_sliceResetEffect, keeps_supplyEffect, keeps_tailEffect, keeps_chalTaken, keeps_thawEffect, h]
      | split))

theorem applyEff_halted (s : State) (e : Eff) (h : s.kept.halted = true) : (s.applyEff e).kept.halted = true :=
  applyEvent_halted { s with spn := { s.spn with effs := s.spn.effs.erase e } } e h

theorem applyEffs_halted (l : List Eff) (s : State) (h : s.kept.halted = true) : (l.foldl (fun s e => s.applyEff e) s).kept.halted = true := by
  induction l generalizing s with
  | nil => exact h
  | cons e l ih => exact ih _ (applyEff_halted s e h)

theorem applyDue_halted (s : State) (h : s.kept.halted = true) : s.applyDue.kept.halted = true := by
  unfold State.applyDue
  dsimp only
  split <;> simp only [keeps_zeroiseAll, applyEffs_halted _ s h]

/-- No tick ends a security halt. -/
theorem execTick_halted (s : State) (h : s.mce.halted = true) : (after (execTick s) s).mce.halted = true := by
  show (after (execTick s) s).kept.halted = true
  have h : s.kept.halted = true := h
  unfold execTick
  split
  · exact h
  · split
    · exact h
    · simp only [kept_base, keeps_tickWork, keeps_sampleTick]
      exact applyDue_halted _ (by simp only [keeps_sendMsix, keeps_firstTick, h])

/-! ## A warm reset keeps the count -/

theorem resetBlock_tick (s : State) (cause : Nat) : (s.resetBlock false cause).kept.tick = s.kept.tick := by
  unfold State.resetBlock
  simp only [kept_parts, keeps_wr, kept_base, Bool.false_eq_true, if_false]
  split <;> simp only [keeps_lcRecord]

theorem warmReset_tick (s : State) (cause : Nat) : (s.warmReset cause).kept.tick = s.kept.tick := by
  unfold State.warmReset
  split
  · rfl
  · split
    · rfl
    · exact resetBlock_tick s cause

theorem latchedReset_tick (s : State) : s.latchedReset.kept.tick = s.kept.tick := by
  unfold State.latchedReset
  split
  · rfl
  · simp only [keeps_endReset, resetBlock_tick]

theorem supplyHold_tick (s : State) (cause : Nat) : (s.supplyHold cause).kept.tick = s.kept.tick := by
  simp only [State.supplyHold, warmReset_tick, keeps_offer]

theorem loadTap_tick (s : State) (op : Nat) : (s.loadTap op).kept.tick = s.kept.tick := by
  unfold State.loadTap
  dsimp only
  (repeat' split) <;> simp only [warmReset_tick, kept_base, keeps_endReset]

theorem epochEffect_tick (s : State) (n : Nat) (heat : List Nat) : (s.epochEffect n heat).kept.tick = s.kept.tick := by
  unfold State.epochEffect
  simp only [supplyHold_tick, kept_base, kept_parts, keeps_admitPorts, keeps_closeEpoch, keeps_irq, keeps_lendGrant, keeps_pumpHost,
    keeps_syncAlert, keeps_wr]

/-! ## Fuses burn forward -/

/-- A burnt bit joins those of its row; every other row is as it was. -/
theorem burnBit_otpRow (s : State) (r b k : Nat) :
    (s.burnBit r b).otpRow k = if k = r then (s.otpRow r ||| 2 ^ b) % 2 ^ 64 else s.otpRow k := by
  unfold State.burnBit
  simp only [State.otpRow, tget_tset]
  split
  · rw [BitVec.toNat_ofNat]
  · rfl

end Sys2Proof.Laws
end

