-- ==== Sys2Proof/Tests/Slice0.lean ====
section
/-! SUPPORT. Tests on small states: ill-formed terms that WellFormed refuses, single steps with results taken from the manual, and for each statement of
Certificates/Slice0/Obligations.lean states and operands that meet its hypotheses, clause by clause (`meets_<statement>_<n>`). -/

namespace Sys2Proof.Tests

open Machine

set_option Elab.async false

/-! ## Small states -/

/-- Bytes, with fields (offset, length, value) put in. -/
def bytes (n : Nat) (l : List (Nat × Nat × Nat)) : List Byte :=
  (List.range n).map (fun i => match l.find? (fun f => f.1 ≤ i && i < f.1 + f.2.1) with
    | some f => BitVec.ofNat 8 (f.2.2 / 2 ^ (8 * (i - f.1)))
    | none => 0)

/-- Slice 5, presented by VF 3, with clusters 0 and 1, KeyID 9, every stack, a quarter of memory and of folding. -/
def sl5 : SliceDef := ⟨5, 3, 0, 9, 16384, 3, 255, 0, 0, 16384, 0, 0, 0, 0⟩

/-- A running block at tick 100,000: the host link up with credits, firmware serving, slice 5 in force. -/
def run : State :=
  { State.reset with
    spn := { State.reset.spn with tick := 100000, started := true }
    bnd := { State.reset.bnd with defs := [(5, some sl5)] }
    mce := { State.reset.mce with keys := [(0, ⟨.system, 0xFF, 0, true, [], []⟩), (9, ⟨.active, 5, 1, true, [], []⟩)] }
    tpl := { State.reset.tpl with hostUp := true, hostGiven := 64, hostHeld := 64 }
    dpa := { State.reset.dpa with clusters := [(0, ⟨5, [], true, false, false, none, 0⟩), (1, ⟨5, [], true, false, false, none, 0⟩)] }
    hfp := ⟨[], true, 64, true, true⟩
    vlt := { State.reset.vlt with st := 3 }
    ccx := { State.reset.ccx with
      cores := [(0, ⟨.running, 0, 1, [], []⟩), (1, ⟨.running, 0, 2, [], []⟩), (2, ⟨.running, 0, 4, [], []⟩), (3, ⟨.running, 0, 24, [], []⟩)]
      active := some ⟨1, 1, 1, 1, []⟩ } }

/-- A command of function `f`, ready to start, with entry bytes. -/
def cmd (f op : Nat) (l : List (Nat × Nat × Nat)) : ExecCmd :=
  ⟨⟨f, false, 1, op, 1⟩, 0, 5, 3, 0, .ready, .none, false, 0, 0, [], false, false, 0, false, false, false, 0, bytes 64 l, []⟩

/-- `s` with `e` the one command of its function's mailbox. -/
def having (s : Machine.State) (e : ExecCmd) : Machine.State :=
  { s with mbx := [(e.ref.fn, { Mbx.init with on := true, depth := 16, exec := [e], major := 3 })] }

/-- The block runs, said so that it can be decided. -/
theorem runs_of {s : Machine.State} (h : s.inReset = false ∧ s.noTick = false ∧ s.src.deep = 0 ∧ s.hfp.cfgReady = true ∧ s.hfp.fwReady = true
    ∧ s.mce.halted = false ∧ s.mce.fenced = false ∧ s.flt.block = 0) : s.Runs :=
  ⟨h.1, h.2.1, h.2.2.1, h.2.2.2.1, h.2.2.2.2.1, h.2.2.2.2.2.1, h.2.2.2.2.2.2.1, h.2.2.2.2.2.2.2⟩

theorem run_runs : run.Runs := runs_of (by decide)

/-! ## Well-formed and ill-formed commands: one term of each row that WellFormed takes, and one it refuses for each of its checks -/

theorem test_well_formed_1 : ([
  .alignRequest 0 0 0 0 0 false [], .alignResponse 0 0 0 0 0 0 0 0 false [], .tickLoRead 0 0, .chkTickLoRead 0, 
    .memoryRequest 0 0 0 0 0 false 0 [] 0 0 0 none, .requestIssue 0 0 0, .memResponse 0 0 0 (List.replicate 32 0) 0 (List.replicate 256 0) 0, 
    .readDelivery 0 0 0, .failedRegion 0 0 0, .stackQueueLevelHold 0 0, .gtSelWrite 0 0, .chkCommitCheck 0, .chkCommitGo 0, .chkCommitCancel 0, 
    .checkDone 0, .keysetReady 0, .chkModeWrite 0, .scrubStart 0, .scrubDone 0 false, .rekeyGrainDone 0 0, .mceKselWrite 0 0, .mceWselWrite 0 0, 
    .tileRead 0 0 0 0 0 0 0 0 0, .dieCheckReport 0 0 0 0 0 0 0 0 0 0 0 0 0 false [] 0, .tcuInjectWrite 0, .inFlight 0 0, .copy 0 0, .step 0 0, 
    .reduce 0 0, .gatherEnd 0 0 0 0, .tileFoldDone 0 0 0, .passDone 0 0 0, .stepDone 0 0 0, .fetchStart 0, .huskKeyReady 0 0 false, 
    .fetchDone 0 0 false, .promotionDone 0 0, .huskWriteDone 0 0, .shelfUe 0, .factorEcc 0 0 0 0, .doorbell 0 0 0, .dpaCqhWrite 0 0 0, .qselWrite 0 0, 
    .run 0 0, .join 0 0, .leave 0 0, .toDevice 0 0, .toHost 0 0, .dmaDone 0 0, .placement 0, .taskEnd 0 false, .completionWrite 0 0 false, 
    .quantumExpiry 0, .saveDone 0, .restoreDone 0, .syncCounterSet 0 0 0, .refusals 0, .bwrReportRead 0, .audSelWrite 0 0, .bufferZeroed 0 0, 
    .hostCreditReturn 0, .hostLinkUp false 0, .hostCompletion 0 0 [], .trainingDone 0 0 0 false false, .trainingTimeout 0 0, .trainingRetry 0 0, 
    .fpcCtlRetrain 0, .statusWord 0 0 0 false 0 0 0 0, .mgmtLaneSilent 0 0, .laneFail 0 0 false 0, .degradeDone 0 0, .bypassOpen 0, .bypassClose 0] : List Instr).all (fun i => i.wf == true) = true := by decide +kernel

theorem test_well_formed_2 : ([
  .idle 0 0 0 false [], .sync 0 0 0 0 false [], .credit 0 0 0 0 [] false [], .rd 0 0 0 0 0 0 0 0 false [], .wr 0 0 0 0 0 0 0 0 [] false [], 
    .rdrsp 0 0 0 0 0 0 [] false [], .wrack 0 0 0 0 0 0 false [], .err 0 0 0 0 0 0 0 false [], .signal 0 0 0 0 0 0 0 false [], 
    .hello 0 0 0 0 0 false [], .confirm 0 0 0 [] false [], .keyxTimeout 0 0, .rekeyThreshold 0 0 false, .rekeyReq 0 0 0 0 false [], 
    .rekeyAck 0 0 0 0 false [], .rekeyTimeout 0 0, .counterLimit 0 0, .abort 0 0 0 0 0 0 0 0 0 [] false [], .abortTick 0, .entropyRetest false, 
    .challengeResponse 0, .getVersion 0, .getCapabilities 0 0, .negotiateAlgorithms 0 false, .getDigests 0, .getCertificate 0 0 0 0, 
    .spdmChallenge 0 0 (List.replicate 32 0), .getMeasurements 0 0 false (List.replicate 32 0), .keyExchange 0 0 [], .finish 0 0 [], .keyUpdate 0 0, 
    .heartbeat 0 0, .endSession 0 0, .spdmUnsupported 0, .getTdispVersion 0 0, .getTdispCapabilities 0 0, .lockInterfaceRequest 0 0, 
    .getDeviceInterfaceReport 0 0, .getDeviceInterfaceState 0 0, .startInterfaceRequest 0 0 (List.replicate 32 0), .stopInterfaceRequest 0 0, 
    .mctpControl 0 [], .fuseBitDone false, .ddpRead 0, .ddpWrite 0 0, .ddpCoreDebug 0 0 false 0, .vfEnable false 0, .configWrite 0 0 0, .flr 0, 
    .msixUnmask 0 0 false, .mbxCfgWrite 0 0, .sqTail 0 0, .mbxCqHeadWrite 0 0, .mbxCompletionWrite 0 false, .leaseExpiry 0, .negotiate 0, .attach 0, 
    .lease 0, .detach 0, .statementGet 0, .secretInstall 0, .challenge 0, .podOpen 0, .podQuery 0, .podPut 0, .podPin 0, .podUnpin 0, .podEvict 0, 
    .podClose 0, .podRebase 0, .podSetMode 0, .podKeyBind 0, .slotClaim 0] : List Instr).all (fun i => i.wf == true) = true := by decide +kernel

theorem test_well_formed_3 : ([
  .slotRelease 0, .expertClaim 0, .expertRelease 0, .queueCreate 0, .queueDestroy 0, .queueFlush 0, .suspend 0, .suspendSave 0, .resume 0, 
    .queueCounts 0, .captureMode 0, .captureRead 0, .sliceReset 0, .coreWatchdog 0, .mpuViolation 0 0 0, .coreEccError 0, .illegalInstruction 0, 
    .coreRelease 0, .componentRunning 0, .runningTimeout 0, .tracePoint 0 0 0 (List.replicate 16 0) false, .engineHang 0 0 0 0, .memTimeout 0 0 0, 
    .dieFail 0 0, .unitHang 0, .recoveryPhaseTimeout 0, .engineError 0 0 0 0 0, .scratchUe 0 0, .engineStopAck 0, .clusterReset 0, 
    .clusterOutOfService 0, .contained 0, .captureDone 0 [], .retrainDone 0 0 0 false, .sliceResetEnd 0 0, .vllyWarn false, .sensorReport 0 0 0, 
    .memoryClearDone [], .wakeDone 0 0, .unitIdle 0, .evrSelWrite 0 0, .irqEnWrite 0 0, .registerWrite 0 0 0 0 0, .spnDeferRead 0, .bndDenyCntRead 0, 
    .mcePoisonCntRead 0, .mceCeccCntRead 0, .mceTagcMissRead 0, .tcuMissCntRead 0, .fldAbandonRead 0, .pcmHuskFailRead 0, .pcmFactorUeRead 0, 
    .bwrLateRead 0, .fpcEvcntRead 0, .fpcLnkcntRead 0, .fpcRetryRead 0, .fpcAbortRead 0, .vltRemaskRead 0, .vltTrngRead 0, .hfpStaleRead 0 0, 
    .mbxDropRead 0 0, .ccxRestartsRead 0, .ccxLogRead 0, .fltCountRead 0, .retentionDone 0, .doeDiscovery 0 0, .entdaa 0, .instructionLoad 0, .tick, 
    .epochBoundary, .alignTimer, .alignLost, .blanksReady] : List Instr).all (fun i => i.wf == true) = true := by decide +kernel

theorem test_well_formed_4 : ([
  .waitLimitExpiry, .drainSaveDone, .clusterClearDone, .drainDone, .remask, .drbgReseed, .entropyFail, .glitch, .lockstepMismatch, .clockMonitorTrip, 
    .signingSlot, .go, .dbgOpen, .dbgClose, .newNonce, .debugVerifyDone, .extest, .clamp, .highz, .ddpStatus, .pf0Flr, .cfgReady, .fwReady, .dctlGo, 
    .sliceStage, .sliceDestroy, .grainStage, .check, .commit, .cancel, .keyFind, .imageBind, .imageLoadDone, .lcTransition, .debugCtlOpen, 
    .debugCtlClose, .freeze, .unfreeze, .clear, .clearDone, .recRead, .logMask, .logRead, .fwLoad, .fwUpdate, .quiesceEnd, .adopt, .rollback, 
    .blockResetReady, .blockReadyTimeout, .secBackup, .secMain, .backupTimeout, .vddLlyLoss, .secureDomainLost, .coldReset, .warmReset, .porstRelease, 
    .wrstRelease, .carveoutInitDone, .vaultSelfTestDone, .deepReq, .deepEntryDone, .wake, .recordWrite, .interleaveMarkerWriteDone, 
    .secureDomainPowerUp, .hdrEntry, .hdrExit, .tapReset] : List Instr).all (fun i => i.wf == true) = true := by decide +kernel

theorem test_ill_formed_1 : ([
  .alignRequest 8 0 0 0 0 false [], .alignRequest 0 4 0 0 0 false [], .alignRequest 0 0 (2 ^ 64) 0 0 false [], 
    .alignRequest 0 0 0 (2 ^ 74) 0 false [], .alignRequest 0 0 0 0 (2 ^ 74) false [], .alignResponse 8 0 0 0 0 0 0 0 false [], 
    .alignResponse 0 4 0 0 0 0 0 0 false [], .alignResponse 0 0 (2 ^ 64) 0 0 0 0 0 false [], .alignResponse 0 0 0 (2 ^ 74) 0 0 0 0 false [], 
    .alignResponse 0 0 0 0 (2 ^ 74) 0 0 0 false [], .alignResponse 0 0 0 0 0 (2 ^ 74) 0 0 false [], .alignResponse 0 0 0 0 0 0 (2 ^ 74) 0 false [], 
    .tickLoRead 65 0, .tickLoRead 0 6, .chkTickLoRead 6, .memoryRequest 0 9 0 0 0 false 0 [] 0 0 0 none, 
    .memoryRequest 0 0 256 0 0 false 0 [] 0 0 0 none, .memoryRequest 0 0 0 (2 ^ 48) 0 false 0 [] 0 0 0 none, 
    .memoryRequest 0 0 0 0 4097 false 0 [] 0 0 0 none, .memoryRequest 0 0 0 0 0 false 0 [] 256 0 0 none, 
    .memoryRequest 0 0 0 0 0 false 0 [] 0 (2 ^ 32) 0 none, .memoryRequest 0 0 0 0 0 false 0 [] 0 0 4096 none, 
    .memoryRequest 0 0 0 0 1 true 0 [] 0 0 0 none, .requestIssue 256 0 0, .requestIssue 0 8 0, .requestIssue 0 0 4096, 
    .memResponse 0 (2 ^ 48) 0 (List.replicate 32 0) 0 (List.replicate 256 0) 0, .memResponse 0 0 3 (List.replicate 32 0) 0 (List.replicate 256 0) 0, 
    .memResponse 0 0 0 (List.replicate 32 0) 3 (List.replicate 256 0) 0, .memResponse 0 0 0 (List.replicate 32 0) 0 (List.replicate 256 0) 4096, 
    .memResponse 0 0 0 [] 0 (List.replicate 256 0) 0, .memResponse 0 0 0 (List.replicate 32 0) 0 [] 0, .readDelivery 0 (2 ^ 48) 0, 
    .readDelivery 0 0 4096, .failedRegion 8 0 0, .failedRegion 0 301989888 0, .failedRegion 0 0 301989888, .failedRegion 0 1 0, 
    .stackQueueLevelHold 8 0, .stackQueueLevelHold 0 8, .gtSelWrite 6 0, .gtSelWrite 0 (2 ^ 24), .chkCommitCheck 2, .chkCommitGo 2, .chkCommitCancel 2, 
    .checkDone 2, .keysetReady 1024, .chkModeWrite (2 ^ 32), .scrubStart Instr.grains, .scrubDone Instr.grains false, .rekeyGrainDone 64 0, 
    .rekeyGrainDone 0 8, .mceKselWrite 6 0, .mceKselWrite 0 1024, .mceWselWrite 6 0, .mceWselWrite 0 64, .tileRead 0 64 0 0 0 0 0 0 0, 
    .tileRead 0 0 (2 ^ 48) 0 0 0 0 0 0, .tileRead 0 0 0 (2 ^ 48) 0 0 0 0 0, .tileRead 0 0 0 0 4 0 0 0 0, .tileRead 0 0 0 0 0 (2 ^ 32) 0 0 0, 
    .tileRead 0 0 0 0 0 0 (2 ^ 32) 0 0, .tileRead 0 0 0 0 0 0 0 16 0, .tileRead 0 0 0 0 0 0 0 0 65536, 
    .dieCheckReport 4 0 0 0 0 0 0 0 0 0 0 0 0 false [] 0, .dieCheckReport 0 64 0 0 0 0 0 0 0 0 0 0 0 false [] 0, 
    .dieCheckReport 0 0 4 0 0 0 0 0 0 0 0 0 0 false [] 0, .dieCheckReport 0 0 0 4096 0 0 0 0 0 0 0 0 0 false [] 0, 
    .dieCheckReport 0 0 0 0 65536 0 0 0 0 0 0 0 0 false [] 0, .dieCheckReport 0 0 0 0 0 (2 ^ 64) 0 0 0 0 0 0 0 false [] 0, 
    .dieCheckReport 0 0 0 0 0 0 (2 ^ 32) 0 0 0 0 0 0 false [] 0, .dieCheckReport 0 0 0 0 0 0 0 4 0 0 0 0 0 false [] 0, 
    .dieCheckReport 0 0 0 0 0 0 0 0 (2 ^ 32) 0 0 0 0 false [] 0] : List Instr).all (fun i => i.wf == false) = true := by decide +kernel

theorem test_ill_formed_2 : ([
  .dieCheckReport 0 0 0 0 0 0 0 0 0 (2 ^ 32) 0 0 0 false [] 0, .dieCheckReport 0 0 0 0 0 0 0 0 0 0 16 0 0 false [] 0, 
    .dieCheckReport 0 0 0 0 0 0 0 0 0 0 0 (2 ^ 32) 0 false [] 0, .dieCheckReport 0 0 0 0 0 0 0 0 0 0 0 0 (2 ^ 32) false [] 0, 
    .dieCheckReport 0 0 0 0 0 0 0 0 0 0 0 0 0 false [] 20, .tcuInjectWrite (2 ^ 32), .inFlight 64 0, .inFlight 0 4096, .copy 64 0, .copy 0 4096, 
    .step 64 0, .step 0 4096, .reduce 64 0, .reduce 0 4096, .gatherEnd 64 0 0 0, .gatherEnd 0 4096 0 0, .gatherEnd 0 0 0 (2 ^ 32), 
    .tileFoldDone 64 0 0, .tileFoldDone 0 4096 0, .passDone 64 0 0, .passDone 0 4096 0, .stepDone 64 0 0, .stepDone 0 4096 0, .fetchStart 64, 
    .huskKeyReady 64 0 false, .huskKeyReady 0 (2 ^ 32) false, .fetchDone 64 0 false, .fetchDone 0 (2 ^ 32) false, .promotionDone 64 0, 
    .promotionDone 0 (2 ^ 32), .huskWriteDone 64 0, .huskWriteDone 0 (2 ^ 32), .shelfUe 7168, .factorEcc 64 0 0 0, .factorEcc 0 4096 0 0, 
    .factorEcc 0 0 0 (2 ^ 32), .doorbell 64 0 0, .doorbell 0 4096 0, .doorbell 0 0 8192, .dpaCqhWrite 64 0 0, .dpaCqhWrite 0 4096 0, 
    .dpaCqhWrite 0 0 65536, .qselWrite 64 0, .qselWrite 0 4096, .run 64 0, .run 0 4096, .join 64 0, .join 0 4096, .leave 64 0, .leave 0 4096, 
    .toDevice 64 0, .toDevice 0 4096, .toHost 64 0, .toHost 0 4096, .dmaDone 64 0, .dmaDone 0 4096, .placement 64, .taskEnd 64 false, 
    .completionWrite 64 0 false, .completionWrite 0 4096 false, .quantumExpiry 64, .saveDone 64, .restoreDone 64, .syncCounterSet 64 0 0, 
    .syncCounterSet 0 256 0, .syncCounterSet 0 0 (2 ^ 64), .refusals 64, .bwrReportRead 64, .audSelWrite 6 0, .audSelWrite 0 (2 ^ 32), 
    .bufferZeroed 112 0, .bufferZeroed 0 256, .hostCreditReturn 4097] : List Instr).all (fun i => i.wf == false) = true := by decide +kernel

theorem test_ill_formed_3 : ([
  .hostLinkUp false 4097, .hostCompletion 4096 0 [], .hostCompletion 0 8 [], .trainingDone 8 0 0 false false, .trainingDone 0 4 0 false false, 
    .trainingDone 0 0 (2 ^ 32) false false, .trainingTimeout 8 0, .trainingTimeout 0 4, .trainingRetry 8 0, .trainingRetry 0 4, 
    .fpcCtlRetrain (2 ^ 32), .statusWord 8 0 0 false 0 0 0 0, .statusWord 0 4 0 false 0 0 0 0, .statusWord 0 0 16 false 0 0 0 0, 
    .statusWord 0 0 0 false 3 0 0 0, .statusWord 0 0 0 false 0 (2 ^ 32) 0 0, .statusWord 0 0 0 false 0 0 2 0, .statusWord 0 0 0 false 0 0 0 (2 ^ 32), 
    .mgmtLaneSilent 8 0, .mgmtLaneSilent 0 4, .laneFail 8 0 false 0, .laneFail 0 32 false 0, .degradeDone 8 0, .degradeDone 0 4, .bypassOpen 4, 
    .bypassClose 4, .idle 8 0 0 false [], .idle 0 4 0 false [], .idle 0 0 (2 ^ 64) false [], .sync 8 0 0 0 false [], .sync 0 4 0 0 false [], 
    .sync 0 0 (2 ^ 64) 0 false [], .sync 0 0 0 (2 ^ 40) false [], .credit 8 0 0 0 [] false [], .credit 0 4 0 0 [] false [], 
    .credit 0 0 (2 ^ 64) 0 [] false [], .credit 0 0 0 256 [] false [], .rd 8 0 0 0 0 0 0 0 false [], .rd 0 4 0 0 0 0 0 0 false [], 
    .rd 0 0 (2 ^ 64) 0 0 0 0 0 false [], .rd 0 0 0 (2 ^ 32) 0 0 0 0 false [], .rd 0 0 0 0 256 0 0 0 false [], .rd 0 0 0 0 0 65536 0 0 false [], 
    .rd 0 0 0 0 0 0 (2 ^ 48) 0 false [], .rd 0 0 0 0 0 0 0 65536 false [], .wr 8 0 0 0 0 0 0 0 [] false [], .wr 0 4 0 0 0 0 0 0 [] false [], 
    .wr 0 0 (2 ^ 64) 0 0 0 0 0 [] false [], .wr 0 0 0 (2 ^ 32) 0 0 0 0 [] false [], .wr 0 0 0 0 256 0 0 0 [] false [], 
    .wr 0 0 0 0 0 65536 0 0 [] false [], .wr 0 0 0 0 0 0 (2 ^ 48) 0 [] false [], .wr 0 0 0 0 0 0 0 65536 [] false [], .rdrsp 8 0 0 0 0 0 [] false [], 
    .rdrsp 0 4 0 0 0 0 [] false [], .rdrsp 0 0 (2 ^ 64) 0 0 0 [] false [], .rdrsp 0 0 0 (2 ^ 32) 0 0 [] false [], 
    .rdrsp 0 0 0 0 (2 ^ 48) 0 [] false [], .rdrsp 0 0 0 0 0 65536 [] false [], .wrack 8 0 0 0 0 0 false [], .wrack 0 4 0 0 0 0 false [], 
    .wrack 0 0 (2 ^ 64) 0 0 0 false [], .wrack 0 0 0 (2 ^ 32) 0 0 false [], .wrack 0 0 0 0 (2 ^ 48) 0 false [], .wrack 0 0 0 0 0 65536 false [], 
    .err 8 0 0 0 0 0 0 false [], .err 0 4 0 0 0 0 0 false [], .err 0 0 (2 ^ 64) 0 0 0 0 false [], .err 0 0 0 (2 ^ 32) 0 0 0 false [], 
    .err 0 0 0 0 256 0 0 false [], .err 0 0 0 0 0 (2 ^ 48) 0 false [], .err 0 0 0 0 0 0 65536 false [], .signal 8 0 0 0 0 0 0 false []] : List Instr).all (fun i => i.wf == false) = true := by decide +kernel

theorem test_ill_formed_4 : ([
  .signal 0 4 0 0 0 0 0 false [], .signal 0 0 (2 ^ 64) 0 0 0 0 false [], .signal 0 0 0 (2 ^ 32) 0 0 0 false [], .signal 0 0 0 0 256 0 0 false [], 
    .signal 0 0 0 0 0 65536 0 false [], .signal 0 0 0 0 0 0 (2 ^ 64) false [], .hello 8 0 0 0 0 false [], .hello 0 4 0 0 0 false [], 
    .hello 0 0 (2 ^ 64) 0 0 false [], .hello 0 0 0 (2 ^ 256) 0 false [], .hello 0 0 0 0 (2 ^ 32) false [], .confirm 8 0 0 [] false [], 
    .confirm 0 4 0 [] false [], .confirm 0 0 (2 ^ 64) [] false [], .keyxTimeout 8 0, .keyxTimeout 0 4, .rekeyThreshold 8 0 false, 
    .rekeyThreshold 0 4 false, .rekeyReq 8 0 0 0 false [], .rekeyReq 0 4 0 0 false [], .rekeyReq 0 0 (2 ^ 64) 0 false [], 
    .rekeyReq 0 0 0 (2 ^ 256) false [], .rekeyAck 8 0 0 0 false [], .rekeyAck 0 4 0 0 false [], .rekeyAck 0 0 (2 ^ 64) 0 false [], 
    .rekeyAck 0 0 0 (2 ^ 256) false [], .rekeyTimeout 8 0, .rekeyTimeout 0 4, .counterLimit 8 0, .counterLimit 0 4, 
    .abort 8 0 0 0 0 0 0 0 0 [] false [], .abort 0 4 0 0 0 0 0 0 0 [] false [], .abort 0 0 (2 ^ 64) 0 0 0 0 0 0 [] false [], 
    .abort 0 0 0 (2 ^ 32) 0 0 0 0 0 [] false [], .abort 0 0 0 0 256 0 0 0 0 [] false [], .abort 0 0 0 0 0 256 0 0 0 [] false [], 
    .abort 0 0 0 0 0 0 (2 ^ 64) 0 0 [] false [], .abort 0 0 0 0 0 0 0 (2 ^ 32) 0 [] false [], .abort 0 0 0 0 0 0 0 0 (2 ^ 32) [] false [], 
    .abortTick 64, .challengeResponse 64, .getVersion 2, .getCapabilities 2 0, .getCapabilities 0 256, .negotiateAlgorithms 2 false, .getDigests 2, 
    .getCertificate 2 0 0 0, .getCertificate 0 16 0 0, .getCertificate 0 0 65536 0, .getCertificate 0 0 0 65536, 
    .spdmChallenge 2 0 (List.replicate 32 0), .spdmChallenge 0 16 (List.replicate 32 0), .spdmChallenge 0 0 [], 
    .getMeasurements 2 0 false (List.replicate 32 0), .getMeasurements 0 256 false (List.replicate 32 0), .getMeasurements 0 0 true [], 
    .keyExchange 2 0 [], .keyExchange 0 16 [], .finish 2 0 [], .finish 0 (2 ^ 32) [], .keyUpdate 2 0, .keyUpdate 0 (2 ^ 32), .heartbeat 2 0, 
    .heartbeat 0 (2 ^ 32), .endSession 2 0, .endSession 0 (2 ^ 32), .spdmUnsupported 2, .getTdispVersion (2 ^ 32) 0, .getTdispVersion 0 65, 
    .getTdispCapabilities (2 ^ 32) 0, .getTdispCapabilities 0 65, .lockInterfaceRequest (2 ^ 32) 0, .lockInterfaceRequest 0 65] : List Instr).all (fun i => i.wf == false) = true := by decide +kernel

theorem test_ill_formed_5 : ([
  .getDeviceInterfaceReport (2 ^ 32) 0, .getDeviceInterfaceReport 0 65, .getDeviceInterfaceState (2 ^ 32) 0, .getDeviceInterfaceState 0 65, 
    .startInterfaceRequest (2 ^ 32) 0 (List.replicate 32 0), .startInterfaceRequest 0 65 (List.replicate 32 0), .startInterfaceRequest 0 0 [], 
    .stopInterfaceRequest (2 ^ 32) 0, .stopInterfaceRequest 0 65, .mctpControl 256 [], .ddpRead (2 ^ 24), .ddpWrite (2 ^ 24) 0, .ddpWrite 0 (2 ^ 32), 
    .ddpCoreDebug 4 0 false 0, .ddpCoreDebug 0 64 false 0, .ddpCoreDebug 0 0 false (2 ^ 32), .vfEnable false 65, .configWrite 65 0 0, 
    .configWrite 0 4096 0, .configWrite 0 0 (2 ^ 32), .flr 64, .msixUnmask 65 0 false, .msixUnmask 0 32 false, .mbxCfgWrite 65 0, 
    .mbxCfgWrite 0 (2 ^ 32), .sqTail 65 0, .sqTail 0 (2 ^ 32), .mbxCqHeadWrite 65 0, .mbxCqHeadWrite 0 (2 ^ 32), .mbxCompletionWrite 65 false, 
    .leaseExpiry 65, .negotiate 65, .attach 65, .lease 65, .detach 65, .statementGet 65, .secretInstall 65, .challenge 65, .podOpen 65, .podQuery 65, 
    .podPut 65, .podPin 65, .podUnpin 65, .podEvict 65, .podClose 65, .podRebase 65, .podSetMode 65, .podKeyBind 65, .slotClaim 65, .slotRelease 65, 
    .expertClaim 65, .expertRelease 65, .queueCreate 65, .queueDestroy 65, .queueFlush 65, .suspend 65, .suspendSave 65, .resume 65, .queueCounts 65, 
    .captureMode 65, .captureRead 65, .sliceReset 65, .coreWatchdog 4, .mpuViolation 4 0 0, .mpuViolation 0 5 0, .mpuViolation 0 0 (2 ^ 32), 
    .coreEccError 4, .illegalInstruction 4, .coreRelease 4, .componentRunning 5, .runningTimeout 5, .tracePoint 5 0 0 (List.replicate 16 0) false, 
    .tracePoint 0 64 0 (List.replicate 16 0) false] : List Instr).all (fun i => i.wf == false) = true := by decide +kernel

theorem test_ill_formed_6 : ([
  .tracePoint 0 0 65536 (List.replicate 16 0) false, .tracePoint 0 0 0 [] false, .engineHang 64 0 0 0, .engineHang 0 4 0 0, 
    .engineHang 0 0 0 (2 ^ 32), .memTimeout 0 (2 ^ 48) 0, .memTimeout 0 0 4096, .dieFail 4 0, .dieFail 0 20, .unitHang 17, .recoveryPhaseTimeout 64, 
    .engineError 64 0 0 0 0, .engineError 0 4 0 0 0, .engineError 0 0 256 0 0, .engineError 0 0 0 (2 ^ 32) 0, .engineError 0 0 0 0 (2 ^ 32), 
    .scratchUe 64 0, .scratchUe 0 (2 ^ 24), .engineStopAck 64, .clusterReset 64, .clusterOutOfService 64, .contained 64, .captureDone 64 [], 
    .retrainDone 4 0 0 false, .retrainDone 0 256 0 false, .retrainDone 0 0 20 false, .sliceResetEnd 64 0, .sliceResetEnd 0 (2 ^ 64), 
    .sensorReport 5 0 0, .sensorReport 0 256 0, .sensorReport 0 0 4096, .memoryClearDone [Instr.grains], .unitIdle 17, .evrSelWrite 6 0, 
    .evrSelWrite 0 65536, .irqEnWrite 6 0, .irqEnWrite 0 (2 ^ 32), .registerWrite 6 0 0 0 0, .registerWrite 0 65 0 0 0, 
    .registerWrite 0 0 (2 ^ 24) 0 0, .registerWrite 0 0 0 16 0, .registerWrite 0 0 0 0 (2 ^ 32), .spnDeferRead 6, .bndDenyCntRead 6, 
    .mcePoisonCntRead 6, .mceCeccCntRead 6, .mceTagcMissRead 6, .tcuMissCntRead 6, .fldAbandonRead 6, .pcmHuskFailRead 6, .pcmFactorUeRead 6, 
    .bwrLateRead 6, .fpcEvcntRead 6, .fpcLnkcntRead 6, .fpcRetryRead 6, .fpcAbortRead 6, .vltRemaskRead 6, .vltTrngRead 6, .hfpStaleRead 65 0, 
    .hfpStaleRead 0 6, .mbxDropRead 65 0, .mbxDropRead 0 6, .ccxRestartsRead 6, .ccxLogRead 6, .fltCountRead 6, .retentionDone 64, .doeDiscovery 256 0, 
    .entdaa 128, .instructionLoad 32] : List Instr).all (fun i => i.wf == false) = true := by decide +kernel

/-! ## Hypotheses met: registers -/

/-- One queue of slice 5: kind, depth, tail, turn and release point given. -/
def queue (k : QKind) (depth tail turn rel : Nat) : Queue :=
  ⟨k, depth, 1, false, 0x10000, 0x20000, 2, 1, 1, tail, turn, rel, [], 0, 0, tail, tail, 0, 0, 0, 0, false, [], false, none, false, false, false, [], [], false,
   [], none, 0, [], 0⟩

/-- `run` with `q` as queue 7 of slice 5. -/
def queued (q : Queue) : Machine.State := { run with dpa := { run.dpa with queues := [(qkey 5 7, some q)] } }

/-- A record of the event recorder. -/
def rec0 : EvrRec := ⟨1, 0, 0x52, 99, 0xFF, 0, 0, 1, []⟩

theorem meets_ReadsWithEffectsAnswer_1 : ∀ a ∈ [R.spnDefer, R.bndDenyCnt, R.mcePoisonCnt, R.mceCeccCnt, R.mceTagcMiss, R.tcuMissCnt, R.fldAbandon, R.pcmHuskFail,
    R.pcmFactorUe, R.bwrLate, R.fpcEvcnt, R.fpcLnkcnt, R.fpcRetry, R.fpcAbort, R.vltRemask, R.vltTrng, R.ccxRestarts, R.fltCount, R.spnTickLo, R.chkTickLo,
    R.ccxLog, R.hfpStale, R.mbxDrop], run.readable 0 a = true := by decide

theorem meets_ReadsWithEffectsAnswer_2 : run.exists 3 = true ∧ (run.presents 3).isSome = true ∧ run.exists 63 = true := by decide

theorem meets_ReadsWithEffectsAnswer_3 : (63 : Nat) < 64 ∧ (3 : Nat) < 64 ∧ run.exists 3 = true ∧ run.presents 3 = some 5
    ∧ tget (dflt none) { run.bwr with reports := [(5, some ⟨1, 2, 3, 4, true, false, 6⟩)] }.reports 5 = some ⟨1, 2, 3, 4, true, false, 6⟩ := by decide

theorem meets_SelectWritesLatchTheirView_1 : (∀ a ∈ [R.bndGtSel, R.mceKsel, R.mceWsel, R.audSel, R.evrSel], run.readable 0 a = true)
    ∧ nGrains - 1 < nGrains ∧ (1023 : Nat) < 1024 ∧ (63 : Nat) < 64 ∧ (15 : Nat) < 16
    ∧ { run with evr := { run.evr with mem := [rec0] } }.evr.mem[0]? = some rec0 := by decide

theorem meets_SelectWritesLatchTheirView_2 : let s := queued (queue .task 4096 3 0 0)
    (3 : Nat) < 64 ∧ s.exists 3 = true ∧ s.presents 3 = some 5 ∧ (7 : Nat) < 4096 ∧ s.queue 5 7 = some (queue .task 4096 3 0 0) := by decide

theorem meets_RegisterWritesReachTheirPlace_1 : rowAt 0x2080 = some ⟨0x2080, 16, 4, [⟨31, 0, .rw, 0, 0⟩]⟩ ∧ 0x2080 % 4 = 0
    ∧ 0x2080 ∉ [R.bndGtSel, R.mceKsel, R.mceWsel, R.audSel, R.evrSel, R.chkCommit, R.chkMode, R.tcuInject, R.fpcCtl, R.lcCtrl, R.mbxCfg, R.mbxSqTail,
      R.mbxCqHead, R.mbxDctl, R.srcCtl, R.irqEn] ∧ (rowAt 0x2080).isSome = true ∧ (14 : Nat) < 15 := by decide

theorem meets_UnmappedOffsetsReadZeroAndDropWrites_1 : rowAt 0xFFFFFC = none ∧ 0xFFFFFC % 4 = 0 ∧ 0xFFFFFC < 2 ^ 24 ∧ ¬ (0x800000 ≤ 0xFFFFFC ∧ 0xFFFFFC < 0x800200)
    ∧ 0xFFFFFC ≠ 0x801000 ∧ 0xFFFFFC ≠ 0x801004 := by decide

theorem meets_UnmappedOffsetsReadZeroAndDropWrites_2 : findRow vfRegs 0x3FFFC = none ∧ 0x3FFFC % 4 = 0 ∧ 0x3FFFC < 2 ^ 18 ∧ ¬ (0x20000 ≤ 0x3FFFC ∧ 0x3FFFC < 0x20200) := by
  decide

/-- `run` in DEV with debug open and the debug port's instruction loaded. -/
def dev : Machine.State :=
  { run with lc := { run.lc with idx := 17, debug := true }, src := { run.src with otpSensed := true }, pins := { run.pins with tapInstr := 0x10 } }

theorem meets_DebugTapAndSidebandAnswer_1 : dev.Runs ∧ dev.pins.tapInstr = 0x10 ∧ dev.pins.porst = false ∧ dev.pins.vddLly = true ∧ dev.debugOpen = true :=
  ⟨runs_of (by decide), by decide⟩

theorem meets_DebugTapAndSidebandAnswer_2 : R.srcPwr % 4 = 0 ∧ R.srcPwr ∉ [R.spnTickLo, R.chkTickLo, R.hfpStale]
    ∧ accMask R.srcPwr (fun x => x == Acc.rc) = 0 ∧ (0x2080 / 4096 == 0xF && (dev.lcCode == 0x14 || dev.lcCode == 0xFF)) = false
    ∧ (dev.core 3).st = .running ∧ bit 1 0 = true := by decide

theorem meets_DebugTapAndSidebandAnswer_3 : run.pins.tapHold = false ∧ run.pins.porst = false ∧ run.lc.burn = none ∧ run.tapOp 0x1F ∉ [3, 4, 5]
    ∧ run.tapOp 3 ∈ [3, 4, 5] := by decide

theorem meets_DebugTapAndSidebandAnswer_4 : run.pins.i3cDeaf = false ∧ run.pins.i3cAddr = none ∧ run.src.upAt + 19532 ≤ run.spn.tick
    ∧ { run with pins := { run.pins with i3cAddr := some 0x7F } }.pins.i3cAddr.isSome = true := by decide

/-! ## Hypotheses met: resets, supplies, start-up -/

/-- `run` with its pins changed. -/
def pinned (f : Pins → Pins) : Machine.State := { run with pins := f run.pins }

theorem meets_ColdResetsLeaveResetState_1 : let s := pinned (fun p => { p with vddSec := false, vbak := false })
    s.pins.vddSec = false ∧ s.pins.vbak = false ∧ Tbl.wf (dflt KeyE.init) s.mce.keys := by decide

theorem meets_WarmResetKeepsWhatSurvives_1 : run.Runs ∧ run.pins.porst = false ∧ run.pins.wrst = false ∧ run.pins.tapHold = false ∧ run.src.hold = 0
    ∧ run.lc.burn = none ∧ Tbl.wf (dflt GrainE.blank) run.bnd.gt ∧ Tbl.wf (dflt KeyE.init) run.mce.keys := ⟨run_runs, by decide⟩

theorem meets_ReleasesSenseTheFuses_1 : let s := pinned (fun p => { p with porst := true })
    s.pins.wrstLatched = 0 ∧ s.pins.tapHold = false ∧ s.src.hold = 0 ∧ (s.pins.vddSec = true ∨ s.pins.vbak = true) ∧ s.pins.porst = true ∧ s.pins.wrst = false := by
  decide

theorem meets_ReleasesSenseTheFuses_2 : let s := pinned (fun p => { p with wrst := true })
    s.pins.wrstLatched = 0 ∧ s.pins.tapHold = false ∧ s.src.hold = 0 ∧ s.pins.vddSec = true ∧ s.pins.wrst = true ∧ s.pins.porst = false := by decide

theorem meets_ReleasesSenseTheFuses_3 : let s := pinned (fun p => { p with wrst := true, porst := true })
    s.pins.wrstLatched = 0 ∧ s.pins.tapHold = false ∧ s.src.hold = 0 ∧ s.pins.vddSec = true ∧ s.pins.wrst = true ∧ s.pins.porst = true := by decide

/-- `run` on VBAK since tick `t`. -/
def onBackup (t : Nat) : Machine.State :=
  { run with pins := { run.pins with vddSec := false }, src := { run.src with backupAt := some t }, spn := { run.spn with tick := 136719 } }

theorem meets_SupplyEventsAreRaised_1 : run.Runs ∧ (onBackup 0).Runs := ⟨run_runs, runs_of (by decide)⟩

theorem meets_SupplyEventsAreRaised_2 : run.pins.vddSec = true ∧ run.pins.vbak = true ∧ run.src.low = false ∧ (4 : Nat) < 5 ∧ run.tripAt ≤ 255
    ∧ run.tripAt - 1 < run.tripAt ∧ run.tripAt - 1 < 256 := by decide

theorem meets_SupplyEventsAreRaised_3 : let s := onBackup 0
    s.pins.vddSec = false ∧ s.pins.vbak = true ∧ s.pins.wrstLatched = 0 ∧ s.src.hold = 0 ∧ s.src.backupAt = some 0 ∧ s.pins.porst = false ∧ s.lc.burn = none
    ∧ 0 + 136719 ≤ s.spn.tick := by decide

/-- The block on its way up: the vault in state `v`, carve-out initialised, memory cleared. -/
def starting (v : Nat) (carved cleared : Bool) : Machine.State :=
  { run with vlt := { run.vlt with st := v }, src := { run.src with carved := carved, cleared := cleared }, hfp := { run.hfp with fwReady := false } }

theorem meets_StartUpStepsComplete_1 : (starting 1 false false).inReset = false ∧ (starting 1 false false).mce.halted = false ∧ (starting 1 false false).vlt.st = 1
    ∧ (starting 1 false false).vlt.drbgStopped = false ∧ (starting 1 false false).lc.idx ≠ 20 := by decide

theorem meets_StartUpStepsComplete_2 : let s := starting 2 false false
    s.inReset = false ∧ s.mce.halted = false ∧ s.src.carved = false ∧ 2 ≤ s.vlt.st ∧ s.vlt.st ≠ 4 := by decide

theorem meets_StartUpStepsComplete_3 : let s := starting 3 true false
    s.inReset = false ∧ s.mce.halted = false ∧ s.src.carved = true ∧ s.src.cleared = false ∧ 2 ≤ s.vlt.st ∧ s.vlt.st ≠ 4
    ∧ s.vlt.drbgStopped = false := by decide

theorem meets_StartUpStepsComplete_4 : let s := starting 3 true true
    s.inReset = false ∧ s.mce.halted = false ∧ s.hfp.cfgReady = true ∧ s.hfp.fwReady = false ∧ s.ccx.active.isSome = true ∧ s.vlt.st = 3 ∧ s.src.carved = true
    ∧ s.src.cleared = true ∧ s.auditFails = 0 := by decide +kernel

theorem meets_StartUpStepsComplete_5 : let s : Machine.State := { run with mce := { run.mce with remark := true } }
    s.inReset = false ∧ s.mce.halted = false ∧ s.mce.remark = true := by decide

/-- `run` at step `d` of DEEP, or on its way out. -/
def deep (d : Nat) : Machine.State := { run with src := { run.src with deep := d, park := [(5, .stopping)] } }

theorem meets_IdleParkAndDeepSteps_1 : tget (dflt ParkSt.none) (deep 0).src.park 5 = .stopping ∧ (deep 1).src.deep = 1 ∧ (deep 1).mce.reqs = []
    ∧ ((deep 2).src.deep = 1 ∨ (deep 2).src.deep = 2) := by decide

theorem meets_IdleParkAndDeepSteps_2 : run.Runs ∧ run.deepAllowed = true := ⟨run_runs, by decide⟩

theorem meets_IdleParkAndDeepSteps_3 : let s : Machine.State := { deep 3 with regs := [(R.audStatus, 0)] }
    s.src.deep = 3 ∧ s.src.held = [] ∧ bit (s.rd R.audStatus) 8 = false := by decide

/-! ## Hypotheses met: ticks, epochs, alignment -/

theorem meets_TicksAdvanceTheCount_1 : run.Runs ∧ run.spn.counting = false := ⟨run_runs, rfl⟩

theorem meets_TicksAdvanceTheCount_2 : let s : Machine.State := { run with spn := { run.spn with counting := true } }
    s.Runs ∧ s.spn.counting = true := ⟨runs_of (by decide), rfl⟩

theorem meets_TicksAdvanceTheCount_3 : (pinned (fun p => { p with wrst := true })).noTick = false ∧ (pinned (fun p => { p with wrst := true })).inReset = true
    ∧ (pinned (fun p => { p with porst := true })).noTick = true := by decide

/-- The decided boundary of epoch 1, its effective tick just reached. -/
def epoch1 : Eff := ⟨99998, 100000, ⟨12, none, Sub.spn, .epoch 1⟩, [60, 0, 100, 0], []⟩

theorem meets_EpochBoundaryTakesEffect_1 : let s : Machine.State := { run with spn := { run.spn with effs := [epoch1] } }
    s.spn.effs.find? (fun e => e.isEpoch && decide (e.due ≤ s.spn.tick)) = some epoch1 ∧ epoch1.ev.body = .epoch 1 ∧ (1 : Nat) ≠ 0
    ∧ s.src.tripHot = false ∧ epoch1.nums.getD 0 0 < s.tripAt ∧ run.spn.effs.find? (fun e => e.isEpoch && decide (e.due ≤ run.spn.tick)) = none := by decide

/-- A flit header of a type and VC with a sequence number. -/
def hdr (type vc seq : Nat) : Nat := type + 16 * vc + 256 * seq + 2 ^ 48

/-- A link that carries flits, the next in sequence being 7. -/
def up : Link := { Link.init with st := .up, lanes := 4, rxSeq := 7, txSeq := 3, acked := 1, lastRx := 99000 }

/-- `run` with link 0 of port 0 as `x`, port 0 leading to the timing parent, and slice 5 with member port 0 as fabric slice 77. -/
def linked (x : Link) : Machine.State :=
  { run with fpc := { run.fpc with links := [(0, x)], byp := [(0, (.opened, 0))] }, regs := [(R.spnAlignCfg, 1)],
             bnd := { run.bnd with defs := [(5, some { sl5 with fabMask := 1, fsliceId := 77 })] } }

/-- The tags a peer forms over a flit and what follows it, under the key and counter that link 0 of port 0 expects. -/
def tagOf (s : Machine.State) (h : Nat) (d : List Byte) : List Byte :=
  tagsFor ((s.link 0 0).rxKey h) (if hdrType h = 1 then fieldAt d 224 8 else (s.link 0 0).rxCtr) (flitsOf h d)

/-- A link in a state accepts its next flit. -/
theorem accepts_of {s : Machine.State} {h : Nat} {d : List Byte} {k : Bool}
    (a : ((s.link 0 0).st.carries = true ∨ k = true ∧ ((s.link 0 0).st = .training ∨ (s.link 0 0).st = .ready))
      ∧ s.mce.fenced = false ∧ hdrGood h = true ∧ (2 ≤ hdrType h → hdrSeq h = (s.link 0 0).rxSeq)) : s.Accepts 0 0 h d (tagOf s h d) k :=
  ⟨a.1, a.2.1, a.2.2.1, a.2.2.2, tagsOk_tagsFor ..⟩

theorem meets_AlignmentMessagesGoOut_1 : (linked up).Runs ∧ (linked up).Accepts 0 0 (hdr 6 0 7) [0] (tagOf (linked up) (hdr 6 0 7) [0]) false :=
  ⟨runs_of (by decide), accepts_of (by decide)⟩

theorem meets_AlignmentMessagesGoOut_2 : (linked up).parentPort = some 0 ∧ (linked up).upLink 0 = some 0 ∧ (linked up).spn.reqSent = 0
    ∧ (0 : Nat) < 8 ∧ hdrType (hdr 6 0 7) = 6 := by decide

/-- `linked up` with an exchange under way in an alignment state. -/
def exchanging (a : AlignSt) (run' : Nat) : Machine.State :=
  let s := linked up
  { s with spn := { s.spn with align := a, goodRun := run', reqOut := true } }

theorem meets_AlignmentFollowsItsExchanges_1 : ∀ a ∈ [AlignSt.aligned, .acquiring, .lost], (exchanging a 7).Runs
    ∧ ∀ d, (exchanging a 7).Accepts 0 0 (hdr 6 0 7) d (tagOf (exchanging a 7) (hdr 6 0 7) d) false := by
  intro a h
  simp only [List.mem_cons, List.not_mem_nil, or_false] at h
  rcases h with rfl | rfl | rfl <;> exact ⟨runs_of (by decide), fun d => accepts_of (by decide)⟩

theorem meets_AlignmentFollowsItsExchanges_2 : let s := exchanging .acquiring 7
    s.parentPort = some 0 ∧ s.spn.reqOut = true ∧ (1000 : Nat) ≤ 9192 ∧ (9192 : Nat) ≤ 1000 + 8192 ∧ s.bare = false ∧ hdrType (hdr 6 0 7) = 6 ∧ (0 : Nat) < 8 ∧ 7 ≤ s.spn.goodRun
    ∧ (((4072 : Int) - 1000) + ((6120 : Int) - 9192)) / 2 = 0 ∧ (((2024 : Int) - 1000) + ((6120 : Int) - 9192)) / 2 = -1024
    ∧ (9193 < 1000 ∨ 1000 + 8192 < 9193) := by decide

theorem meets_AlignmentFollowsItsExchanges_3 : let s : Machine.State := { exchanging .aligned 0 with spn := { (exchanging .aligned 0).spn with lastGood := 96000 } }
    s.parentPort.isSome = true ∧ s.spn.align = .aligned ∧ s.spn.lastGood + 4000 ≤ s.spn.tick := by decide

/-! ## Hypotheses met: fabric links -/

/-- A link in training since tick 1, its lanes' bad ones known to the far end as `mask`. -/
def training (mask : Nat) : Link := { Link.init with st := .training, trainAt := 1, peerMask := mask, peerFp := 4242, lastRx := 96000, keyed := true }

theorem meets_LinkTrainingEnds_1 : let s := linked (training 0)
    (0 : Nat) < 8 ∧ (s.link 0 0).st = .training ∧ 0 % 2 ^ s.nLanes 0 = 0 ∧ 1 % 2 ^ s.nLanes 0 ≠ 0
    ∧ laneGroup (s.nLanes 0) (((2 ^ s.nLanes 0 - 1) ^^^ (1 % 2 ^ s.nLanes 0)) ||| (s.link 0 0).peerMask) = none
    ∧ (laneGroup (s.nLanes 0) (((2 ^ s.nLanes 0 - 1) ^^^ ((2 ^ s.nLanes 0 - 1) % 2 ^ s.nLanes 0)) ||| (s.link 0 0).peerMask)).isSome = true
    ∧ (2 ^ s.nLanes 0 - 1) % 2 ^ s.nLanes 0 ≠ 0 ∧ (s.link 0 0).keyed = true := by decide

theorem meets_LinkTrainingEnds_2 : let s : Machine.State := { linked (training 0) with spn := { run.spn with tick := 937501 } }
    (s.link 0 0).st = .training ∧ (s.link 0 0).trainAt + 937500 ≤ s.spn.tick := by decide

theorem meets_LinkTrainingEnds_3 : let s := linked { Link.init with failAt := 96000 }
    (s.link 0 0).st = .down ∧ (s.bypass 0).1 = .opened ∧ 0 < s.nLinks 0 ∧ s.spn.tick % 4000 = 0 ∧ (s.link 0 0).failAt + 4000 ≤ s.spn.tick := by decide

/-- `linked up` with bypass `k` in a state. -/
def bypassed (k : Nat) (b : BypSt) (t : Nat) : Machine.State :=
  let s := linked { up with silent := true }
  { s with fpc := { s.fpc with byp := [(k, (b, t))] } }

theorem meets_PortsOpenCloseAndRetrain_1 : let s : Machine.State :=
      { bypassed 0 .waitAck 0 with fpc := { (bypassed 0 .waitAck 0).fpc with links := (List.range 32).map (fun k => (k, { Link.init with silent := true })) } }
    (s.bypass 0).1 = .waitAck
    ∧ ∀ p ∈ [2 * 0, 2 * 0 + 1], ∀ l < linkCount (s.rf (R.fpcCfg + 4 * p) 1 0), (s.link p l).silent = true ∨ (s.link p l).ack = true := by decide

theorem meets_PortsOpenCloseAndRetrain_2 : let s := bypassed 3 .closing 99996
    s.Runs ∧ (3 : Nat) < 4 ∧ (s.bypass 3).1 = .closing ∧ (s.bypass 3).2 ≠ 0 ∧ (s.bypass 3).2 + 4 ≤ s.spn.tick := ⟨runs_of (by decide), by decide⟩

theorem meets_PortsOpenCloseAndRetrain_3 : let s := bypassed 0 .opened 0
    (1 : Nat) < 8 ∧ s.portHeld 1 = false ∧ s.parentPort ≠ some 1 ∧ (s.bypass (1 / 2)).1 = .opened ∧ s.parentPort = some 0 ∧ (s.bypass (7 / 2)).1 ≠ .opened := by
  decide

theorem meets_ManagementLaneRulesLinks_1 : let s := linked (training 0)
    (0 : Nat) < 8 ∧ s.linkOfQuarter 0 0 = some 0 ∧ s.mce.fenced = false ∧ s.src.deep = 0 ∧ (s.link 0 0).st = .training
    ∧ s.rf (R.fpcCfg + 4 * 0) 1 0 = s.rf (R.fpcCfg + 4 * 0) 1 0 ∧ Word.down ≠ Word.training ∧ 3 - s.rf (R.fpcCfg + 4 * 0) 1 0 ≠ s.rf (R.fpcCfg + 4 * 0) 1 0
    ∧ (s.link 0 0).lastRx + 4000 ≤ s.spn.tick := by decide

theorem meets_ManagementLaneRulesLinks_2 : let s := linked { up with lastRx := 96000 }
    s.linkOfQuarter 0 0 = some 0 ∧ (s.link 0 0).st.carries = true ∧ (s.link 0 0).peerState ≠ Word.closing ∧ (s.link 0 0).lastRx + 4000 ≤ s.spn.tick := by decide

theorem meets_ManagementLaneRulesLinks_3 : let s := linked { up with peerState := Word.closing }
    (s.link 0 0).st.carries = true ∧ (s.link 0 0).peerState = Word.closing ∧ Word.notReady ≠ Word.closing ∧ Word.notReady ≠ Word.training := by decide

/-- A link up on all its lanes. -/
def wide : Link := { up with lanes := (linked up).nLanes 0 }

theorem meets_LanesFailAndDegrade_1 : let s := linked wide
    let w := s.nLanes 0
    (s.link 0 0).st = .up ∧ (31 : Nat) < 32 ∧ 0 / w = 0
    ∧ (∃ g, laneGroup w ((s.link 0 0).ownMask ||| 2 ^ (0 % w) ||| (s.link 0 0).peerMask) = some g ∧ g ≠ ((s.link 0 0).lane0, (s.link 0 0).lanes))
    ∧ s.rf R.fpcDegThr 15 0 ≤ s.rf R.fpcDegThr 15 0 := by
  refine ⟨by decide, by decide, by decide, ⟨(laneGroup ((linked wide).nLanes 0) 1).getD (0, 0), by decide, by decide⟩, by decide⟩

theorem meets_LanesFailAndDegrade_2 : let s := linked { wide with peerMask := 2 ^ (linked up).nLanes 0 - 1 }
    laneGroup (s.nLanes 0) ((s.link 0 0).ownMask ||| 2 ^ (0 % s.nLanes 0) ||| (s.link 0 0).peerMask) = none := by decide

theorem meets_LanesFailAndDegrade_3 : let s := linked { wide with ownMask := 1, lane0 := ((laneGroup ((linked up).nLanes 0) 1).getD (0, 0)).1, lanes := ((laneGroup ((linked up).nLanes 0) 1).getD (0, 0)).2 }
    laneGroup (s.nLanes 0) ((s.link 0 0).ownMask ||| 2 ^ (0 % s.nLanes 0) ||| (s.link 0 0).peerMask) = some ((s.link 0 0).lane0, (s.link 0 0).lanes) := by decide

theorem meets_LanesFailAndDegrade_4 : let s := linked { up with st := .degrading, wasUp := true }
    (s.link 0 0).st = .degrading ∧ s.mce.fenced = false := by decide

/-! ## Hypotheses met: flits -/

/-- The key, count and flits under which link 0 of port 0 takes a flit of payload `d`, its good tags, and bad ones. -/
def goodTag (s : Machine.State) (h : Nat) : List Byte :=
  tagsFor ((s.link 0 0).rxKey h) (if hdrType h = 1 then 0 else (s.link 0 0).rxCtr) (flitsOf h [])

theorem meets_FlitsPassOrAreAskedAgain_1 : let s := linked up
    let ok := fun (tag : List Byte) =>
      tagsOk ((s.link 0 0).rxKey (hdr 0 0 0)) (if hdrType (hdr 0 0 0) = 1 then 0 else (s.link 0 0).rxCtr) (flitsOf (hdr 0 0 0) []) tag
    (0 : Nat) < 8 ∧ s.mce.fenced = false ∧ (s.link 0 0).st.carries = true ∧ ok (goodTag s (hdr 0 0 0)) = true
    ∧ ok ((goodTag s (hdr 0 0 0)).map (~~~ ·)) = false ∧ (s.link 0 0).gcmBad + 1 ≤ s.rf R.fpcGcmLimit 7 0 ∧ hdrGood (hdr 0 0 0) = true
    ∧ hdrType (hdr 0 0 0) = 0 ∧ hdrRetry (hdr 0 0 0) = false :=
  ⟨by decide, by decide, by decide, tagsOk_tagsFor .., tagsOk_flipped .., by decide⟩

theorem meets_FlitsPassOrAreAskedAgain_2 : let s := linked { up with gcmBad := 255 }
    (s.link 0 0).st.carries = true ∧ s.rf R.fpcGcmLimit 7 0 < (s.link 0 0).gcmBad + 1 ∧ ((linked Link.init).link 0 0).st.carries = false := by decide

theorem meets_FlitsOfTheLinkItselfAct_1 : let s := linked { up with rxCtr := 5 }
    let d := zeros 224 ++ leBytes 8 5
    s.Accepts 0 0 (hdr 1 0 0) d (tagOf s (hdr 1 0 0) d) true ∧ hdrType (hdr 1 0 0) = 1 ∧ (s.link 0 0).oldKey = false ∧ (s.link 0 0).rxCtr ≤ 5 :=
  ⟨accepts_of (by decide), by decide⟩

theorem meets_FlitsOfTheLinkItselfAct_2 : let s := linked { up with oldKey := true, keysel := true }
    let d := zeros 224 ++ leBytes 8 5
    let h := hdr 1 0 0 + 128
    s.Accepts 0 0 h d (tagOf s h d) true ∧ hdrType h = 1 ∧ (s.link 0 0).oldKey = true ∧ bit h 7 = (s.link 0 0).keysel := ⟨accepts_of (by decide), by decide⟩

theorem meets_FlitsOfTheLinkItselfAct_3 : let d := creditPayload 0 [(77, 5, [6])]
    (linked up).Accepts 0 0 (hdr 4 0 7) d (tagOf (linked up) (hdr 4 0 7) d) false ∧ hdrType (hdr 4 0 7) = 4 ∧ (∀ d ∈ (linked up).slices, d.slice < 64)
    ∧ 5 ∈ (linked up).fabHolders 0 := ⟨accepts_of (by decide), by decide⟩

/-- Slice 5's fabric view of its definition. -/
def sl5f : SliceDef := { sl5 with fabMask := 1, fsliceId := 77 }

theorem meets_FlitsOfTheLinkItselfAct_4 : let s := linked up
    (∀ d, s.Accepts 0 0 (hdr 7 0 7) d (tagOf s (hdr 7 0 7) d) false) ∧ hdrType (hdr 7 0 7) = 7 ∧ (200 : Nat) ≠ 0 ∧ s.fabSlice 77 = some sl5f
    ∧ bit sl5f.fabMask 0 = true ∧ (∀ y, s.abortTick 5 = some y → 200 < y) ∧ ([0, 0] : List Byte).all (· == 0) = true
    ∧ ¬ ((1 : Nat) = 0 ∧ ([] : List Byte).all (· == 0) = true)
    ∧ { s with fpc := { s.fpc with abortAt := [(5, some 200)] } }.abortTick 5 = some 200 ∧ (200 : Nat) ≤ 200 := by
  refine ⟨fun d => accepts_of (by decide), by decide, by decide, by decide, by decide, ?_, by decide, by decide, by decide, by decide⟩
  intro y h
  have : (linked up).abortTick 5 = none := by decide
  simp [this] at h

theorem meets_TransactionsAreServed_1 : let s := linked up
    (∀ v ∈ [1, 2], ∀ d, s.Accepts 0 0 (hdr 2 v 7) d (tagOf s (hdr 2 v 7) d) false ∧ hdrType (hdr 2 v 7) = 2 ∧ hdrVc (hdr 2 v 7) = v)
    ∧ (4096 : Nat) ≤ 4096 ∧ s.fabSlice 77 = some sl5f ∧ s.contained 5 = false ∧ (0 : Nat) < 1 ∧ s.fabSlice 78 = none := by
  refine ⟨fun v hv d => ?_, by decide⟩
  simp only [List.mem_cons, List.not_mem_nil, or_false] at hv
  rcases hv with rfl | rfl <;> exact ⟨accepts_of (by decide), by decide⟩

/-- `linked up` waiting for the answer to a request of slice 5. -/
def asking (op : Nat) : Machine.State :=
  let s := linked up
  { s with fpc := { s.fpc with out := [⟨5, 0, 0, 9, op, 2, 0, 256, [], true⟩] } }

theorem meets_TransactionsAreServed_2 : ∀ op ∈ [1, 2], let s := asking op
    let asked := fun (rtag : Nat) (ops : List Nat) =>
      s.fpc.out.find? (fun o => o.sent && o.sl == 5 && o.port == 0 && o.link == 0 && o.rtag == rtag && ops.contains o.op)
    (∀ d, s.Accepts 0 0 (hdr 2 4 7) d (tagOf s (hdr 2 4 7) d) false) ∧ hdrType (hdr 2 4 7) = 2 ∧ hdrVc (hdr 2 4 7) = 4 ∧ s.fabSlice 77 = some sl5f
    ∧ asked 9 [op] = some ⟨5, 0, 0, 9, op, 2, 0, 256, [], true⟩ ∧ asked 9 [1, 2] = some ⟨5, 0, 0, 9, op, 2, 0, 256, [], true⟩
    ∧ asked 8 [op] = none ∧ asked 8 [1, 2] = none ∧ (0 : Nat) < 3 := by
  intro op h
  simp only [List.mem_cons, List.not_mem_nil, or_false] at h
  rcases h with rfl | rfl <;> exact ⟨fun d => accepts_of (by decide), by decide⟩

theorem meets_TransactionsAreServed_3 : let s := linked up
    (∀ d, s.Accepts 0 0 (hdr 2 5 7) d (tagOf s (hdr 2 5 7) d) false) ∧ hdrVc (hdr 2 5 7) = 5 ∧ (255 : Nat) ≤ 255 ∧ bit sl5f.fabMask 0 = true
    ∧ s.contained 5 = false := ⟨fun d => accepts_of (by decide), by decide⟩

/-- A link in training in its key exchange, the fabric domain secret fused. -/
def keying (own peer : Nat) : Machine.State :=
  let s := linked { training 0 with nonceOwn := own, keyed := false, keyAt := 96093, noncePeer := peer, rxSeq := 7 }
  { s with lc := { s.lc with otp := [(31, 1)] } }

theorem meets_LinkKeysAreExchanged_1 : let s := keying 8 0
    (s.link 0 0).st = .training ∧ (∀ d, s.Accepts 0 0 (hdr 5 0 7) d (tagOf s (hdr 5 0 7) d) true) ∧ hdrType (hdr 5 0 7) = 5 ∧ (s.link 0 0).nonceOwn ≠ 0
    ∧ (s.link 0 0).noncePeer = 0 ∧ (s.link 0 0).nonceOwn ≠ 3 % 2 ^ 256 + 1 ∧ (s.link 0 0).nonceOwn = 7 % 2 ^ 256 + 1 ∧ s.fds.all (· == 0) = false
    ∧ (s.link 0 0).keyed = false ∧ (s.link 0 0).keyAt + 3907 ≤ s.spn.tick := by
  refine ⟨by decide, fun d => accepts_of (by decide), by decide⟩

theorem meets_LinkKeysAreExchanged_2 : let s := keying 8 3
    let x := s.link 0 0
    let d := [2] ++ s.confirmMac x
    x.st = .training ∧ x.noncePeer ≠ 0 ∧ x.keyed = false ∧ x.oldKey = false ∧ s.mce.fenced = false
    ∧ s.Accepts 0 0 (hdr 5 0 7) d (tagOf s (hdr 5 0 7) d) true ∧ hdrType (hdr 5 0 7) = 5
    ∧ tagsOk x.keyRx x.rxCtr (flitsOf (hdr 5 0 7) d) ((tagsFor x.keyRx x.rxCtr (flitsOf (hdr 5 0 7) d)).map (~~~ ·)) = false :=
  ⟨by decide, by decide, by decide, by decide, by decide, accepts_of (by decide), by decide, tagsOk_flipped ..⟩

theorem meets_LinkKeysAreExchanged_3 : let s := linked { up with keyAt := 96093, rekey := 1 }
    s.vlt.drbgStopped = false ∧ (s.link 0 0).rekey = 1 ∧ (s.link 0 0).keyAt + 3907 ≤ s.spn.tick ∧ s.spn.tick % 4000 = 0
    ∧ (∀ d, s.Accepts 0 0 (hdr 5 0 7) d (tagOf s (hdr 5 0 7) d) false) ∧ hdrType (hdr 5 0 7) = 5 ∧ ((linked up).link 0 0).st.carries = true
    ∧ ((linked up).link 0 0).rekey = 0 := by
  refine ⟨by decide, by decide, by decide, by decide, fun d => accepts_of (by decide), by decide⟩

theorem meets_LinkKeysAreExchanged_4 : let s := linked { up with rxCtr := 2 ^ 39 }
    (s.link 0 0).st.carries = true ∧ (s.link 0 0).rekey ≠ 2 ∧ (2 ^ 39 ≤ (s.link 0 0).txCtr ∨ 2 ^ 39 ≤ (s.link 0 0).rxCtr) := by decide

/-! ## Hypotheses met: memory -/

/-- `run` with its memory cleared and grain 100 slice 5's, in state `st`. -/
def owning (st : GState) : Machine.State :=
  let s := run.wr R.audStatus 0x100
  { s with bnd := { s.bnd with gt := [(100, ⟨st, false, .priv, false, 5, 9, 0, 0, 0, 0⟩)] } }

/-- A request of slice 5 for one line of grain 100. -/
def line (write : Bool) (mask : Nat) (phase : ReqPhase) (res : LineRes) : MemReq :=
  ⟨1, .cd, 5, write, mask, bytes 256 [], 100 * 2 ^ 21, 100, 0, 9, 0, 0, 89000, 89760, phase, res, false, none, false⟩

/-- `owning .owned` with one request. -/
def requested (r : MemReq) : Machine.State := let s := owning .owned; { s with mce := { s.mce with reqs := [r] } }

theorem meets_RequestsPassTheFilter_1 : let s := owning .owned
    (0 : Nat) < 256 ∧ s.mce.fenced = false ∧ s.holds .cd 5 0 (100 * 2 ^ 21) 256 = false ∧ s.contained 5 = false ∧ s.flt.block = 0
    ∧ s.filter .cd 5 0 0 (100 * 2 ^ 21) 256 true false = .pass 100 ∧ s.filter .cd 5 0 0 (101 * 2 ^ 21 - 256) 257 true false = .deny 4
    ∧ (owning .poison).filter .cd 5 0 0 (100 * 2 ^ 21) 256 true false = .deny 10 ∧ s.filter .cd 64 0 0 0 1 true false = .deny 1 := by decide +kernel

theorem meets_RequestsPassTheFilter_2 : run.mce.fenced = false ∧ run.holds .cd 5 0 0 1 = true ∧ RClass.ofCode 0 = .cd
    ∧ { run with mce := { run.mce with fenced := true } }.mce.fenced = true := by decide +kernel

theorem meets_RequestsPassTheFilter_3 : let s := owning .owned
    let s : Machine.State := { s with flt := { s.flt with slices := [(5, { s.fsl 5 with phase := .contain, containAt := 100000 })] } }
    s.mce.fenced = false ∧ s.holds .cd 5 0 0 1 = false ∧ s.contained 5 = true ∧ (5 : Nat) < 64 := by decide +kernel

theorem meets_RequestsPassTheFilter_4 : let s := linked up
    let d : SliceDef := { sl5 with fabMask := 1, fsliceId := 77 }
    s.mce.fenced = false ∧ (0 : Nat) < 8 ∧ s.sdef 5 = some d ∧ bit d.fabMask 0 = true ∧ s.contained 5 = false ∧ (0 : Nat) < s.nLinks 0 ∧ bit d.fabMask 1 = false := by
  decide +kernel

theorem meets_LinesLeaveTheRegulator_1 : ∀ r ∈ [line true 0 .waiting .none, line false 0 .waiting .none, line true 1 .waiting .none, line true 1 .waiting .ok,
      line true (2 ^ 256 - 1) .waiting .none],
    let s : Machine.State := { requested r with bwr := { run.bwr with regs := [(5 * 8 + stackOf 100, ⟨2 ^ 40, 100000, 0, 0⟩)] } }
    stackOf 100 < 8 ∧ s.mce.fenced = false ∧ s.mce.remark = false ∧ s.sdef 5 = some sl5 ∧ s.engineTakes r = true
    ∧ nextIssue sl5.teff (s.now 0) (s.mce.reqs.filter (fun r => r.phase == .waiting && r.tag == 5 && stackOf r.grain == stackOf 100 && s.engineTakes r)) = some r
    ∧ Machine.mayIssue sl5.teff (rampLevel sl5.teff (s.now 0 - r.arrived)) (s.regul 5 (stackOf 100)).bucket (s.depth 5 (stackOf 100))
        (if r.write && r.mask = 0 then 0 else lineCharge) = true
    ∧ (s.key (s.keyed r).keyid).live = true ∧ r.cls ≠ .scr := by decide +kernel

theorem meets_LinesLeaveTheRegulator_2 : let r := line false 0 .waiting .none
    let s := requested r
    { s with mce := { s.mce with keys := [] } }.sdef 5 = some sl5 ∧ ({ s with mce := { s.mce with keys := [] } }.key (s.keyed r).keyid).live = false
    ∧ Machine.mayIssue sl5.teff (rampLevel sl5.teff (s.now 0 - r.arrived)) (s.regul 5 (stackOf 100)).bucket (s.depth 5 (stackOf 100)) lineCharge = false
    ∧ nextIssue sl5.teff (s.now 0) (run.mce.reqs.filter (fun r => r.phase == .waiting && r.tag == 5 && stackOf r.grain == 0 && s.engineTakes r)) = none := by decide +kernel

theorem meets_LinesLeaveTheRegulator_3 : let r := { line false 0 .waiting .none with cls := .cc, tag := 0xFF, keyid := 0 }
    let s := requested r
    s.mce.remark = false ∧ s.sdef 0xFF = none ∧ (tget (dflt (0, 0)) s.bwr.qlvl (stackOf 100)).1 < 4 ∧ (s.key (s.keyed r).keyid).live = true
    ∧ nextIssue 0 (s.now 0) (s.mce.reqs.filter (fun r => r.phase == .waiting && r.tag == 0xFF && stackOf r.grain == stackOf 100 && s.engineTakes r)) = some r := by
  decide +kernel

theorem meets_LinesAreResolvedAndDelivered_1 : let r := line false 0 .issued .none
    (requested r).mce.fenced = false ∧ r.write = false
    ∧ (requested r).mce.reqs.find? (fun r => r.id == 1 && r.addr == 100 * 2 ^ 21 && r.phase == .issued) = some r := by decide +kernel

theorem meets_LinesAreResolvedAndDelivered_2 : let r := line false 0 .ready .ok
    (requested r).mce.reqs.find? (fun r => r.id == 1 && r.addr == 100 * 2 ^ 21 && r.phase == .ready) = some r
    ∧ r.issued + 10240 ≤ (requested r).now 0 ∧ (requested { r with issued := 100000 * 4096 - 10239 }).now 0 < 100000 * 4096 - 10239 + 10240 := by decide +kernel

theorem meets_LinesAreResolvedAndDelivered_3 : let r := { line false 0 .issued .none with issued := 100000 - 65536 }
    (requested r).mce.reqs.find? (fun r => r.id == 1 && r.addr == 100 * 2 ^ 21 && r.phase == .issued) = some r
    ∧ r.issued + 4096 * max 16 ((requested r).rf R.fltWdMem 15 0) ≤ (requested r).now 0 ∧ (requested r).contained r.tag = false := by decide +kernel

theorem meets_MemoryReportsRaiseEvents_1 : (7 : Nat) < 8 ∧ (0 : Nat) ≤ stackGrains * 8192 - 1 ∧ stackGrains * 8192 - 1 < stackGrains * 8192
    ∧ (7 ≠ 7 ∨ (tget (dflt (0, 0)) run.bwr.qlvl 7).1 ≠ 7)
    ∧ (let s : Machine.State := { run with bwr := { run.bwr with qlvl := [(7, (7, 96000))] } }
       tget (dflt (0, 0)) s.bwr.qlvl 7 = (7, 96000) ∧ 96000 + 4000 ≤ s.spn.tick) := by decide +kernel

theorem meets_MemoryReportsRaiseEvents_2 : (owning .dirty).nextScrub (stackOf 100) = some 100 ∧ (owning .dirty).scrubBusy (stackOf 100) = false
    ∧ (owning .dirty).nextScrub (stackOf 101) ≠ some 101
    ∧ (let s := owning .scrubbing
       let s : Machine.State := { s with bnd := { s.bnd with scrub := [(100, 8192)] } }
       (s.grain 100).st = .scrubbing ∧ tget (dflt 0) s.bnd.scrub 100 = 8192) := by decide +kernel

/-- A walk of slice 5 from KeyID 9 to 10 with grain 100 in hand, all its engines at watermark `m`, and a line read at engine 0. -/
def walk (m : Nat) : Walk :=
  ⟨9, 10, [(stackOf 100, [100])], (List.range 32).map (fun e => (32 * stackOf 100 + e, m)), [⟨32 * stackOf 100, 100, 0, none⟩], []⟩

/-- `owning .owned` in that walk. -/
def walking (m : Nat) : Machine.State := let s := owning .owned; { s with mce := { s.mce with walks := [(5, some (walk m))] } }

theorem meets_MemoryReportsRaiseEvents_3 : let s := walking 256
    tget (dflt none) s.mce.walks 5 = some (walk 256) ∧ tget (dflt []) (walk 256).left (stackOf 100) = 100 :: [] ∧ (s.grain 100).st = .owned
    ∧ (s.grain 100).owner = 5 ∧ ∀ e < 32, tget (dflt 0) (walk 256).marks (32 * stackOf 100 + e) = 256 := by decide +kernel

theorem meets_LinesAreResolvedAndDelivered_4 : let s := walking 0
    let id := walkId 5
    s.mce.fenced = false ∧ s.mce.reqs.find? (fun r => r.id == id && r.addr == 100 * 2 ^ 21 && r.phase == .issued) = none
    ∧ tget (dflt none) s.mce.walks 5 = some (walk 0)
    ∧ (walk 0).reads.find? (fun x => x.grain * 2 ^ 21 + x.line * 256 == 100 * 2 ^ 21) = some ⟨32 * stackOf 100, 100, 0, none⟩ := by decide +kernel

theorem meets_CheckSitesAnswer_1 : let s := owning .owned
    s.Runs ∧ (s.cluster 0).owner < 64 ∧ s.contained (s.cluster 0).owner = false ∧ s.holds .cd 5 0 (100 * 2 ^ 21) (tileBytes 6) = false
    ∧ s.holds .cd 5 0 (100 * 2 ^ 21 + 8192) 8 = false
    ∧ s.filter .cd 5 0 0 (100 * 2 ^ 21) (tileBytes 6) true false = .pass 100 ∧ s.filter .cd 5 0 0 (100 * 2 ^ 21 + 8192) 8 true false = .pass 100
    ∧ s.filter .cd 5 0 0 0 (tileBytes 1) true false = .deny 4 := ⟨runs_of (by decide), by decide⟩

theorem meets_CheckSitesAnswer_2 : let s := owning .owned
    s.fld.passes.find? (fun p => p.sl == 5 && p.kind == .inFlight && fdId p.desc == 1) = none ∧ s.fld.failed.contains (5, 1) = false
    := by decide +kernel

theorem meets_CheckSitesAnswer_3 : let s : Machine.State := { run with bnd := { run.bnd with defs := [] }, lc := { run.lc with idx := 0x11 } }
    s.Runs ∧ s.lcCode = 0x11 ∧ s.slices = [] ∧ run.lcCode ≠ 0x11 ∧ run.slices ≠ [] := ⟨runs_of (by decide), by decide⟩

theorem meets_CheckSitesAnswer_4 : let armed := bit (run.rd R.tcuInject) 2 && run.rd R.tcuInject % 4 == 3
    let own := tileCrc (bytes 8 []) 1 (tget (dflt 0) run.tcu.dieVer 0) 0
    (run.cluster 0).owner < 64 ∧ (2 : Nat) ≠ 1 ∧ (if armed then own ^^^ 1 else own) = own := by decide +kernel

/-! ## Hypotheses met: definition banks -/

/-- `run` with bank 0 as given. -/
def banked (k : Bank) : Machine.State := { run with chk := { run.chk with a := k } }

/-- A statement for slice 6, VF 4: cluster 2, KeyID 10, one grain. -/
def stmt6 : List (Nat × Nat × Nat) := [(0x0C, 1, 6), (0x0D, 1, 1), (0x0E, 1, 4), (0x10, 2, 10), (0x12, 2, 100), (0x14, 8, 4), (0x1C, 1, 1), (0x20, 2, 1), (0x28, 3, 1)]

theorem meets_StagingFillsTheLoadingBank_1 : let e := { cmd pf0 Op.sliceStage stmt6 with slice := 6 }
    let e' := { cmd pf0 Op.sliceStage stmt6 with slice := 7 }
    Starts (having run e) pf0 Op.sliceStage e ∧ firstOf (defChecks e.entry e.slice ++ [badAt (run.chk.a.destroys.contains e.slice) 0x0C 0]) = none
    ∧ Starts (having run e') pf0 Op.sliceStage e'
    ∧ (firstOf (defChecks e'.entry e'.slice ++ [badAt (run.chk.a.destroys.contains e'.slice) 0x0C 0])).isSome = true := by
  refine ⟨⟨by decide +kernel, by decide⟩, by decide +kernel, ⟨by decide +kernel, by decide⟩, by decide +kernel⟩

theorem meets_StagingFillsTheLoadingBank_2 : let e := cmd pf0 Op.sliceDestroy []
    Starts (having run e) pf0 Op.sliceDestroy e ∧ (run.sdef e.slice).isNone = false ∧ (run.bank run.chk.load).defs.any (fun d => d.slice == e.slice) = false
    ∧ (run.sdef 6).isNone = true := by
  refine ⟨⟨by decide +kernel, by decide⟩, by decide, by decide, by decide⟩

/-- GRAIN_STAGE of one record that gives grain 100, and of one that names no grain. -/
def giving (g : Nat) : ExecCmd := { cmd pf0 Op.grainStage [(0x0C, 2, 1)] with data := bytes 8 [(0, 3, g), (3, 1, 1), (6, 2, 1)] }

theorem meets_StagingFillsTheLoadingBank_3 : ∀ g ∈ [100, nGrains], let e := giving g
    Starts (having run e) pf0 Op.grainStage e ∧ fieldAt e.entry 0x0C 2 ≠ 0 ∧ (run.bank run.chk.load).recs.length + fieldAt e.entry 0x0C 2 ≤ 4096
    ∧ (match recList e.slice e.data 0 0 1 with | .inr _ => g == 100 | .inl _ => g == nGrains) = true := by
  intro g h
  simp only [List.mem_cons, List.not_mem_nil, or_false] at h
  rcases h with rfl | rfl <;> refine ⟨⟨by decide +kernel, by decide⟩, by decide +kernel⟩

theorem meets_StagingFillsTheLoadingBank_4 : let e := cmd pf0 Op.keyFind [(0x0C, 2, 1023)]
    Starts (having run e) pf0 Op.keyFind e ∧ fieldAt e.entry 0x0C 2 ≤ 1023 := ⟨⟨by decide +kernel, by decide⟩, by decide +kernel⟩

/-- A bank that holds a register write, in state `st`. -/
def bank1 (st : BankSt) : Bank := { Bank.init with st := st, rws := [(R.bwrEpoch, 0)] }

theorem meets_BanksAreCheckedAndArmed_0 : run.Runs ∧ run.armed = none ∧ (run.bank 1).checkAsked = false ∧ (run.bank 1).st = .empty :=
  ⟨run_runs, by decide⟩

theorem meets_BanksAreCheckedAndArmed_1 : let e := cmd pf0 Op.check []
    let s := having (banked (bank1 .loading)) e
    s.Runs ∧ Starts s pf0 Op.check e ∧ bankOf e = 0 ∧ (s.bank 0).st ≠ .empty ∧ s.armed = none ∧ (s.bank 0).checkAsked = false ∧ 0 = s.chk.load := by
  refine ⟨runs_of (by decide), ⟨by decide +kernel, by decide⟩, by decide +kernel⟩

/-- A block without slices. -/
def passing (k : Bank) : Machine.State :=
  let s := banked k
  { s with bnd := { s.bnd with defs := [] } }

theorem meets_BanksAreCheckedAndArmed_2 : let s := passing { bank1 .loading with checkAsked := true }
    let s' := banked { bank1 .loading with checkAsked := true, defs := [{ sl5 with slice := 6 }] }
    (s.bank 0).checkAsked = true ∧ (s.bank 0).st ≠ .checking ∧ s.checkBank (s.bank 0) false = none ∧ (s'.bank 0).checkAsked = true
    ∧ (s'.bank 0).st ≠ .checking ∧ s'.checkBank (s'.bank 0) false = some ⟨2, Status.checkFailed, 5, 0⟩ := by decide +kernel

theorem meets_BanksAreCheckedAndArmed_3 : let s := passing (bank1 .checking)
    let s' := banked { bank1 .checking with defs := [{ sl5 with slice := 6, clusters := 4 }] }
    (s.bank 0).st = .checking ∧ (s.bank 0).isBind = false ∧ s.checkBank (s.bank 0) false = none
    ∧ (s'.bank 0).isBind = false ∧ s'.checkBank (s'.bank 0) false = some ⟨3, Status.checkFailed, 5, 0⟩ := by decide +kernel

theorem meets_BanksAreCheckedAndArmed_4 : ∀ n ∈ [0, 100001], let e := cmd pf0 Op.commit [(0x10, 8, n)]
    let s := having (banked (bank1 .checked)) e
    Starts s pf0 Op.commit e ∧ bankOf e = 0 ∧ s.lc.gone = false ∧ s.armed = none ∧ s.src.deep = 0 ∧ (s.bank 0).checkAsked = false ∧ (s.bank 0).noItem = false
    ∧ (fieldAt e.entry 0x10 8 = 0 ∨ s.spn.tick < fieldAt e.entry 0x10 8) := by
  intro n h
  simp only [List.mem_cons, List.not_mem_nil, or_false] at h
  rcases h with rfl | rfl <;> refine ⟨⟨by decide +kernel, by decide⟩, by decide +kernel⟩

theorem meets_BanksAreCheckedAndArmed_5 : let s := banked (bank1 .checked)
    s.Runs ∧ (s.mb pf0).orphan = false ∧ s.lc.gone = false ∧ s.armed = none ∧ (s.bank 0).noItem = false ∧ s.rd R.chkAtLo + 2 ^ 32 * s.rd R.chkAtHi = 0
    ∧ (s.bank 0).st ≠ .drain ∧ (s.bank 0).st ≠ .deciding ∧ (s.bank 0).checkAsked = false ∧ (s.bank 0).isBind = false :=
  ⟨runs_of (by decide), by decide +kernel⟩

theorem meets_BanksAreCheckedAndArmed_6 : let e := cmd pf0 Op.cancel []
    let s := having (banked (bank1 .checked)) e
    Starts s pf0 Op.cancel e ∧ bankOf e = 0 ∧ (s.bank 0).st ≠ .empty ∧ (s.bank 0).cmd ≠ some e.ref := ⟨⟨by decide +kernel, by decide⟩, by decide +kernel⟩

theorem meets_CommitsDrainInOrder_1 : let s := banked { bank1 .waitBlank with destroys := [5] }
    s.armed = some 0 ∧ (s.bank 0).st = .waitBlank ∧ s.awaited (s.bank 0) = 0 ∧ (s.bank 0).departing s ≠ [] ∧ (banked (bank1 .waitBlank)).armed = some 0
    ∧ (bank1 .waitBlank).departing (banked (bank1 .waitBlank)) = [] := by decide +kernel

theorem meets_CommitsDrainInOrder_2 : ∀ d ∈ [DrainSt.saving, .clearing, .memory], let s := banked { bank1 .drain with drain := d }
    s.armed = some 0 ∧ (s.bank 0).drain = d ∧ s.drainBusy (s.bank 0) = false ∧ (s.bank 0).keysWanted = [] := by decide +kernel

theorem meets_CommitsDrainInOrder_3 : let s := banked { bank1 .drain with drain := .keys, keysWanted := [9] }
    let s' := banked { bank1 .drain with drain := .memory, keysWanted := [9] }
    s.armed = some 0 ∧ (s.bank 0).keysWanted = 9 :: [] ∧ (s.bank 0).drain = .keys ∧ s.vlt.drbgStopped = false ∧ (s.bank 0).keysWanted.head? ≠ some 8
    ∧ s'.armed = some 0 ∧ (s'.bank 0).keysWanted = 9 :: [] ∧ (s'.bank 0).drain ≠ .keys ∧ s'.vlt.drbgStopped = false ∧ (s'.bank 0).drain = .memory
    ∧ s'.drainBusy (s'.bank 0) = false ∧ (s'.bank 0).keysWanted ≠ [] := by decide +kernel

theorem meets_CommitsDrainInOrder_4 : let r : CmdRef := ⟨pf0, false, 1, Op.commit, 1⟩
    let s := having ((banked { bank1 .waitBlank with cmd := some r, since := 0 }).wr R.chkWaitLimit 1) (cmd pf0 Op.commit [])
    s.armed = some 0 ∧ (s.bank 0).st = .waitBlank ∧ (s.bank 0).isBind = false ∧ s.rf R.chkWaitLimit 15 0 ≠ 0
    ∧ (s.bank 0).since * 4 + s.rf R.chkWaitLimit 15 0 * 15625 < s.spn.tick * 4 ∧ (s.mb r.fn).exec.any (fun e => e.ref == r && !e.done) = true := by decide +kernel

theorem meets_CommitsDrainInOrder_5 : run.Runs ∧ (3 : Nat) < 4
    ∧ bits 1 1 1 = bits (run.viewed R.chkMode) 1 1 ∧ bits 2 1 1 ≠ bits (run.viewed R.chkMode) 1 1 ∧ (run.bank run.chk.load).rws = []
    ∧ (run.grainsWhere (fun e => e.st == .owned && e.owner < 64)).isEmpty = true
    ∧ (let s := owning .owned
       s.Runs ∧ (s.bank s.chk.load).rws = [] ∧ (s.grainsWhere (fun e => e.st == .owned && e.owner < 64)).isEmpty = false
       ∧ bits 2 1 1 ≠ bits (s.viewed R.chkMode) 1 1) := ⟨run_runs, by decide, by decide, by decide, by decide, by decide, runs_of (by decide), by decide⟩

/-! ## Hypotheses met: fold engine -/

/-- A fold descriptor of 128 bytes. -/
def fd (kind : Nat) (l : List (Nat × Nat × Nat)) : List Byte := bytes 128 ([(0, 1, kind), (1, 1, 1), (2, 2, 7), (4, 2, 1)] ++ l)

/-- In-flight, one variant of pod 3, tile 0 of image 0 in format 1, one read. -/
def fdLive : List Byte := fd 1 [(0x10, 1, 1), (0x11, 1, 1), (0x12, 2, 4), (0x1C, 4, 1), (0x20, 4, 1), (0x28, 4, 3)]

/-- Copy of the same. -/
def fdCopy : List Byte := fd 2 [(0x10, 1, 1), (0x11, 1, 1), (0x1C, 4, 1), (0x28, 4, 3), (0x70, 6, 2 ^ 47)]

/-- A step of pod 3 with optimiser 1. -/
def fdStep : List Byte := fd 3 [(0x10, 4, 3), (0x14, 1, 1)]

/-- A reduction of one part of one number. -/
def fdSum : List Byte := fd 4 [(0x10, 1, 1), (0x12, 2, 1), (0x14, 4, 1), (0x28, 6, 2 ^ 20)]

/-- A pod of optimiser 1, present, its layer 0 covering tile 0. -/
def pod0 (res : PodRes) (life : PodLife) : Pod :=
  { pid := 77, gen := 1, savedGen := 1, res := res, life := life, train := 2, unsaved := false, rebased := false, fmode := 0, huskAddr := 0x30000, huskLen := 512,
    minGen := 0, fetched := true, opt := 1, baseId := 0, rootNo := 0, modes := [], layers := [⟨0, 0, false, 0, [⟨0, 1, 1, 0⟩]⟩], factors := [], theta := [], mom := [],
    var := [], p1 := 0, p2 := 0, run := (0, 1), runT := (1, 1), shelf := [], used := 0, pinWant := false }

/-- Slice 5 with position 0 of unit 0, image 0 bound and granted, pod 3, and the passes given. -/
def folding (p : Pod) (l : List Pass) : Machine.State :=
  let s := (owning .owned).wr R.fldMap 0xFFFFFF05
  { s with
    bnd := { s.bnd with defs := [(5, some { sl5 with imageGrant := 1 })], images := [(0, { ImageE.init with bound := true, sealed := true, ngrains := 1, ntiles := 1, grains0 := [100] })] }
    pcm := { s.pcm with pods := [(podKey 5 3, some p)] }
    fld := { s.fld with passes := l } }

/-- `folding` with fold queue 7 at a descriptor. -/
def foldAt (p : Pod) (l : List Pass) (d : List Byte) : Machine.State :=
  let s := folding p l
  { s with dpa := { s.dpa with queues := [(qkey 5 7, some { queue .fold 4096 3 0 0 with fetched := some d })] } }

theorem meets_FoldDescriptorsAreAdmitted_1 : run.atTurn 5 7 .fold = none ∧ (let s := foldAt (pod0 .t1 .none) [] fdSum
    s.atTurn 5 7 .fold = some ({ queue .fold 4096 3 0 0 with fetched := some fdSum }, fdSum) ∧ fdKindOf fdSum = some .reduce) := by decide +kernel

theorem meets_FoldDescriptorsAreAdmitted_2 : ∀ d ∈ [bytes 128 [(0, 1, 1)], fd 1 []], let s := foldAt (pod0 .t1 .none) [] d
    s.atTurn 5 7 .fold = some ({ queue .fold 4096 3 0 0 with fetched := some d }, d) ∧ fdKindOf d = some .inFlight ∧ (s.fdCheck 5 d).isSome = true := by decide +kernel

theorem meets_FoldDescriptorsAreAdmitted_3 : ∀ d ∈ [fdLive, fdCopy, fdStep, fdSum], let s := foldAt (pod0 .t1 .none) [] d
    s.atTurn 5 7 .fold = some ({ queue .fold 4096 3 0 0 with fetched := some d }, d) ∧ (fdKindOf d).isSome = true ∧ s.fdCheck 5 d = none
    ∧ s.pod 5 3 = some (pod0 .t1 .none) ∧ (∀ h ∈ fdPods d, h = 3) ∧ (pod0 .t1 .none).train = 2 ∧ s.fdPodCheck 5 ((queue .fold 4096 3 0 0).orderOf 0) d = none ∧ (queue .fold 4096 3 0 0).podFail = 0 ∧ s.pickUnit 5 d = some 0 := by
  decide +kernel

theorem meets_FoldDescriptorsAreAdmitted_4 : ∀ d ∈ [fdLive, fdCopy, fdStep], let s := foldAt (pod0 .absent .none) [] d
    s.fdCheck 5 d = none ∧ s.pod 5 3 = some (pod0 .absent .none) ∧ fdPods d = [3] := by decide +kernel

/-- A running pass of slice 5 on unit 0. -/
def pass (k : FoldKind) (d : List Byte) (tiles served : Nat) (g : List Gather) : Pass :=
  ⟨5, 7, 1, 0, k, d, 0, .running, 0, tiles, served, 0, 0, 0, 0, 1, none, g, [], [], [], [], [], []⟩

/-- The table entry of an empty tile. -/
def entry0 : List Byte := leBytes 4 (tileCrc [] 0 0 0) ++ leBytes 4 1

/-- A gather of tile 0 asked for by cluster 0, its tile and entry read as 1 and 2. -/
def gather (ended : Bool) (out : List GatherOut) : Gather :=
  ⟨0, 99990, 100 * 2 ^ 21, 100 * 2 ^ 21 + 65536, [⟨0, 0, 55⟩], ended, if ended then [1, 2] else [], out⟩

/-- What a fold of variant 0 at a cost of one cycle made. -/
def out0 : GatherOut := ⟨0, [], 0, 1, none, 0, 0, 0⟩

/-- `folding` with reads 1 and 2 ended, `bad` their faults, the entry that of tile `t`, and 10 cycles in hand. -/
def served (p : Pod) (l : List Pass) (bad t : Nat) : Machine.State :=
  let s := folding p l
  { s with mce := { s.mce with colls := [⟨1, 0, 0, 0, bad, []⟩, ⟨2, 0, 8, 0, 0, [(0, leBytes 4 (tileCrc [] t 0 0) ++ leBytes 4 1 ++ zeros 248)]⟩] }
           fld := { s.fld with cyc := [(cycKey 0 5, 10)] } }

theorem meets_GathersAndTilesAreFolded_1 : let p := pass .inFlight fdLive 0 0 [gather false []]
    let s := folding (pod0 .t1 .none) [p]
    s.passAt 5 7 0 = some p ∧ s.contained 5 = false ∧ s.mce.fenced = false ∧ p.st = .running ∧ p.ended = none
    ∧ p.gathers.find? (fun g => g.tix == 0 && !g.ended) = some (gather false []) ∧ fdNvar p.desc ≤ (gather false []).variants.length
    ∧ (gather false []).ids = [] ∧ p.gathers.all (fun y => !y.ended) = true := by decide +kernel

theorem meets_GathersAndTilesAreFolded_2 : ∀ b ∈ [0, 1], ∀ t ∈ [0, 1], let g := gather true []
    let p := pass .inFlight fdLive 0 0 [g]
    let s := served (pod0 .t1 .none) [p] b t
    s.passAt 5 7 0 = some p ∧ s.contained 5 = false ∧ s.mce.fenced = false ∧ p.kind = .inFlight ∧ p.gathers.find? (fun g => g.ended) = some g ∧ g.reads ≠ []
    ∧ g.ids ≠ [] ∧ g.out = [] ∧ (∀ i ∈ g.ids, s.collDone i = true) ∧ ((∃ i ∈ g.ids, s.collBad i ≠ 0) ↔ b = 1)
    ∧ ((s.hubCheck p g.tix (s.collBytes (g.ids.getD 0 0)) (s.collBytes (g.ids.getD 1 0))).2 = true ↔ t = 0) := by decide +kernel

theorem meets_GathersAndTilesAreFolded_3 : let g := gather true [out0]
    let p := pass .inFlight fdLive 0 0 [g]
    let s := served (pod0 .t1 .none) [p] 0 0
    s.passAt 5 7 0 = some p ∧ p.gathers.find? (fun g => g.ended) = some g ∧ g.ids ≠ [] ∧ g.out = out0 :: []
    ∧ out0.cost ≤ tget (dflt 0) s.fld.cyc (cycKey p.unit p.sl) ∧ tget (dflt 0) (folding (pod0 .t1 .none) [p]).fld.cyc (cycKey p.unit p.sl) < out0.cost := by
  decide +kernel

theorem meets_GathersAndTilesAreFolded_4 : let p := { pass .copy fdCopy 0 0 [] with out := [out0] }
    let s := served (pod0 .t1 .none) [p] 0 0
    s.passAt 5 7 0 = some p ∧ s.contained 5 = false ∧ s.mce.fenced = false ∧ p.st = .running ∧ p.ended = none ∧ p.kind = .copy ∧ p.out = out0 :: []
    ∧ out0.cost ≤ tget (dflt 0) s.fld.cyc (cycKey p.unit p.sl) := by decide +kernel

theorem meets_GathersAndTilesAreFolded_5 : let p := { pass .reduce fdSum 0 0 [] with ids := [1] }
    let s := served (pod0 .t1 .none) [p] 0 0
    s.passAt 5 7 0 = some p ∧ p.kind = .reduce ∧ p.ids ≠ [] ∧ (∀ i ∈ p.ids, s.collDone i = true ∧ s.collBad i = 0) ∧ (∀ i ∈ p.ids, i ∉ p.wids)
    ∧ p.redCost ≤ tget (dflt 0) s.fld.cyc (cycKey p.unit p.sl) := by decide +kernel

theorem meets_GathersAndTilesAreFolded_6 : let p := { pass .step fdStep 0 0 [] with ids := [1] }
    let s := served (pod0 .t1 .stepping) [p] 0 0
    s.passAt 5 7 0 = some p ∧ s.contained 5 = false ∧ s.mce.fenced = false ∧ p.kind = .step ∧ p.st = .running ∧ p.ended = none
    ∧ s.pod 5 (fieldAt p.desc 0x10 4) = some (pod0 .t1 .stepping) ∧ (pod0 .t1 .stepping).life = .stepping ∧ p.wids = []
    ∧ (p.ids ≠ [] ∨ (pod0 .t1 .stepping).factors = []) ∧ (∀ i ∈ p.ids, s.collDone i = true ∧ s.collBad i = 0)
    ∧ stepCost p.desc (pod0 .t1 .stepping).factors.length ≤ tget (dflt 0) s.fld.cyc (cycKey p.unit p.sl)
    ∧ { p with wids := [2] }.wids ≠ [] ∧ (∀ i ∈ p.ids ++ [2], s.collDone i = true ∧ s.collBad i = 0) := by decide +kernel

theorem meets_GathersAndTilesAreFolded_7 : ∀ p ∈ [pass .inFlight fdLive 1 1 [], pass .copy fdCopy 1 0 [], pass .reduce fdSum 1 0 [],
      { pass .copy fdCopy 0 0 [] with ended := some Status.faulted }], let s := folding (pod0 .t1 .none) [p]
    s.passAt 5 7 0 = some p ∧ s.contained 5 = false ∧ s.mce.fenced = false ∧ p.st = .running ∧ p.ids = [] ∧ p.out = [] ∧ p.wids = []
    ∧ (p.ended.isSome = true ∨ p.kind = .reduce ∧ p.block = 0 ∨ p.kind = .inFlight ∧ fdReads p.desc ≤ p.served
      ∨ p.kind = .copy ∧ fdTiles p.desc ≤ p.tiles) := by decide +kernel

/-! ## Hypotheses met: pods -/

/-- Slice 5 with pod 3 and two more grains, one for pods and one for saves. -/
def podded (p : Pod) : Machine.State :=
  let s := folding p []
  { s with
    bnd := { s.bnd with gt := [(100, ⟨.owned, false, .priv, false, 5, 9, 0, 0, 0, 0⟩), (101, ⟨.owned, false, .pod, false, 5, 9, 0, 0, 0, 0⟩)] }
    pcm := { s.pcm with roots := [(10, some 1)] } }

/-- `podded` with one husk fetch. -/
def fetching (p : Pod) (f : Fetch) : Machine.State := let s := podded p; { s with pcm := { s.pcm with fetches := [f] } }

/-- The root of slice 5. -/
def root1 : List Byte := leBytes 32 1

/-- The header of pod 77's husk, generation 1, section T of `tl` bytes, whatever the fingerprint of the root is. -/
def header0 (tl : Nat) : List Byte := (List.range 128).map (fun i =>
  if 0x28 ≤ i ∧ i < 0x38 then (rootFp root1).getD (i - 0x28) 0 else (bytes 128 [(8, 8, 77), (0x10, 4, 1), (0x18, 4, tl)]).getD i 0)

theorem rootFp_gets : rootFp root1 = (List.range 16).map (fun i => (rootFp root1).getD i 0) := by
  have h : (rootFp root1).length = 16 := by simp [rootFp, slice] <;> omega
  apply List.ext_getElem
  · simp [h]
  · intro i h1 h2; simp [h1]

/-- A fetch of pod 3's second section. -/
def fetch0 (stage : Nat) (h b : List Byte) : Fetch := ⟨5, 3, true, stage, 99740, h, b, false, 2 ^ 31, none⟩

theorem root_found (tl : Nat) : (fetching (pod0 .fetching .none) (fetch0 1 (header0 tl) [])).rootFor 5 (header0 tl) = some 0 := by
  have h : slice (header0 tl) 0x28 16 = rootFp root1 := by rw [rootFp_gets]; rfl
  have r : (fetching (pod0 .fetching .none) (fetch0 1 (header0 tl) [])).rootOf 5 0 = some root1 := rfl
  simp [Machine.State.rootFor, r, h]

theorem meets_HusksAreFetchedAndWritten_1 : ∀ tl ∈ [16, 2 ^ 31], let f := fetch0 1 (header0 tl) []
    let s := fetching (pod0 .fetching .none) f
    s.pcm.fetches.find? (fun f => f.sl == 5 && f.stage < 2) = some f ∧ f.header ≠ [] ∧ 128 ≤ f.moved ∧ s.pod 5 f.pod = some (pod0 .fetching .none)
    ∧ s.fetchChecks 5 (pod0 .fetching .none) f.secT f.header = none ∧ (s.takeRun 5 f.units).isSome = decide (tl = 16) := by
  intro tl h
  have c : (fetching (pod0 .fetching .none) (fetch0 1 (header0 tl) [])).fetchChecks 5 (pod0 .fetching .none) true (header0 tl) = none := by
    unfold Machine.State.fetchChecks
    rw [root_found tl]
    simp only [List.mem_cons, List.not_mem_nil, or_false] at h
    rcases h with rfl | rfl <;> decide +kernel
  have d : header0 tl ≠ [] := by intro h; have := congrArg List.length h; simp [header0] at this
  simp only [List.mem_cons, List.not_mem_nil, or_false] at h
  rcases h with rfl | rfl <;> exact ⟨by rfl, d, by decide, by rfl, c, by decide +kernel⟩

theorem meets_HusksAreFetchedAndWritten_2 : let f := fetch0 1 [0] []
    let s := fetching (pod0 .fetching .none) f
    let s : Machine.State := { s with pcm := { s.pcm with roots := [] } }
    s.pcm.fetches.find? (fun f => f.sl == 5 && f.stage < 2) = some f ∧ f.header ≠ [] ∧ 128 ≤ f.moved ∧ s.pod 5 f.pod = some (pod0 .fetching .none)
    ∧ s.fetchChecks 5 (pod0 .fetching .none) f.secT f.header = some ⟨Status.checkFailed, 4⟩ := by decide +kernel

theorem meets_HusksAreFetchedAndWritten_3 : let f := fetch0 2 [0] []
    let s := fetching (pod0 .fetching .none) f
    s.pcm.fetches.find? (fun f => f.sl == 5 && f.pod == 3 && f.secT == true && f.stage == 2) = some f ∧ s.pod 5 3 = some (pod0 .fetching .none)
    ∧ s.vfOf 5 = some 3 ∧ f.keyAsked + 260 ≤ s.spn.tick := by decide +kernel

theorem meets_HusksAreFetchedAndWritten_4 : let f := fetch0 3 [0] [0]
    let s := fetching (pod0 .fetching .none) f
    s.pcm.fetches.find? (fun f => f.sl == 5 && f.pod == 3 && f.secT == true && f.stage == 3) = some f ∧ f.bytes ≠ [] ∧ f.total ≤ f.moved
    ∧ { s with pcm := { s.pcm with promos := [(5, 3)] } }.pcm.promos.contains (5, 3) = true := by decide +kernel

/-- A promotion with nothing to read, with a read that came back, and with one that went bad. -/
theorem meets_HusksAreFetchedAndWritten_7 : ∀ x ∈ [([], 0), ([1], 0), ([1], 2)],
    let s := podded (pod0 .t1 .none)
    let s : Machine.State := { s with pcm := { s.pcm with promos := [(5, 3)], xfer := [(podKey 5 3, x.1)] }
                                      mce := { s.mce with colls := [⟨1, 0, 0, 0, x.2, []⟩] } }
    s.pcm.promos.contains (5, 3) = true ∧ tget (dflt []) s.pcm.xfer (podKey 5 3) = x.1 ∧ (∀ i ∈ x.1, s.collDone i = true ∧ s.collBad i = x.2) := by decide +kernel

theorem meets_HusksAreFetchedAndWritten_5 : let e := cmd 3 Op.podPut []
    let j : PodJob := ⟨5, 3, false, 0, true, 0x40000, 512, 1, 512, some e.ref⟩
    let s := having (podded (pod0 .t1 .none)) e
    let s : Machine.State := { s with pcm := { s.pcm with jobs := [j] } }
    s.pcm.jobs.find? (fun j => j.sl == 5 && j.pod == 3 && !j.rebase && j.started) = some j ∧ s.pod 5 3 = some (pod0 .t1 .none) ∧ j.len ≤ j.moved ∧ s.tpl.accs = []
    ∧ (s.mb e.ref.fn).exec.any (fun x => x.ref == e.ref && !x.done) = true ∧ (pod0 .t1 .none).life ≠ .retired := by decide +kernel

theorem meets_HusksAreFetchedAndWritten_6 :
    (podded { pod0 .t1 .none with shelf := [9] }).pcm.pods.find? (fun e => match e.2 with | some p => p.shelf.contains 9 | none => false)
      = some (podKey 5 3, some { pod0 .t1 .none with shelf := [9] })
    ∧ (folding (pod0 .t1 .none) [pass .step fdStep 0 0 []]).passAt 5 7 0 = some (pass .step fdStep 0 0 []) := by decide +kernel

/-- The fields of a pod command on pod 3 that every clause about it allows. -/
def podFields : List (Nat × Nat × Nat) := [(0x0C, 4, 3), (0x10, 4, 1), (0x14, 4, 5), (0x18, 8, 0x40000)]

theorem meets_PodCommandsRaiseTheirTransitions_1 : ∀ op ∈ [Op.podOpen, Op.podQuery, Op.podPin, Op.podUnpin, Op.podEvict, Op.podClose, Op.podRebase, Op.podKeyBind,
      Op.slotClaim, Op.slotRelease, Op.expertClaim, Op.expertRelease], let e := cmd 3 op podFields
    let s := having (podded (pod0 .t1 .none)) e
    s.toStart 3 op = some e ∧ e.ref.fn = 3 ∧ s.pod e.slice (handleOf e) = some (pod0 .t1 .none) ∧ fieldAt e.entry 0x14 4 ≠ 0 ∧ bit (fieldAt e.entry 0x10 1) 1 = false
    ∧ bit (fieldAt e.entry 0x11 1) 0 = false ∧ (pod0 .t1 .none).opt ≠ 0 ∧ (pod0 .t1 .none).train = 2 ∧ (s.vfOf e.slice).isSome = true ∧ s.vaultRoom e.slice = true ∧ s.podGone e = false := by decide +kernel

theorem meets_PodCommandsRaiseTheirTransitions_2 : let e := cmd 3 Op.podOpen [(0x0C, 4, 3)]
    let e' := cmd 3 Op.podQuery [(0x0C, 4, 4)]
    (having (podded (pod0 .t1 .none)) e).toStart 3 Op.podOpen = some e ∧ fieldAt e.entry 0x14 4 = 0
    ∧ (having (podded (pod0 .t1 .none)) e').toStart 3 Op.podQuery = some e' ∧ (podded (pod0 .t1 .none)).pod 5 (handleOf e') = none := by decide +kernel

theorem meets_PodCommandsRaiseTheirTransitions_3 : ∀ u ∈ [true, false], let p := { pod0 .t1 .none with unsaved := u }
    let e := cmd 3 Op.podPut [(0x0C, 4, 3), (0x10, 4, 4096), (0x18, 8, 0x40000)]
    let s := having (podded p) e
    s.toStart 3 Op.podPut = some e ∧ s.pod 5 3 = some p ∧ p.life ≠ .retired ∧ p.res ≠ .absent ∧ p.res ≠ .fetching ∧ fieldAt e.entry 0x10 4 ≠ 0
    ∧ p.huskSize ≤ fieldAt e.entry 0x10 4 ∧ p.unsaved = u ∧ (s.vfOf e.slice).isSome = true := by decide +kernel

theorem meets_PodCommandsRaiseTheirTransitions_4 : let p := pod0 .t1 .none
    let e := cmd 3 Op.podSetMode [(0x0C, 4, 3), (0x10, 2, 1), (0x12, 2, 1)]
    (having (podded p) e).toStart 3 Op.podSetMode = some e ∧ p.fetched = true ∧ fieldAt e.entry 0x10 2 ≠ 0 ∧ fieldAt e.entry 0x10 2 >>> p.layers.length = 0
    ∧ fieldAt e.entry 0x12 2 &&& (0xFFFF ^^^ fieldAt e.entry 0x10 2) = 0 := by decide +kernel

theorem meets_PodCommandsRaiseTheirTransitions_5 : let e := cmd 3 Op.podKeyBind []
    let s := having (podded (pod0 .absent .none)) e
    let s : Machine.State := { s with vlt := { s.vlt with reqs := [⟨5, VW.podRoot, [0], [], 0, none, none⟩] } }
    s.toStart 3 Op.podKeyBind = some e ∧ s.vaultRoom e.slice = false
    ∧ (let e := cmd 3 Op.expertClaim [(0x0C, 4, 3)]
       let s := having (podded (pod0 .absent .none)) e
       s.toStart 3 Op.expertClaim = some e ∧ s.podGone e = false ∧ s.pod 5 3 = some (pod0 .absent .none)) := by decide +kernel

/-! ## Hypotheses met: queues and tasks -/

/-- One completion waiting on queue 7. -/
def cpl0 : QCpl := ⟨5, 7, 0, false, 1, bytes 32 []⟩

/-- `s` with a completion of queue 7. -/
def completing (s : Machine.State) : Machine.State := { s with dpa := { s.dpa with cpls := [cpl0] } }

/-- Queue 7 with a descriptor at its turn, and what else the descriptor's kind looks at. -/
def turned (k : QKind) (d : List Byte) : Machine.State := queued { queue k 4096 3 0 0 with fetched := some d }

theorem meets_RingsAreRungAndCompleted_1 : let x := queue .task 4096 3 0 0
    let s := queued x
    s.Runs ∧ s.exists 3 = true ∧ s.presents 3 = some 5 ∧ s.queue 5 7 = some x ∧ (s.fn 3).reset = false ∧ x.stopped = false ∧ x.depth = 4096 := by
  refine ⟨runs_of (by decide), by decide⟩

theorem meets_RingsAreRungAndCompleted_2 : let x := queue .task 16 3 0 0
    (queued x).Runs ∧ (queued x).queue 5 7 = some x ∧ x.depth ≤ 4095 ∧ (4095 : Nat) < 4096 := by
  refine ⟨runs_of (by decide), by decide⟩

theorem meets_RingsAreRungAndCompleted_3 : ∀ g ∈ [0, 1], let x := { queue .task 4096 3 0 0 with gen := g }
    let s := completing (queued x)
    s.Runs ∧ s.queue 5 7 = some x ∧ s.dpa.cpls.find? (fun c => c.sl == 5 && c.queue == 7) = some cpl0 ∧ x.cqTail - x.cqSeen < x.depth ∧ x.dying = false
    ∧ s.vfOf 5 = some 3 ∧ s.mayWrite 3 x.gen = decide (g = 1) ∧ s.tpl.hostUp = true ∧ 0 < s.tpl.hostHeld := by
  intro g h
  simp only [List.mem_cons, List.not_mem_nil, or_false] at h
  rcases h with rfl | rfl <;> exact ⟨runs_of (by decide), by decide⟩

theorem meets_RingsAreRungAndCompleted_4 : let x := { queue .task 16 3 0 0 with cqTail := 16 }
    (completing (queued x)).queue 5 7 = some x ∧ x.depth ≤ x.cqTail - x.cqSeen := by decide

theorem meets_RingsAreRungAndCompleted_5 : let s : Machine.State := { run with spn := { run.spn with tick := 3906250 }, dpa := { run.dpa with refusals := [(5, 1)] } }
    s.Runs ∧ tget (dflt 0) s.dpa.refusals 5 ≠ 0 ∧ tget (dflt 0) s.dpa.lastRef 5 + 3906250 ≤ s.spn.tick ∧ tget (dflt 0) run.dpa.refusals 5 = 0 :=
  ⟨runs_of (by decide), by decide⟩

theorem meets_DescriptorsTakeTheirTurn_1 : ∀ v ∈ [0, 1], let d := bytes 128 [(0, 1, 1), (1, 1, v)]
    let x := { queue .task 4096 3 0 0 with fetched := some d }
    let s := turned .task d
    s.atTurn 5 7 .task = some (x, d) ∧ fieldAt d 0 1 = 1 ∧ s.fenceMet 5 7 x = true ∧ bit (fieldAt d 2 1) 0 = false
    ∧ (s.runCheck 5 d).isNone = decide (v = 1) ∧ runFdids d = [] := by decide +kernel

theorem meets_DescriptorsTakeTheirTurn_2 : let d := bytes 128 [(0, 1, 1), (1, 1, 1), (0x48, 2, 9)]
    let s := turned .task d
    let s : Machine.State := { s with fld := { s.fld with failed := [(5, 9)] } }
    (s.atTurn 5 7 .task).map Prod.snd = some d ∧ s.runCheck 5 d = none ∧ runFdids d = [9] ∧ s.fdidKnown 5 9 = false ∧ s.fld.failed.contains (5, 9) = true := by
  decide +kernel

theorem meets_DescriptorsTakeTheirTurn_3 : ∀ v ∈ [0, 1], let d := bytes 128 [(0, 1, 2), (1, 1, v), (4, 2, 1)]
    let s := turned .task d
    (s.atTurn 5 7 .task).map Prod.snd = some d ∧ fieldAt d 0 1 = 2 ∧ bit (fieldAt d 2 1) 0 = false ∧ (joinCheck d).isNone = decide (v = 1)
    ∧ (s.admQueue 5).length < 64 := by decide +kernel

theorem meets_DescriptorsTakeTheirTurn_4 : ∀ v ∈ [0, 1], let d := bytes 128 [(0, 1, 3), (1, 1, v), (4, 1, 1)]
    (turned .task d).atTurn 5 7 .task = some ({ queue .task 4096 3 0 0 with fetched := some d }, d) ∧ fieldAt d 0 1 = 3
    ∧ (turned .task d).fenceMet 5 7 { queue .task 4096 3 0 0 with fetched := some d } = true ∧ (leaveCheck d).isNone = decide (v = 1) := by decide +kernel

theorem meets_DescriptorsTakeTheirTurn_5 : ∀ k ∈ [1, 2], ∀ v ∈ [0, 1], let d := bytes 128 [(0, 1, k), (1, 1, v), (4, 4, 1)]
    (turned .dma d).atTurn 5 7 .dma = some ({ queue .dma 4096 3 0 0 with fetched := some d }, d) ∧ fieldAt d 0 1 = k ∧ (turned .dma d).dpa.dmas = []
    ∧ bit (fieldAt d 2 1) 0 = false ∧ (dmaCheck d).isNone = decide (v = 1) := by decide +kernel

theorem meets_DescriptorsTakeTheirTurn_7 : let d := bytes 128 [(0, 1, 1), (1, 1, 1), (0x48, 2, 9)]
    let s := turned .task d
    (s.atTurn 5 7 .task).map Prod.snd = some d ∧ s.runCheck 5 d = none ∧ runFdids d = [9] ∧ s.fdidKnown 5 9 = false ∧ s.fld.failed.contains (5, 9) = false
    ∧ (∀ k ∈ [QKind.task, .dma], (turned k (bytes 128 [(0, 1, 4)])).atTurn 5 7 k = some ({ queue k 4096 3 0 0 with fetched := some (bytes 128 [(0, 1, 4)]) }, bytes 128 [(0, 1, 4)]))
    ∧ fieldAt (bytes 128 [(0, 1, 4)]) 0 1 = 4 := by
  decide +kernel

/-- A transfer out of queue 7 with a line asked for, its read at an end with `bad` faults; a transfer with nothing on its way. -/
def moving (o : Nat) (ids : List (Nat × Nat)) (bad : Nat) : Dma × Machine.State :=
  let m : Dma := ⟨5, 7, 1, 0, bytes 128 [(0, 1, o)], 4, 0, none, ids⟩
  let s := queued (queue .dma 4096 3 0 0)
  (m, { s with dpa := { s.dpa with dmas := [m] }, mce := { s.mce with colls := [⟨1, 0, 4, 0, bad, [(0, zeros 4)]⟩] } })

theorem meets_DescriptorsTakeTheirTurn_6 : ∀ c ∈ [(1, [], 0), (1, [(1, 0)], 2), (2, [(1, 0)], 0)], let m := (moving c.1 c.2.1 c.2.2).1
    let s := (moving c.1 c.2.1 c.2.2).2
    s.mce.fenced = false ∧ s.dpa.dmas.find? (fun d => d.sl == 5 && d.queue == 7) = some m ∧ s.queue 5 7 = some (queue .dma 4096 3 0 0) ∧ s.tpl.accs = []
    ∧ m.ids = c.2.1 ∧ fieldAt m.desc 0 1 = c.1 ∧ (∀ e ∈ m.ids, s.collDone e.1 = true ∧ s.collBad e.1 = c.2.2) := by decide +kernel

/-- A RUN of queue 7, and one of queue 8. -/
def task (q : Nat) (st : TaskSt) (cl : Nat) : Task :=
  ⟨5, q, 1, 0, bytes 128 [(0, 1, 1), (1, 1, 1), (0x20, 8, 1)], st, cl, 90000, 0, 0, 99990, [], false, false, false⟩

/-- Slice 5 with queues 7 and 8, room for two images, and tasks. -/
def tasked (l : List Task) : Machine.State :=
  let s := queued (queue .task 4096 3 1 1)
  let q8 := queue .task 4096 3 1 1
  let s := s.wr (vfReg 3 V.dpaQuantum) 1
  { s with
    dpa := { s.dpa with tasks := l, queues := [(qkey 5 7, some q8), (qkey 5 8, some q8)] }
    bnd := { s.bnd with gt := (List.range 120).map (fun i => (i, ⟨.owned, false, .save, false, 5, 9, 0, 0, 0, 0⟩)) } }

theorem meets_TasksArePlacedAndEnd_1 : ∀ st ∈ [TaskSt.ready, .saved], let k := task 7 st 0xFF
    let s := tasked [k]
    s.contained 5 = false ∧ (s.sdef 5).isSome = true ∧ tget (dflt ParkSt.none) s.src.park 5 = .none
    ∧ ((s.wake 5).workOrder 5).find? (fun t => ((s.wake 5).candidate t).isSome) = some k ∧ (s.wake 5).candidate k = some 0
    ∧ ((tasked []).wake 5).workOrder 5 = [] := by decide +kernel

theorem meets_TasksArePlacedAndEnd_2 : ∀ st ∈ [TaskSt.running, .saving, .restoring], let k := task 7 st 0
    let s := tasked [k]
    s.taskOn 0 = some k ∧ s.contained k.sl = false ∧ s.queue k.sl k.queue = some (queue .task 4096 3 1 1) ∧ k.drain = false := by decide +kernel

theorem meets_TasksArePlacedAndEnd_3 : let k := task 7 .running 0
    let s := tasked [k, task 8 .ready 0xFF]
    let w := s.wake 5
    let qt := 64 * s.rf (vfReg ((s.vfOf 5).getD 0) V.dpaQuantum) 15 0
    s.taskOn 0 = some k ∧ s.contained 5 = false ∧ (s.queue 5 7).elim true Queue.preemptTask = false ∧ qt ≠ 0 ∧ k.placedAt + qt ≤ s.spn.tick ∧ k ∈ w.dpa.tasks
    ∧ (w.work 5).any (fun x => x.queue != 7 && w.prioOf x == w.prioOf k && runAllows x.desc 0 && !(w.idleClusters 5).any (fun j => runAllows x.desc j)) = true
    ∧ w.imageAllowed 5 = true := by decide +kernel

theorem meets_TasksArePlacedAndEnd_4 : (255 : Nat) < 256 ∧ (run.sdef 5).isSome = true ∧ run.contained 5 = false ∧ (run.sdef 6).isNone = true := by decide

/-! ## Hypotheses met: queue, capture and recorder commands -/

/-- A command of VF 3's mailbox starts on slice 5 with queue 7. -/
def with7 (e : ExecCmd) : Machine.State := having (queued (queue .task 4096 3 0 0)) e

theorem meets_QueueAndCaptureCommandsAct_1 : let e := cmd 3 Op.queueCreate [(0x0C, 1, 1 + 64), (0x0E, 2, 4096), (0x10, 8, 4096), (0x18, 8, 8192)]
    let s := with7 e
    Starts s 3 Op.queueCreate e ∧ bit (s.rd R.chkMode) 1 = false ∧ fieldAt e.entry 0x0C 1 % 16 = 1 ∧ fieldAt e.entry 0x0E 2 % 8192 = 4096
    ∧ fieldAt e.entry 0x10 8 % 4096 = 0 ∧ fieldAt e.entry 0x18 8 % 4096 = 0 := ⟨⟨by decide +kernel, by decide⟩, by decide +kernel⟩

theorem meets_QueueAndCaptureCommandsAct_2 : let e := cmd 3 Op.queueCreate []
    let s := (with7 e).wr R.chkMode 2
    Starts s 3 Op.queueCreate e ∧ bit (s.rd R.chkMode) 1 = true := ⟨⟨by decide +kernel, by decide⟩, by decide +kernel⟩

theorem meets_QueueAndCaptureCommandsAct_3 : ∀ op ∈ [Op.queueDestroy, Op.queueFlush, Op.sliceReset], let e := cmd 3 op [(0x0C, 2, 7)]
    (with7 e).toStart 3 op = some e ∧ e.ref.fn = 3 := by decide +kernel

theorem meets_QueueAndCaptureCommandsAct_4 : ∀ w ∈ [0, 1, 2, 3], let e := cmd 3 Op.queueSuspend [(0x0C, 2, 7), (0x0E, 1, w)]
    (with7 e).toStart 3 Op.queueSuspend = some e ∧ fieldAt e.entry 0x0E 1 % 4 = w := by decide +kernel

theorem meets_QueueAndCaptureCommandsAct_5 : ∀ m ∈ [0, 1, 2, 3], let e := cmd 3 Op.captureMode [(0x0C, 1, m)]
    (with7 e).toStart 3 Op.captureMode = some e ∧ fieldAt e.entry 0x0C 1 % 4 = m ∧ (with7 e).sdef e.slice = some sl5 ∧ sl5.fabMask = 0 := by decide +kernel

theorem meets_QueueAndCaptureCommandsAct_6 : let e := cmd 3 Op.queueCounts [(0x0C, 2, 7)]
    let s := with7 e
    Starts s 3 Op.queueCounts e ∧ s.mayWrite e.ref.fn e.ref.gen = true ∧ s.queue e.slice (queueOf e) = some (queue .task 4096 3 0 0) ∧ e.ref.direct = false :=
  ⟨⟨by decide +kernel, by decide⟩, by decide +kernel⟩

/-- CAPTURE_READ of 16 bytes, with a capture of slice 5 held or being taken. -/
def captured (taking : Bool) : ExecCmd × Machine.State :=
  let e := cmd 3 Op.captureRead [(0x14, 4, 16)]
  let s := with7 e
  (e, { s with flt := { s.flt with slices := [(5, { FltSlice.init with phase := .capture, containAt := 99000, capture := some ⟨2, 16, [1], [], 0, taking⟩ })] } })

theorem meets_QueueAndCaptureCommandsAct_7 : let e := (captured false).1
    let s := (captured false).2
    Starts s 3 Op.captureRead e ∧ s.mayWrite e.ref.fn e.ref.gen = true ∧ (s.captureOf e.slice (fieldAt e.entry 0x0C 4)).isSome = true
    ∧ (s.captureOf e.slice (fieldAt e.entry 0x0C 4)).map (fun c => c.2.2.1) = some 16 ∧ (s.fsl e.slice).capture.map Capture.taking = some false
    ∧ fieldAt e.entry 0x10 4 + fieldAt e.entry 0x14 4 = 16 := ⟨⟨by decide +kernel, by decide⟩, by decide +kernel⟩

theorem meets_QueueAndCaptureCommandsAct_8 : let e := (captured true).1
    let s := (captured true).2
    Starts s 3 Op.captureRead e ∧ (s.fsl e.slice).capture.map Capture.taking = some true ∧ fieldAt e.entry 0x0C 4 = 0 :=
  ⟨⟨by decide +kernel, by decide⟩, by decide +kernel⟩

/-- `run` with a recorder that holds and awaits records. -/
def recording (n : Nat) (q : List EvrRec) (clearing : Bool) : Machine.State :=
  { run with evr := { run.evr with mem := List.replicate n rec0, inq := q, clearing := clearing } }

theorem meets_TheRecorderIsWrittenAndRead_1 (n : Nat) : (recording n [rec0] false).evr.inq = rec0 :: [] ∧ (recording n [rec0] false).recZeroing = false
    ∧ (recording n [rec0] false).pins.vddSec = true ∧ (recording n [rec0] false).evr.mem.length = n :=
  ⟨rfl, rfl, rfl, List.length_replicate⟩

theorem meets_TheRecorderIsWrittenAndRead_2 : (recording 1 [] false).evr.inq = [] ∧ (recording 1 [rec0] true).recZeroing = true := by decide

theorem meets_TheRecorderIsWrittenAndRead_3 : let e := cmd pf0 Op.recRead [(0x10, 3, 65536)]
    let s := having (recording 1 [] false) e
    Starts s pf0 Op.recRead e ∧ s.mayWrite e.ref.fn e.ref.gen = true ∧ e.ref.direct = false ∧ fieldAt e.entry 0x0C 3 % 131072 ≤ 65535
    ∧ fieldAt e.entry 0x10 3 % 131072 = 65536 ∧ s.recZeroing = false ∧ (s.evr.mem.drop (fieldAt e.entry 0x0C 3 % 131072)).take (fieldAt e.entry 0x10 3 % 131072) ≠ [] :=
  ⟨⟨by decide +kernel, by decide⟩, by decide +kernel⟩

theorem meets_TheRecorderIsWrittenAndRead_4 : let e := cmd pf0 Op.logRead [(0x0C, 4, 8388607), (0x10, 4, 1)]
    let s := having run e
    Starts s pf0 Op.logRead e ∧ s.mayWrite e.ref.fn e.ref.gen = true ∧ fieldAt e.entry 0x0C 4 % 2 ^ 23 + fieldAt e.entry 0x10 4 = 8388608 :=
  ⟨⟨by decide +kernel, by decide⟩, by decide +kernel⟩

theorem meets_TheRecorderIsWrittenAndRead_5 : let e := cmd pf0 Op.recRead [(0x10, 3, 1)]
    let s := having (recording 1 [] true) e
    Starts s pf0 Op.recRead e ∧ fieldAt e.entry 0x0C 3 % 131072 ≤ 65535 ∧ fieldAt e.entry 0x10 3 % 131072 ≤ 65536 ∧ s.recZeroing = true
    ∧ (having run (cmd pf0 Op.logMask [])).toStart pf0 Op.logMask = some (cmd pf0 Op.logMask []) := ⟨⟨by decide +kernel, by decide⟩, by decide +kernel⟩

theorem meets_TheRecorderIsWrittenAndRead_6 : let e := cmd pf0 Op.recCtl [(0x0C, 1, 3)]
    let s := having (recording 1 [] true) e
    let s : Machine.State := { s with evr := { s.evr with clearCmd := some e.ref } }
    s.recZeroing = true ∧ s.evr.clearCmd = some e.ref ∧ (s.mb e.ref.fn).exec.any (fun x => x.ref == e.ref && !x.done) = true := by decide +kernel

theorem meets_RecCtlActsInClassTwelve_1 : ∀ op ∈ [0, 1, 2, 3], let e := cmd pf0 Op.recCtl [(0x0C, 1, op)]
    (having run e).toStart pf0 Op.recCtl = some e ∧ fieldAt e.entry 0x0C 1 % 4 = op := by decide +kernel

theorem meets_RecCtlActsInClassTwelve_2 : ∀ frozen ∈ [none, some 99], let e := cmd pf0 Op.recCtl [(0x0C, 1, 1)]
    let s := having run e
    let s : Machine.State := { s with evr := { s.evr with frozen := frozen } }
    (s.mb e.ref.fn).exec.any (fun x => x.ref == e.ref && !x.done) = true ∧ s.evr.frozen = frozen ∧ s.evr.clearing = false := by decide +kernel

/-! ## Hypotheses met: host interface -/

theorem meets_HostLinkCreditsAreKept_1 : let s : Machine.State := { run with tpl := { run.tpl with use := [(chKey 111 255, ⟨0, 1⟩)], hostUsed := 3 } }
    (s.bufUse 111 255).returning ≠ 0 ∧ (3 : Nat) ≤ s.tpl.hostUsed ∧ s.tpl.hostUp = true ∧ { s with tpl := { s.tpl with hostUp := false } }.tpl.hostUp = false
    ∧ s.tpl.reqs = [] := by decide

theorem meets_HostLinkCreditsAreKept_2 : let x := { queue .task 4096 3 0 0 with reading := true }
    let r : HostReq := ⟨1, 2, 0, 128, 112⟩
    let a : HostAcc := ⟨2, .ring, 5, 7, 0, 3, 1, false, 0x10000, 128, 128, 0, [], 0⟩
    let s := queued x
    let s : Machine.State := { s with tpl := { s.tpl with reqs := [r], accs := [a] } }
    s.tpl.reqs.find? (fun r => r.tag == 1) = some r ∧ s.tpl.accs.find? (fun a => a.id == r.acc) = some a ∧ s.contained a.sl = false ∧ s.mce.fenced = false ∧ s.queue a.sl a.a = some x
    ∧ x.reading = true ∧ x.turn = a.b ∧ r.off = 0 ∧ a.len = r.len ∧ a.back = 0 ∧ a.data = [] := by decide +kernel

/-- `run` with VF 3's interface in a state. -/
def interface (t : TdispSt) : Machine.State := { run with hfp := { run.hfp with fns := [(3, { FnSt.init with tdisp := t, pend := 2 ^ 31 })] } }

theorem meets_FunctionsFollowTheirConfiguration_1 : ∀ t ∈ [TdispSt.unlocked, .locked, .run, .error], let s := interface t
    s.Runs ∧ s.exists 3 = true ∧ (1 : Nat) < 2 ∧ tget (dflt 0) (s.fn 3).cfg 1 ≠ 2 ^ 32 - 1 ∧ tget (dflt 0) (s.fn 3).cfg 3 ≠ 7 % 4 ∧ 3 ≠ pf0 ∧ (s.fn 3).tdisp = t ∧ s.presents 3 = some 5
    ∧ s.exists 4 = true ∧ s.presents 4 = none := by
  intro t h
  simp only [List.mem_cons, List.not_mem_nil, or_false] at h
  rcases h with rfl | rfl | rfl | rfl <;> exact ⟨runs_of (by decide), by decide⟩

theorem meets_FunctionsFollowTheirConfiguration_2 : (64 : Nat) ≤ 64 ∧ run.hfp.vfEnable = true ∧ run.hfp.numVfs ≠ 63 ∧ List.range 63 ≠ [] := by decide

theorem meets_FunctionsFollowTheirConfiguration_3 : (31 : Nat) < 32 ∧ bit ((interface .run).fn 3).pend 31 = true ∧ ((interface .run).fn 3).fnMask = false ∧ (interface .run).withheld 3 = false
    ∧ (interface .error).withheld 3 = true ∧ bit ((interface .error).fn 3).pend 31 = true ∧ ((interface .error).fn 3).fnMask = false := by decide

/-- `run` with VF 3's mailbox as given. -/
def boxed (m : Mbx) : Machine.State := { run with mbx := [(3, m)] }

theorem meets_MailboxesRunTheirRings_1 : let s := boxed Mbx.init
    let s' := s.wr (mbReg 3 R.mbxSqBaseLo V.mbxSqBaseLo) 1
    s.Runs ∧ s.exists 3 = true ∧ (s.mb 3).on = false ∧ (s.rd (mbReg 3 R.mbxSqBaseLo V.mbxSqBaseLo) + 2 ^ 32 * s.rd (mbReg 3 R.mbxSqBaseHi V.mbxSqBaseHi)) % 4096 = 0
    ∧ (s.rd (mbReg 3 R.mbxCqBaseLo V.mbxCqBaseLo) + 2 ^ 32 * s.rd (mbReg 3 R.mbxCqBaseHi V.mbxCqBaseHi)) % 4096 = 0 ∧ (s'.mb 3).on = false
    ∧ (s'.rd (mbReg 3 R.mbxSqBaseLo V.mbxSqBaseLo) + 2 ^ 32 * s'.rd (mbReg 3 R.mbxSqBaseHi V.mbxSqBaseHi)) % 4096 ≠ 0 := ⟨runs_of (by decide), by decide +kernel⟩

theorem meets_MailboxesRunTheirRings_2 : let s := boxed { Mbx.init with on := true, depth := 16 }
    s.Runs ∧ (s.mb 3).on = true ∧ 15 < (s.mb 3).depth ∧ (s.mb 3).depth ≤ 16 ∧ (16 : Nat) < 4096 := ⟨runs_of (by decide), by decide⟩

theorem meets_MailboxesRunTheirRings_3 : ∀ n ∈ [0, 16], ∀ final ∈ [true, false],
    let e := { cmd 3 Op.podPut [] with done := final, interim := !final }
    let s := boxed { Mbx.init with on := true, depth := 16, exec := [e], cqTail := n }
    s.exists 3 = true ∧ s.nextCpl 3 = some (e, final) ∧ e.ref.direct = false ∧ e.lost = false ∧ s.mayWrite 3 e.ref.gen = true ∧ (s.mb 3).on = true ∧ e.ref.fn = 3
    ∧ ((s.mb 3).cqTail - (s.mb 3).cqSeen < (s.mb 3).depth ↔ n = 0) ∧ s.tpl.hostUp = true ∧ 0 < s.tpl.hostHeld ∧ (s.mb 3).ended = false := by decide +kernel

theorem meets_MailboxesRunTheirRings_4 : let s := boxed { Mbx.init with on := true, depth := 16, lease := true, leaseAt := 100000 }
    s.Runs ∧ (s.mb 3).lease = true ∧ (s.mb 3).leaseAt ≤ s.spn.tick ∧ (s.mb 3).tail ≤ (s.mb 3).head ∧ s.directBusy = false := ⟨runs_of (by decide), by decide⟩

theorem meets_SessionsAreNegotiatedAndLeased_1 : ∀ lo ∈ [1, 3, 4], let e := cmd 3 Op.negotiate [(0x0C, 1, lo), (0x0D, 1, 4)]
    let s := having run e
    s.toStart 3 Op.negotiate = some e ∧ e.ref.fn = 3 ∧ fieldAt e.entry 0x0C 1 = lo ∧ lo ≤ fieldAt e.entry 0x0D 1 ∧ (s.mb 3).exec = [e] := by decide +kernel

theorem meets_SessionsAreNegotiatedAndLeased_2 : ∀ ms ∈ [0, 49, 50, 60000, 60001], let e := cmd 3 Op.attach [(0x0C, 2, ms)]
    (having run e).toStart 3 Op.attach = some e ∧ fieldAt e.entry 0x0C 2 = ms := by decide +kernel

theorem meets_SessionsAreNegotiatedAndLeased_3 : ∀ l ∈ [true, false], ∀ k ∈ [5, 6], let e := { cmd 3 Op.lease [] with stamp := k }
    let s := boxed { Mbx.init with on := true, depth := 16, exec := [e], lease := l, leaseAt := 5 }
    s.toStart 3 Op.lease = some e ∧ (s.mb 3).lease = l ∧ (e.stamp ≤ (s.mb 3).leaseAt ↔ k = 5) := by decide +kernel

theorem meets_SessionsAreNegotiatedAndLeased_4 : (having run (cmd 3 Op.detach [])).toStart 3 Op.detach = some (cmd 3 Op.detach []) := by decide +kernel

/-! ## Hypotheses met: vault -/

/-- The header of an image of one grain and one tile. -/
def image0 : List (Nat × Nat × Nat) := [(0, 4, 0x4D49594C), (4, 1, 1), (8, 8, 1), (0x10, 4, 1), (0x14, 4, 1), (0x18, 4, 1), (0x28, 8, 8)]

theorem meets_VaultRequestsTakeTheirSlots_1 : ∀ op ∈ [Op.statementGet, Op.secretInstall, Op.challenge], let e := cmd 3 op []
    let s := having run e
    let s : Machine.State := { s with vlt := { s.vlt with secrets := [(5, some 1)] } }
    s.toStart 3 op = some e ∧ e.ref.fn = 3 ∧ s.aliasUp = true ∧ s.vaultRoom e.slice = true ∧ s.sdef e.slice = some sl5
    ∧ (s.chalFrom 3 e.stamp e.slice).isSome = true ∧ run.chalFrom 3 e.stamp e.slice = none
    ∧ { run with vlt := { run.vlt with chalAt := [⟨5, 3, e.stamp, some 1, [7]⟩] } }.chalFrom 3 e.stamp e.slice = some (1, [7])
    ∧ { s with vlt := { s.vlt with reqs := [⟨5, VW.secret, [], [], 0, none, none⟩] } }.vaultRoom e.slice = false := by decide +kernel

theorem meets_VaultRequestsTakeTheirSlots_2 : let e := { cmd pf0 Op.imageBind [(0x0C, 1, 3)] with data := bytes 356 image0 }
    let s := having run e
    Starts s pf0 Op.imageBind e ∧ (s.image (fieldAt e.entry 0x0C 1 % 4)).bound = false ∧ bit (s.rd R.chkMode) 1 = false ∧ s.vlt.binding = none
    ∧ s.systemGrant = true ∧ s.vaultRoom 66 = true ∧ ∀ x ∈ s.headerCheck (slice e.data 0 128) (bit (fieldAt e.entry 0x0C 1) 2), x.1 = false :=
  ⟨⟨by decide +kernel, by decide⟩, by decide +kernel⟩

theorem meets_VaultRequestsTakeTheirSlots_3 : ∀ w ∈ [VW.statement, VW.secret], let r : VReq := ⟨5, w, [], [], 29000, none, none⟩
    let s : Machine.State := { run with spn := { run.spn with tick := 30000 }, vlt := { run.vlt with reqs := [r] } }
    (slotAt s.spn.tick).2.1 = true ∧ s.vlt.st ≠ 4 ∧ s.vlt.reqs.find? (fun r => r.owner == (slotAt s.spn.tick).1) = some r ∧ r.begun = none
    ∧ s.vlt.drbgStopped = false ∧ s.aliasUp = true ∧ (slotAt run.spn.tick).2.1 = false := by decide +kernel

theorem meets_VaultRequestsTakeTheirSlots_4 : ∀ direct ∈ [true, false], let e := { cmd 3 Op.challenge [] with ref := ⟨3, direct, 1, Op.challenge, 1⟩ }
    let c : Chal := ⟨5, 100000, 0, bytes 48 [], some e.ref⟩
    let s := having run e
    let s : Machine.State := { s with vlt := { s.vlt with chals := [c] } }
    s.vlt.chals.find? (fun c => c.sl == 5 && decide (c.due ≤ s.spn.tick)) = some c ∧ c.cmd = some e.ref
    ∧ (s.mb e.ref.fn).exec.find? (fun x => x.ref == e.ref && !x.done) = some e ∧ s.mayWrite e.ref.fn e.ref.gen = true ∧ e.ref.direct = direct
    ∧ c.data.length ≤ 3840 := by decide +kernel

/-- A load complete, of a header that names no tile, or one tile whose entry reads as zeros (where a tile lies is free, so no sound tile can be written out). -/
theorem meets_VaultRequestsTakeTheirSlots_5 : ∀ n ∈ [0, 1], let e := cmd pf0 Op.imageBind []
    let x : Bind := ⟨3, 4, false, 0, bytes 128 [(0x14, 4, 1), (0x18, 4, n)], 0, 0, 1, [], [0], none, some e.ref⟩
    let s := having run e
    let s : Machine.State := { s with vlt := { s.vlt with binding := some x } }
    s.vlt.binding = some x ∧ x.phase = 4 ∧ x.failing = none ∧ x.loaded = ihGrains x.header ∧ s.mce.reqs = []
    ∧ x.firstBad = (if n = 0 then none else some 0) ∧ ((List.range (ihSpares x.header)).map x.spareBytes).any x.spareBad = false ∧ x.cmd = some e.ref
    ∧ (s.mb e.ref.fn).exec.any (fun y => y.ref == e.ref && !y.done) = true := by decide +kernel

theorem meets_EntropyFailuresAndTampersAreMet_1 : ∀ stopped ∈ [true, false], ∀ w ∈ [true, false],
    let s : Machine.State := { run with vlt := { run.vlt with drbgStopped := stopped, entropyFail := some 99000 }, lc := { run.lc with nonceWait := w } }
    s.vlt.drbgStopped = stopped ∧ s.lc.nonceWait = w ∧ s.spn.tick ≤ 99000 + 3906250 ∧ run.vlt.entropyFail = none := by decide

theorem meets_EntropyFailuresAndTampersAreMet_2 : Tbl.wf (dflt KeyE.init) run.mce.keys ∧ (∀ k ∈ [0, 9], (run.key k).share.length ≤ 96 ∧ (run.key k).mask.length ≤ 96)
    ∧ { run with vlt := { run.vlt with drbgStopped := true, entropyFail := some 99000 } }.vlt.drbgStopped = true := by decide

/-- `run` with a session of connection 0. -/
def session (up : Bool) : Machine.State := { run with vlt := { run.vlt with conns := [(0, ⟨3, 0x13, [⟨1, up, 1⟩], 2⟩)] } }

theorem meets_SpdmRequestsAreAnswered_1 : ∀ up ∈ [true, false], let s := session up
    (0 : Nat) < 2 ∧ s.hears 0 = true ∧ s.aliasUp = true ∧ s.vaultRoom 64 = true ∧ s.sess 0 1 = some ⟨1, up, 1⟩ ∧ (Sess.mk 1 up 1).up = up
    ∧ (s.conn 0).sess.length + (s.vlt.reqs.filter (fun r => r.owner == 64 && r.what == VW.exchange)).length < 4 := by decide +kernel

theorem meets_SpdmRequestsAreAnswered_2 : let r : VReq := ⟨65, VW.challenge, [1], [], 0, none, none⟩
    let s : Machine.State := { run with
      pins := { run.pins with i3cAddr := some 8 }
      vlt := { run.vlt with reqs := List.replicate 16 r, conns := [(1, ⟨3, 0x13, List.replicate 4 ⟨1, true, 1⟩, 5⟩)] } }
    (1 : Nat) < 2 ∧ s.hears 1 = true ∧ s.aliasUp = true ∧ s.vaultRoom 65 = false
    ∧ 4 ≤ (s.conn 1).sess.length + (s.vlt.reqs.filter (fun r => r.owner == 65 && r.what == VW.exchange)).length := by decide +kernel

theorem meets_SpdmRequestsAreAnswered_3 : let s : Machine.State := { run with vlt := { run.vlt with st := 1 } }
    s.hears 0 = true ∧ s.vlt.st < 2 := by decide

theorem meets_TdispMovesAnInterface_1 : ∀ t ∈ [TdispSt.unlocked, .locked, .run, .error], ∀ stopped ∈ [true, false], let s := interface t
    let s : Machine.State := { s with vlt := { (session true).vlt with drbgStopped := stopped } }
    s.hfp.cfgReady = true ∧ s.aliasUp = true ∧ s.sess 0 1 = some ⟨1, true, 1⟩ ∧ (3 : Nat) < 64 ∧ s.presents 3 = some 5 ∧ s.exists 3 = true ∧ s.inFault 5 = false
    ∧ (s.fn 3).reset = false ∧ (s.fn 3).tdisp = t ∧ s.vlt.drbgStopped = stopped ∧ s.sdef 5 = some sl5 := by decide +kernel

/-! ## Hypotheses met: life cycle -/

/-- `run` in life-cycle index `i`, with LC_REQ asking for `target`. -/
def cycle (i target : Nat) : Machine.State := let s := run.wr R.lcReq target; { s with lc := { s.lc with idx := i }, pins := { s.pins with vbak := true } }

/-- The same without slices. -/
def bare (i target : Nat) : Machine.State := let s := cycle i target; { s with bnd := { s.bnd with defs := [] } }

theorem meets_TransitionsAreJudgedAndBurnt_1 : let s := bare 1 2
    s.Runs ∧ s.rf R.lcReq 7 0 = 2 ∧ lcPair s.lc.idx 2 = some none ∧ s.slices = [] ∧ s.armed = none ∧ s.lc.burn = none ∧ s.pins.vbak = true
    ∧ s.lc.lockdown = false ∧ s.burnList 2 none ≠ [] := ⟨runs_of (by decide), by decide +kernel⟩

theorem meets_TransitionsAreJudgedAndBurnt_2 : let s := cycle 1 3
    s.Runs ∧ s.rf R.lcReq 7 0 = 3 ∧ s.lc.burn = none ∧ lcPair s.lc.idx 3 = none ∧ s.slices ≠ []
    ∧ lcPair (bare 0 1).lc.idx 1 = some (some 0) ∧ (bare 0 1).tokFused 0 = false := ⟨runs_of (by decide), by decide +kernel⟩

theorem meets_TransitionsAreJudgedAndBurnt_3 : ∀ n ∈ [0, 32, 192], let e := cmd pf0 Op.lcTransition [(0x0C, 1, 2), (0x18, 2, n)]
    let s := having (bare 1 0) e
    s.toStart pf0 Op.lcTransition = some e ∧ e.ref.fn = pf0 ∧ s.mce.halted = false ∧ fieldAt e.entry 0x0C 1 = 2 ∧ fieldAt e.entry 0x18 2 = n ∧ s.lc.burn = none
    ∧ lcPair s.lc.idx 2 = some none ∧ s.slices = [] ∧ s.armed = none ∧ s.pins.vbak = true ∧ s.lc.lockdown = false ∧ s.burnList 2 none ≠ []
    ∧ (having (cycle 1 0) e).toStart pf0 Op.lcTransition = some e ∧ (having (cycle 1 0) e).slices ≠ [] := by decide +kernel

theorem meets_TransitionsAreJudgedAndBurnt_4 : ∀ tries ∈ [0, 2, 3], let s := bare 1 0
    let s : Machine.State := { s with lc := { s.lc with burn := some ⟨2, [(1, 4), (2, 4)], tries⟩ } }
    s.lc.burn = some ⟨2, (1, 4) :: (2, 4) :: [], tries⟩ ∧ (1 : Nat) < 2 ∧ s.src.deep = 0 ∧ s.pins.wrstLatched = 0 := by decide

theorem meets_DebugOpensAndCloses_1 : let s := bare 17 0
    let s' : Machine.State := { s with lc := { s.lc with debug := true, verify := some [] } }
    s.Runs ∧ s.lcCode = 0x11 ∧ s.slices = [] ∧ s.lc.verify = none ∧ s.lc.debug = false ∧ (cycle 17 0).slices ≠ [] ∧ s'.lc.debug = true ∧ s'.lcCode = 0x11
    ∧ s'.lc.verify = some [] ∧ s'.slices = [] ∧ Tbl.wf (dflt Core.init) s.ccx.cores = true := ⟨runs_of (by decide), by decide +kernel⟩

theorem meets_DebugOpensAndCloses_2 : ∀ op ∈ [1, 2], ∀ i ∈ [17, 1], ∀ open' ∈ [true, false], let e := cmd pf0 Op.debugCtl [(0x0C, 1, op)]
    let s := having (bare i 0) e
    let s : Machine.State := { s with lc := { s.lc with debug := open' } }
    s.toStart pf0 Op.debugCtl = some e ∧ e.ref.fn = pf0 ∧ fieldAt e.entry 0x0C 1 % 4 = op ∧ fieldAt e.entry 0x10 8 = 0 ∧ s.mce.halted = false
    ∧ (s.lcCode = 0x11 ↔ i = 17) ∧ s.slices = [] ∧ s.lc.verify = none ∧ s.lc.debug = open' := by decide +kernel

/-! ## Hypotheses met: faults -/

/-- `tasked` with slice 5's recovery as given. -/
def failing (l : List Task) (x : FltSlice) : Machine.State := let s := tasked l; { s with flt := { s.flt with slices := [(5, x)] } }

/-- `run` in a block reset of kind `k` since tick `at'`, slice 5 contained by it. -/
def blockReset (k at' : Nat) : Machine.State := { run with flt := { run.flt with block := k, blockAt := at' } }

theorem meets_WatchdogsAndDiesReportTheirFaults_1 : let s := failing [task 7 .running 0] FltSlice.init
    let s' := failing [task 7 .running 0] { FltSlice.init with phase := .contain, containAt := 100000 }
    s.taskOn 0 = some (task 7 .running 0) ∧ s.contained 5 = false ∧ 1024 * max 1 (s.rf R.fltWdEngine 15 0) ≤ 1024 * 65536
    ∧ 1023 < 1024 * max 1 (s.rf R.fltWdEngine 15 0) ∧ s'.taskOn 0 = some (task 7 .running 0) ∧ s'.contained 5 = true := by decide +kernel

theorem meets_WatchdogsAndDiesReportTheirFaults_2 : let s' := failing [] { FltSlice.init with phase := .contain, containAt := 100000 }
    (3 : Nat) < 4 ∧ (19 : Nat) < 20 ∧ run.inReset = false ∧ run.flt.block = 0 ∧ run.listing 3 = [] ∧ run.listing 0 = [5] ∧ run.contained 5 = false
    ∧ s'.inReset = false ∧ s'.listing 0 = [5] ∧ s'.contained 5 = true := by decide +kernel

theorem meets_WatchdogsAndDiesReportTheirFaults_3 : ∀ c ∈ [100000 - 80, 100000 - 66, 100000], let s := failing [] { FltSlice.init with phase := .contain, acted := true, containAt := c, notStopped := [0], inReset := [1] }
    (s.cluster 0).owner = 5 ∧ (s.cluster 1).owner = 5 ∧ s.containedAt 5 = some c ∧ 0 ∈ (s.fsl 5).notStopped ∧ 1 ∈ (s.fsl 5).inReset ∧ 64 ≤ (s.cluster 63).owner := by
  decide +kernel

theorem meets_WatchdogsAndDiesReportTheirFaults_4 : ∀ c ∈ [100000 - 80, 100000 - 79], let s := failing [] { FltSlice.init with phase := .reset, inReset := [0] }
    let s : Machine.State := { s with flt := { s.flt with block := 1, blockAt := c } }
    (s.cluster 0).owner = 5 ∧ s.containedAt 5 = some c ∧ 0 ∈ (s.fsl 5).inReset ∧ (s.fsl 5).phase ≠ .contain ∧ (c + 80 ≤ s.spn.tick ↔ c = 100000 - 80) := by
  decide +kernel

/-- A primary fault. -/
def primary0 : FaultEv := FaultEv.base 0x05 2 [5]

theorem meets_RecoveriesGoThroughTheirPhases_1 : ∀ acted ∈ [true, false], ∀ c ∈ [100000 - 90, 100000 - 89, 100000 - 88],
    let x := { FltSlice.init with phase := .contain, acted := acted, containAt := c, primary := some primary0 }
    let s := failing [] x
    (5 : Nat) < 64 ∧ s.flt.block = 0 ∧ s.fsl 5 = x ∧ x.containAt ≤ s.spn.tick ∧ x.store.length < 64 ∧ s.captureMode 5 = 1 ∧ run.captureMode 5 = 0
    ∧ (x.containAt + 89 ≤ s.spn.tick ↔ c ≠ 100000 - 88) := by decide +kernel

theorem meets_RecoveriesGoThroughTheirPhases_2 : let c : Capture := ⟨1, 16, [1], [], 0, true⟩
    let x := { FltSlice.init with phase := .capture, capture := some c, since := 0 }
    let s := failing [] x
    let late : Machine.State := { s with spn := { s.spn with tick := 128908 } }
    s.flt.block = 0 ∧ (s.fsl 5).phase = .capture ∧ (s.fsl 5).capture = some c ∧ c.taking = true ∧ (s.fsl 5).since + 128907 < late.spn.tick
    ∧ late.flt.block = 0 ∧ (s.fsl 6).phase = .none := by decide +kernel

theorem meets_RecoveriesGoThroughTheirPhases_3 : let e := cmd 3 Op.sliceReset []
    let x := { FltSlice.init with phase := .reset, waiters := [e.ref], since := 99759 }
    let s := having (failing [] x) e
    s.flt.block = 0 ∧ (s.fsl 5).phase = .reset ∧ (s.fsl 5).retrain = [] ∧ (s.fsl 5).domainOut = false ∧ s.clustersOf 5 = [0, 1] ∧ bit 0 0 = false ∧ bit 0 1 = false
    ∧ bit 2 1 = true ∧ (s.mb e.ref.fn).exec.any (fun y => y.ref == e.ref && !y.done) = true ∧ s.vfOf 5 = some 3 ∧ (s.fsl 5).since + 240 < s.spn.tick := by
  decide +kernel

theorem meets_RecoveriesGoThroughTheirPhases_4 : let s := failing [] { FltSlice.init with phase := .reset, retrain := [.group 3 4] }
    (3 : Nat) < 4 ∧ (4 : Nat) < 5 ∧ s.flt.slices.any (fun e => e.2.retrain.contains (.group 3 4)) = true
    ∧ run.flt.slices.any (fun e => e.2.retrain.contains (.group 3 4)) = false := by decide

theorem meets_RecoveriesGoThroughTheirPhases_5 : (∀ c ∈ [100000 - 92, 100000 - 91], let s := blockReset 1 c
    s.flt.block = 1 ∧ (s.flt.blockAt + 92 ≤ s.spn.tick ↔ c = 100000 - 92))
    ∧ { blockReset 1 0 with spn := { run.spn with tick := 3906250 } }.flt.blockAt + 3906250 ≤ 3906250 ∧ run.flt.block ≠ 1 := by decide

theorem meets_RecoveriesGoThroughTheirPhases_6 : (blockReset 1 0).auditFails = 0
    ∧ { blockReset 1 0 with tpl := { run.tpl with free := 0 } }.auditFails ≠ 0 := by decide +kernel

/-! ## Hypotheses met: control complex -/

/-- `run` with core 0 as given. -/
def cored (st : CoreSt) (running : Nat) : Machine.State :=
  { run with ccx := { run.ccx with cores := (0, ⟨st, 80468, running, [], []⟩) :: run.ccx.cores.tail } }

/-- `run` in phase `p` of a firmware update. -/
def updating (p at' : Nat) (r : Option CmdRef) : Machine.State :=
  { run with ccx := { run.ccx with phase := p, quiesceAt := at', updCmd := r, standby := some ⟨2, 2, 2, 1, []⟩ } }

theorem meets_CoresRestartAndServeAgain_1 : ∀ st ∈ [CoreSt.held, .running, .restarting, .halted], let s := cored st 0
    (0 : Nat) < 4 ∧ (s.core 0).st = st ∧ bit (compMask 0) 0 = true ∧ bit (compMask 0) 1 = false ∧ s.ccx.active ≠ none ∧ State.reset.ccx.active = none := by
  decide

theorem meets_CoresRestartAndServeAgain_2 : let s := cored .running 0
    (0 : Nat) < 5 ∧ (s.core (coreOf 0)).st = .running ∧ s.ccx.phase = 0 ∧ bit (s.core (coreOf 0)).running 0 = false ∧ s.mbx = []
    ∧ (s.core (coreOf 0)).since + 19532 ≤ s.spn.tick ∧ { s with spn := { s.spn with tick := 99999 } }.spn.tick < (s.core (coreOf 0)).since + 19532 := by decide

theorem meets_CoresRestartAndServeAgain_3 : (4 : Nat) < 5 ∧ (63 : Nat) < 64 ∧ (65535 : Nat) < 65536 ∧ bit { run.ccx with logMask := 2 ^ 63 }.logMask 63 = true
    ∧ bit { run.ccx with logMask := 0 }.logMask 63 = false ∧ (run.core (coreOf 4)).st = .running := by decide

theorem meets_FirmwareIsLoadedAndUpdated_1 : let e := cmd pf0 Op.fwLoad [(0x10, 8, 4096), (0x18, 4, 512)]
    let s := having run e
    let j : FwJob := ⟨false, 0, 512, [], 0, [], none, none⟩
    let s' : Machine.State := { s with ccx := { s.ccx with job := some j } }
    Starts s pf0 Op.fwLoad e ∧ fieldAt e.entry 0x18 4 ≠ 0 ∧ s.ccx.job = none ∧ Starts s' pf0 Op.fwLoad e ∧ s'.ccx.job ≠ none := by
  refine ⟨⟨by decide +kernel, by decide⟩, by decide +kernel, by decide, ⟨by decide +kernel, by decide⟩, by decide⟩

theorem meets_FirmwareIsLoadedAndUpdated_2 : ∀ p ∈ [0, 1], let e := cmd pf0 Op.fwUpdate [(0x10, 8, 4096), (0x18, 4, 512)]
    let s := having (updating p 0 none) e
    s.toStart pf0 Op.fwUpdate = some e ∧ e.ref.fn = pf0 ∧ fieldAt e.entry 0x18 4 ≠ 0 ∧ s.ccx.job = none ∧ s.ccx.phase = p := by decide +kernel

theorem meets_FirmwareIsLoadedAndUpdated_3 : let e := { cmd pf0 Op.fwUpdate [] with stage := .running }
    let busy := { cmd 3 Op.podPut [] with stage := .running }
    (updating 2 0 none).ccx.phase = 2 ∧ (updating 2 0 none).mbx = [] ∧ (updating 2 21875 none).ccx.quiesceAt + 78125 ≤ run.spn.tick
    ∧ (having (updating 2 21876 (some e.ref)) busy).ccx.phase = 2 ∧ run.spn.tick < 21876 + 78125
    ∧ (((having (updating 2 21876 (some e.ref)) busy).mb 3).exec.any (fun x => x.stage == .running && !x.done && decide (some x.ref ≠ some e.ref))) = true := by
  decide +kernel

theorem meets_FirmwareIsLoadedAndUpdated_4 : let e := { cmd pf0 Op.fwUpdate [] with stage := .running }
    let s := having (updating 4 0 (some e.ref)) e
    s.ccx.standby = some ⟨2, 2, 2, 1, []⟩ ∧ s.ccx.phase = 4 ∧ (∀ x ∈ (s.mb pf0).exec, some x.ref = s.ccx.updCmd) ∧ e.ref.op = Op.fwUpdate
    ∧ s.ccx.active = some ⟨1, 1, 1, 1, []⟩ ∧ s.ccx.job = none ∧ (s.mb e.ref.fn).exec.any (fun y => y.ref == e.ref && !y.done) = true
    ∧ { s with spn := { s.spn with tick := 781250 } }.ccx.quiesceAt + 781250 ≤ 781250 ∧ s.spn.tick < s.ccx.quiesceAt + 781250 := by decide +kernel

/-! ## Hypotheses met: the machine -/

theorem meets_StepTakesTheFrontCommand_1 : State.reset.pending = [] := rfl

theorem meets_DecidedEventsTakeEffect_1 : run.mce.halted = false ∧ Tbl.wf (dflt KeyE.init) run.mce.keys = true
    ∧ { run with mce := { run.mce with halted := true } }.mce.halted = true := by decide

theorem meets_DecidedEventsTakeEffect_2 : run.flt.block = 0 ∧ run.flt.readyTick = none ∧ (blockReset 2 0).flt.block = 2 := by decide

theorem meets_DecidedEventsTakeEffect_3 : ((owning .dirty).grain 100).st = .dirty ∧ ((owning .scrubbing).grain 100).st = .scrubbing
    ∧ (100 : Nat) ≤ 100 ∧ (100 : Nat) < 100 + 1 ∧ (100 : Nat) < nGrains := by decide

theorem meets_DecidedEventsTakeEffect_4 : let s : Machine.State := { run with mce := { run.mce with keys := [(9, ⟨.retiring, 5, 1, false, [], []⟩)] } }
    (s.key 9).st = .retiring ∧ (run.key 9).st ≠ .retiring := by decide

theorem meets_DecidedEventsTakeEffect_5 : let x := queue .task 4096 3 0 0
    (queued x).queue 5 7 = some x ∧ x.stopped = false := by decide

theorem meets_EveryStepTakesOneCommandAndFusesOnlyGain_1 : step { run with pending := [.tick] } = exec .tick run := rfl

/-- A step answers a next state. -/
def goesOn (s : Machine.State) : Bool := match step s with | .next _ => true | _ => false

theorem meets_EveryStepTakesOneCommandAndFusesOnlyGain_2 : goesOn { run with pending := [.remask] } = true := by decide +kernel

theorem meets_OnlyTicksAndResetsRuleTheMachine_1 : let s : Machine.State := { run with pending := [.remask] }
    s.pending = .remask :: [] ∧ goesOn s = true ∧ { s with mce := { s.mce with halted := true } }.mce.halted = true
    ∧ Instr.remask ∉ [Instr.coldReset, .warmReset, .vddLlyLoss, .secureDomainPowerUp, .backupTimeout, .epochBoundary, .extest, .clamp, .highz, .tapReset] := by
  decide +kernel

/-! ## Single steps and computations with results taken from the manual -/

/-- The state a meaning answers. -/
def after (o : Host.Outcome Machine.State Fault Refusal) : Option Machine.State := match o with | .next t => some t | _ => none

/-- 06, the sentence after the CRC-32C: the value over "123456789". -/
theorem test_crc32c : crc32c [0x31, 0x32, 0x33, 0x34, 0x35, 0x36, 0x37, 0x38, 0x39] = 0xE3069283 := by decide +kernel

/-- 07, worked example: the 16 elements shown, from base codes and factors to output codes. -/
theorem test_fold_example :
    let base := [[0x38, 0x40, 0xC4, 0x30], [0x3C, 0xB8, 0x48, 0x00], [0x7E, 0x28, 0xC0, 0x44], [0xB4, 0x4C, 0x3A, 0xFE]]
    let b := [[0x3F80, 0x3F00], [0xC000, 0x3E80], [0x3F00, 0x3F80], [0x4040, 0xBF80]]
    let a := [[0x3F80, 0x3F00], [0xBF00, 0x3F80], [0x4000, 0xBF80], [0x3E00, 0x41A0]]
    (base.zip b).map (fun r => (r.1.zip a).map (fun c =>
      encode8 1 ((adapted (scaled (elemValue 1 c.1) 0x7D) (unpack32 0x3E800000)
        (rankProduct false 0 2 (r.2.map unpack16) (c.2.map unpack16))).shift (-2))))
    = [[(0x41, false), (0x40, false), (0xBC, false), (0x53, false)], [(0xAC, false), (0x28, false), (0xA8, false), (0x4A, false)],
       [(0x7E, false), (0x38, false), (0xC0, false), (0x5C, false)], [(0x3E, false), (0x46, false), (0x50, false), (0xFE, true)]] := by decide +kernel

/-- 08, the example after the AdamW step: θ becomes 0.99896240234375 and the factor stays 1.0. -/
theorem test_adam_example :
    let c := adamConst 0x3F800000 0x3F800000 (unpack32 0x3F600000) (unpack32 0x3F700000) (unpack32 0x3A800000) (unpack32 0x3D800000)
    adamElem c (unpack32 0x3F800000) (unpack32 0x3F600000) (unpack32 0x3F700000) (unpack32 0x3A800000) (unpack32 0x35800000) 0x3F000000
      ⟨0x3F800000, 0, 0, 0x3F80⟩ = (⟨0x3F7FBC00, 0x3D800000, 0x3C800000, 0x3F80⟩, false) := by decide +kernel

/-- 03, the example of the device address: grain 75,000, line 259 is stack 2, port MPT67. -/
theorem test_place_of_a_line : stackOf 75000 = 2 ∧ run.dataPort 75000 259 = 67 := by decide

/-- 26, the example of LLY_BND_GT_SEL. -/
theorem test_gt_sel : let s : Machine.State := { run with bnd := { run.bnd with gt := [(75000, ⟨.owned, true, .priv, false, 7, 37, 0, 0, 0, 0⟩)] } }
    (after (execGtSelWrite 0 75000 s)).map (fun t => (t.rd (srcReg 0 R.bndGtLo), t.rd (srcReg 0 R.bndGtHi))) = some (0x00250709, 0) := by decide +kernel

/-- 25, the example of a region's lines: line 29,294,851 of stack 2 lies in grain 75,000. -/
theorem test_failed_region : (after (execFailedRegion 2 29294851 29294851 run)).map (fun t => t.raised)
    = some [⟨3, none, Sub.bnd, .grainPoison 75000 1 8⟩] := by decide +kernel

/-- 10, the example of t_pre: 120 MiB at 1 TB/s take 496 tk. -/
theorem test_save_time : { run with bnd := { run.bnd with defs := [(5, some { sl5 with memRes := 1000 })] } }.tPre 5 120 = 496 := by decide +kernel

/-- 10 R226: more than 4,096 descriptors in one doorbell set BADDB and raise nothing. -/
theorem test_doorbell_too_large : let s := queued (queue .task 4096 3 0 0)
    (after (execDoorbell 3 7 4097 s)).map (fun t => ((t.queue 5 7).map Queue.baddb, t.raised)) = some (some true, []) := by decide +kernel

/-- 20 R447: FREEZE acts in class 12. -/
theorem test_freeze_raises : let e := cmd pf0 Op.recCtl [(0x0C, 1, 1)]
    (after (execFreeze (having run e))).map (fun t => t.raised) = some [⟨12, none, Sub.evr, .recFreeze (some e.ref)⟩] := by decide +kernel

/-- 26 R550: an unmapped write changes nothing but the error flag. -/
theorem test_unmapped_write : (after (execRegisterWrite 0 64 0xFFFFFC 15 1 run)).map (fun t => (t.spn, t.rf R.idAccerr 1 1)) = some (run.spn, 1) := by decide +kernel

end Sys2Proof.Tests
end

section
/-! Proofs: REC_CTL (20 R447, 24 R520, R521), first as a command that starts, then as the class 12 event it raised takes effect. -/

namespace Sys2Proof.Proofs

open Sys2Proof.Machine Sys2Proof.Laws

/-! ## A command picked by a field of its entry -/

section
variable {s : State} {f op : Nat} {e : ExecCmd} {pick : ExecCmd → Bool}

/-- A command of another form does not start. -/
theorem commandIf_of_not_pick (h : Starts s f op e) (hp : pick e = false) (checks : State → ExecCmd → List (Bool × Nat × Nat))
    (run : State → ExecCmd → State) : s.commandIf f op pick checks run = s := by
  simp [State.commandIf, h.1, hp]

/-- A command whose field checks pass runs. -/
theorem commandIf_run (h : Starts s f op e) (hp : pick e = true) {checks : State → ExecCmd → List (Bool × Nat × Nat)}
    (hc : firstOf (checks (s.startCmd e) e) = none) (run : State → ExecCmd → State) :
    s.commandIf f op pick checks run = run (s.startCmd e) e := by
  simp [State.commandIf, State.judge, h.1, hp, hc]

/-- The first field check a command fails ends it. -/
theorem commandIf_fails (h : Starts s f op e) (hp : pick e = true) {checks : State → ExecCmd → List (Bool × Nat × Nat)} {x : Fail}
    (hc : firstOf (checks (s.startCmd e) e) = some x) (run : State → ExecCmd → State) :
    s.commandIf f op pick checks run = (s.startCmd e).finish (some e.ref) x.status x.detail [] := by
  simp [State.commandIf, State.judge, h.1, hp, hc]

end

/-! ## What the shared operations leave unchanged -/

theorem startCmd_frame (s : State) (e : ExecCmd) : s.startCmd e = { s with mbx := (s.startCmd e).mbx } := rfl

theorem finish_frame (s : State) (c : Option CmdRef) (status detail : Nat) (result : List Byte) :
    s.finish c status detail result = { s with mbx := (s.finish c status detail result).mbx } := by
  cases c <;> rfl

@[simp] theorem finish_evr (s : State) (c : Option CmdRef) (status detail : Nat) (result : List Byte) :
    (s.finish c status detail result).evr = s.evr := by
  rw [finish_frame]

/-- A record offered to the recorder leaves the mailboxes alone, in every branch of `State.offer`. -/
@[simp] theorem offer_mbx (s : State) (cls kind tick slice sub aux : Nat) (d : List Nat) : (s.offer cls kind tick slice sub aux d).mbx = s.mbx := by
  simp only [State.offer, apply_ite State.mbx, ite_self]

/-! ## REC_CTL starts -/

/-- REC_CTL's form with OP `n`, which raises `body`: what the rows FREEZE, UNFREEZE and CLEAR have in common. -/
def recCtl (n : Nat) (body : Option CmdRef → EvBody) (s : State) : State :=
  s.commandIf pf0 Op.recCtl (opIs 0x0C n [1, 2, 3]) (fun _ e => [badAt (fieldAt e.entry 0x0C 1 % 4 != n) 0x0C 0])
    (fun s e => s.recEv (body (some e.ref)))

theorem exec_freeze (s : State) : exec .freeze s = .next (recCtl 1 .recFreeze s) := rfl

theorem exec_unfreeze (s : State) : exec .unfreeze s = .next (recCtl 2 .recThaw s) := rfl

theorem exec_clear (s : State) : exec .clear s = .next (recCtl 3 .recClear s) := rfl

section
variable {s : State} {e : ExecCmd} {n : Nat} (body : Option CmdRef → EvBody)

/-- A row does nothing for a command that holds another row's OP. -/
theorem recCtl_of_other_op (h : Starts s pf0 Op.recCtl e) {m : Nat} (ho : fieldAt e.entry 0x0C 1 % 4 = m) (hmn : m ≠ n) (hm : [1, 2, 3].contains m = true) :
    recCtl n body s = s := by
  have hp : opIs 0x0C n [1, 2, 3] e = false := by
    simp only [opIs, ho, hm, Bool.not_true, Bool.or_false, beq_eq_false_iff_ne]
    exact hmn
  exact commandIf_of_not_pick h hp _ _

/-- A row starts the command that holds its OP, and raises its event in class 12. -/
theorem recCtl_of_op (h : Starts s pf0 Op.recCtl e) (ho : fieldAt e.entry 0x0C 1 % 4 = n) :
    recCtl n body s = (s.startCmd e).recEv (body (some e.ref)) := by
  have hp : opIs 0x0C n [1, 2, 3] e = true := by simp [opIs, ho]
  exact commandIf_run h hp (by simp [firstOf, badAt, ho]) _

theorem recCtl_raises (h : Starts s pf0 Op.recCtl e) (ho : fieldAt e.entry 0x0C 1 % 4 = n) :
    Raised (recCtl n body s) ⟨12, none, Sub.evr, body (some e.ref)⟩
      ∧ recCtl n body s = { s with mbx := (recCtl n body s).mbx, spn := (recCtl n body s).spn, regs := (recCtl n body s).regs } := by
  rw [recCtl_of_op body h ho]
  obtain ⟨hraised, hframe⟩ := raise_spec (s.startCmd e) ⟨12, none, Sub.evr, body (some e.ref)⟩
  refine ⟨hraised, ?_⟩
  unfold State.recEv
  rw [hframe, startCmd_frame]

/-- OP 0 is no row's: whichever row takes the command up ends it with BAD_FIELD. -/
theorem recCtl_of_op_zero (h : Starts s pf0 Op.recCtl e) (ho : fieldAt e.entry 0x0C 1 % 4 = 0) (hn : n ≠ 0) :
    Ended (recCtl n body s) e.ref Status.badField ∧ recCtl n body s = { s with mbx := (recCtl n body s).mbx } := by
  have hp : opIs 0x0C n [1, 2, 3] e = true := by simp [opIs, ho]
  have hfails : recCtl n body s = (s.startCmd e).finish (some e.ref) Status.badField (dtl 0x0C 0) [] :=
    commandIf_fails h hp (x := ⟨Status.badField, dtl 0x0C 0⟩) (by simp [firstOf, badAt, ho, hn.symm]) _
  obtain ⟨x, hx, hr, hd⟩ := startCmd_mem h
  rw [hfails]
  exact ⟨finish_ended hx hr hd _ _ _, by rw [finish_frame, startCmd_frame]⟩

end

/-! ## The event takes effect -/

section
variable (s : State) (stamp : Nat) (c : Option CmdRef)

theorem freezeEffect_of_running (h : s.evr.frozen = none) :
    s.freezeEffect stamp c = { s with evr := { s.evr with frozen := some stamp, frzdrop := 0 } }.finish c Status.ok 0 [] := by
  simp [State.freezeEffect, h]

theorem freezeEffect_of_frozen (h : s.evr.frozen ≠ none) : s.freezeEffect stamp c = s.finish c Status.okEmpty 0 [] := by
  obtain ⟨f, hf⟩ := Option.ne_none_iff_exists'.mp h
  simp [State.freezeEffect, hf]

theorem thawEffect_of_running (h : s.evr.frozen = none) : s.thawEffect stamp c = s.finish c Status.okEmpty 0 [] := by
  simp [State.thawEffect, h]

/-- A frozen recorder runs again behind a record of its own; what the record leaves elsewhere is `State.offer`'s. -/
theorem thawEffect_of_frozen (h : s.evr.frozen ≠ none) :
    ∃ t : State, t.mbx = s.mbx ∧ t.evr.frozen = none ∧ s.thawEffect stamp c = t.finish c Status.ok 0 [] := by
  obtain ⟨f, hf⟩ := Option.ne_none_iff_exists'.mp h
  simp only [State.thawEffect, hf]
  refine ⟨_, ?_, ?_, rfl⟩
  · exact offer_mbx ..
  · rfl

theorem clearEffect_of_running (h : s.evr.frozen = none) : s.clearEffect c = s.finish c Status.badField (dtl 0x0C 0) [] := by
  simp [State.clearEffect, h]

theorem clearEffect_of_frozen (h : s.evr.frozen ≠ none) (hc : s.evr.clearing = false) :
    s.clearEffect c = { s with evr := { s.evr with clearing := true, clearCmd := c } } := by
  simp [State.clearEffect, h, hc]

end

section
variable {s : State} {r : CmdRef} (stamp : Nat)

theorem freezeEffect_ends (hr : ∃ e ∈ (s.mb r.fn).exec, e.ref = r ∧ e.done = false) :
    (s.evr.frozen = none → s.freezeEffect stamp (some r)
        = { s with evr := { s.evr with frozen := some stamp, frzdrop := 0 }, mbx := (s.freezeEffect stamp (some r)).mbx }
      ∧ Ended (s.freezeEffect stamp (some r)) r Status.ok)
    ∧ (s.evr.frozen ≠ none → s.freezeEffect stamp (some r) = { s with mbx := (s.freezeEffect stamp (some r)).mbx }
      ∧ Ended (s.freezeEffect stamp (some r)) r Status.okEmpty) := by
  obtain ⟨x, hx, hxr, hd⟩ := hr
  refine ⟨fun h => ?_, fun h => ?_⟩
  · rw [freezeEffect_of_running s stamp _ h]
    exact ⟨finish_frame .., finish_ended hx hxr hd ..⟩
  · rw [freezeEffect_of_frozen s stamp _ h]
    exact ⟨finish_frame .., finish_ended hx hxr hd ..⟩

theorem thawEffect_ends (hr : ∃ e ∈ (s.mb r.fn).exec, e.ref = r ∧ e.done = false) :
    (s.evr.frozen = none → s.thawEffect stamp (some r) = { s with mbx := (s.thawEffect stamp (some r)).mbx }
      ∧ Ended (s.thawEffect stamp (some r)) r Status.okEmpty)
    ∧ (s.evr.frozen ≠ none → (s.thawEffect stamp (some r)).evr.frozen = none ∧ Ended (s.thawEffect stamp (some r)) r Status.ok) := by
  obtain ⟨x, hx, hxr, hd⟩ := hr
  refine ⟨fun h => ?_, fun h => ?_⟩
  · rw [thawEffect_of_running s stamp _ h]
    exact ⟨finish_frame .., finish_ended hx hxr hd ..⟩
  · obtain ⟨t, hmbx, hfrozen, heq⟩ := thawEffect_of_frozen s stamp (some r) h
    have hxt : x ∈ (t.mb r.fn).exec := by rwa [State.mb, hmbx]
    rw [heq, finish_evr]
    exact ⟨hfrozen, finish_ended hxt hxr hd ..⟩

theorem clearEffect_ends (hr : ∃ e ∈ (s.mb r.fn).exec, e.ref = r ∧ e.done = false) (h : s.evr.frozen = none) :
    s.clearEffect (some r) = { s with mbx := (s.clearEffect (some r)).mbx } ∧ Ended (s.clearEffect (some r)) r Status.badField := by
  obtain ⟨x, hx, hxr, hd⟩ := hr
  rw [clearEffect_of_running s _ h]
  exact ⟨finish_frame .., finish_ended hx hxr hd ..⟩

end

/-- Settles O41: the three rows are one form of command (`recCtl`) that picks by OP, and each of the three effects is split by whether the recorder is frozen. -/
theorem recCtlActsInClassTwelve : Obligations.RecCtlActsInClassTwelve := by
  refine fun s => ⟨fun e h => ⟨fun ho => ?freeze, fun ho => ?unfreeze, fun ho => ?clear, fun ho => ?badOp⟩, fun r stamp due src nums later hr => ?effect⟩
  case freeze =>
    exact ⟨⟨_, exec_freeze s, recCtl_raises _ h ho⟩, ⟨_, exec_unfreeze s, recCtl_of_other_op _ h ho (by decide) (by decide)⟩,
      ⟨_, exec_clear s, recCtl_of_other_op _ h ho (by decide) (by decide)⟩⟩
  case unfreeze =>
    exact ⟨⟨_, exec_unfreeze s, recCtl_raises _ h ho⟩, ⟨_, exec_freeze s, recCtl_of_other_op _ h ho (by decide) (by decide)⟩,
      ⟨_, exec_clear s, recCtl_of_other_op _ h ho (by decide) (by decide)⟩⟩
  case clear =>
    exact ⟨⟨_, exec_clear s, recCtl_raises _ h ho⟩, ⟨_, exec_freeze s, recCtl_of_other_op _ h ho (by decide) (by decide)⟩,
      ⟨_, exec_unfreeze s, recCtl_of_other_op _ h ho (by decide) (by decide)⟩⟩
  case badOp =>
    intro c hc
    simp only [List.mem_cons, List.not_mem_nil, or_false] at hc
    rcases hc with rfl | rfl | rfl
    · exact ⟨_, exec_freeze s, recCtl_of_op_zero _ h ho (by decide)⟩
    · exact ⟨_, exec_unfreeze s, recCtl_of_op_zero _ h ho (by decide)⟩
    · exact ⟨_, exec_clear s, recCtl_of_op_zero _ h ho (by decide)⟩
  case effect =>
    obtain ⟨freezeRunning, freezeFrozen⟩ := freezeEffect_ends stamp hr
    obtain ⟨thawRunning, thawFrozen⟩ := thawEffect_ends stamp hr
    refine ⟨fun h => ?_, fun h => ?_⟩
    · obtain ⟨hf, hfe⟩ := freezeRunning h
      obtain ⟨ht, hte⟩ := thawRunning h
      exact ⟨hf, hfe, ht, hte, clearEffect_ends hr h⟩
    · obtain ⟨hf, hfe⟩ := freezeFrozen h
      obtain ⟨ht, hte⟩ := thawFrozen h
      exact ⟨hf, hfe, ht, hte, clearEffect_of_frozen s _ h⟩

end Sys2Proof.Proofs
end

section
/-! Proofs: accesses to offsets that no register occupies (26 R550): reads answer 0, and a write leaves at most its mark in LLY_ID_ACCERR. -/

namespace Sys2Proof.Proofs

open Sys2Proof.Machine Sys2Proof.Laws

/-! ## A field replaced leaves the bits below it -/

/-- Bits `hi..lo` in place are no more than the whole number. -/
theorem two_pow_mul_bits_le (m hi lo : Nat) : 2 ^ lo * bits m hi lo ≤ m :=
  calc 2 ^ lo * bits m hi lo ≤ 2 ^ lo * (m >>> lo) := Nat.mul_le_mul_left _ (Nat.mod_le ..)
    _ ≤ m := by rw [Nat.shiftRight_eq_div_pow]; exact Nat.mul_div_le ..

theorem setBits_mod_two_pow (m hi lo v : Nat) : setBits m hi lo v % 2 ^ lo = m % 2 ^ lo := by
  rw [setBits, Nat.add_mul_mod_self_right, Nat.mul_comm (bits m hi lo), Nat.sub_mul_mod (two_pow_mul_bits_le m hi lo)]

theorem bit_setBits_of_lt {k lo : Nat} (h : k < lo) (m hi v : Nat) : bit (setBits m hi lo v) k = bit m k := by
  have hlow : ∀ x, (x % 2 ^ lo).testBit k = x.testBit k := fun x => by simp [h]
  rw [bit, bit, ← hlow (setBits m hi lo v), setBits_mod_two_pow, hlow]

/-! ## A dropped write shown in LLY_ID_ACCERR -/

theorem accErr_frame (s : State) (flag src a : Nat) : s.accErr flag src a = { s with regs := (s.accErr flag src a).regs } := rfl

theorem accErr_rd_of_ne (s : State) (flag src a : Nat) {b : Nat} (h : b ≠ R.idAccerr) : (s.accErr flag src a).rd b = s.rd b := by
  rw [State.accErr, rd_wr, if_neg h]

/-- The flags stand below the BLOCK and source fields that the drop also records, so its own flag reads 1. -/
theorem accErr_sets_flag (s : State) {flag : Nat} (h : flag < 8) (src a : Nat) : bit ((s.accErr flag src a).rd R.idAccerr) flag = true := by
  have hword : ∀ x, bit (x % 2 ^ 32) flag = bit x flag := fun x => by
    rw [bit, bit, Nat.testBit_mod_two_pow, decide_eq_true (by omega), Bool.true_and]
  rw [State.accErr, rd_wr, if_pos rfl, hword, bit_setBits_of_lt (by omega), bit_setBits_of_lt h]
  simp [bit]

/-! ## Reads and writes where no register lies -/

theorem pfView_of_unmapped (s : State) (src : Nat) {a : Nat} (hrow : rowAt a = none) (htable : ¬ (0x800000 ≤ a ∧ a < 0x800200)) (hpend : a ≠ 0x801000) :
    s.pfView src a = 0 := by
  simp [State.pfView, hrow, htable, hpend]

/-- A write of any source that may write there and is served is dropped with UNMAPPED. -/
theorem pfWrite_of_unmapped {s : State} (hr : s.Runs) {src a : Nat} (hcore : (2 ≤ src && !coreMayWrite (src - 2) a) = false)
    (hserved : s.readable src a = true) (hrow : rowAt a = none) (htable : ¬ (0x800000 ≤ a ∧ a < 0x800200)) (hpend : a ≠ 0x801000)
    (hpend' : a ≠ 0x801004) (v : Nat) : s.pfWrite src a v = s.accErr 1 src a := by
  simp [State.pfWrite, hcore, hserved, hrow, htable, hpend, hpend', runs_deepDown hr]

theorem vfWrite_of_unmapped (s : State) (f : Nat) {off : Nat} (hrow : findRow vfRegs off = none) (htable : ¬ (0x20000 ≤ off ∧ off < 0x20200)) (v : Nat) :
    s.vfWrite f off v = s := by
  simp [State.vfWrite, hrow, htable]

/-! ## REGISTER_WRITE's arm -/

theorem exec_registerWrite (src f off be v : Nat) (s : State) : exec (.registerWrite src f off be v) s = execRegisterWrite src f off be v s := rfl

/-- No register, no partial write of one: with any byte enables the write goes to the place. -/
theorem execRegisterWrite_pf0_of_unmapped {a : Nat} (hrow : rowAt a = none) (halign : a % 4 = 0) (hlt : a < 2 ^ 24) (src be v : Nat) (s : State) :
    execRegisterWrite src pf0 a be v s = .next (s.pfWrite src a (v % 2 ^ 32)) := by
  simp only [execRegisterWrite, halign, Nat.sub_zero, Nat.mod_eq_of_lt hlt, hrow]
  simp

/-- A host write of a VF's window with byte enables missing is dropped, any other goes to the place. -/
theorem execRegisterWrite_vf {f off : Nat} (hf : f < 64) (halign : off % 4 = 0) (hlt : off < 2 ^ 18) (be v : Nat) (s : State) :
    execRegisterWrite 0 f off be v s = .next (if be % 16 = 15 then s.vfWrite f off (v % 2 ^ 32) else s) := by
  have hpf : f ≠ pf0 := Nat.ne_of_lt hf
  have hnot : ¬ 64 ≤ f := Nat.not_le.mpr hf
  simp only [execRegisterWrite, halign, Nat.sub_zero, Nat.mod_eq_of_lt hlt, if_neg hpf]
  by_cases hbe : be % 16 = 15 <;> simp [hbe, hnot]

/-- Settles O4: each window's write arm meets the branch for a place with no row, and in PF0's that branch is `State.accErr` with flag 1. -/
theorem unmappedOffsetsReadZeroAndDropWrites : Obligations.UnmappedOffsetsReadZeroAndDropWrites := by
  refine fun s hr => ⟨fun src a hrow htable hpend _ => ?read, fun a be v hrow halign hlt htable hpend hpend' => ?writePf,
    fun f off be v hf halign hlt hrow htable => ?writeVf⟩
  case read => exact pfView_of_unmapped s src hrow htable hpend
  case writePf =>
    refine ⟨s.accErr 1 0 a, ?_, accErr_frame .., accErr_sets_flag s (by decide) 0 a, fun b => accErr_rd_of_ne s 1 0 a⟩
    rw [exec_registerWrite, execRegisterWrite_pf0_of_unmapped hrow halign hlt,
      pfWrite_of_unmapped hr rfl (readable_host hr a) hrow htable hpend hpend']
  case writeVf =>
    refine ⟨s, ?_, rfl⟩
    rw [exec_registerWrite, execRegisterWrite_vf hf halign hlt, vfWrite_of_unmapped s f hrow htable, ite_self]

end Sys2Proof.Proofs
end
